-- ==== Sys2Proof/Word.lean ====
section
/-! DEFINITION. Word.lean: the word types of the YR-6400 model and the two list shapes its stores have. -/

namespace Sys2Proof

/-- A byte; every multi-byte field is little-endian (R5). -/
abbrev Byte := BitVec 8

/-- A 32-bit word: an accumulator word, a flag, an FP32 bit pattern. -/
abbrev Word32 := BitVec 32

/-- A 64-bit word: a scalar register, a window register, a counter. -/
abbrev Word64 := BitVec 64

/-- A sparse store of `w`-bit cells: keys strictly rising, no cell equal to zero; an unlisted cell reads 0. -/
abbrev SMap (w : Nat) := List (Nat × BitVec w)

/-- A sparse table of records by number: keys strictly rising; an unlisted number has no record of its own. -/
abbrev Tab (α : Type) := List (Nat × α)

end Sys2Proof
end

