-- ==== Sys2Proof/Syntax.lean ====
section
/-! DEFINITION. Syntax.lean: the commands of the block, one constructor per row of spec/opcode_table.json, and the
records their operands use. What the device reads from outside (host memory, partner, fabric, sensors) comes with the
command that reads it (log entry 5). -/

namespace Sys2Proof

/-- A command packet without its opcode byte, which the constructor fixes (R307): bytes 1, 2-3, 4-7, 8-15, 16-63. -/
structure Packet where
  flags : BitVec 8
  tenantClass : BitVec 16
  seq : BitVec 32
  handle : BitVec 64
  params : BitVec 384
  deriving DecidableEq, Repr

/-- An error inside the array while an operation runs (R51): the block it falls in (in the order of the K-blocks, or of the
groups of 32 products in BF16 and FP16), the array row and column of the cell (row 128 is the check row, column 0x800 the check
column), and by how much it changes the cell's block integer (for BF16 and FP16, the sum of the cell's integer significand
products). -/
structure CellError where
  block : Nat
  row : Nat
  col : Nat
  amount : Int
  deriving DecidableEq, Repr

/-- An error the caddy's way meets when a way is looked at (R196): uncorrectable or corrected, and the line it falls in. -/
structure CaddyError where
  uncorrectable : Bool
  part : Nat
  line : Nat
  deriving DecidableEq, Repr

/-- A read of a function's window (R287): BAR2 or BAR0, its offset, its byte enables. -/
structure WindowRead where
  bar2 : Bool
  offset : Nat
  be : BitVec 8
  deriving DecidableEq, Repr

/-- A memory read that returns (R178, R201): which of the handle's reads, and the granules that packages report on the way, by their place
among those read. -/
structure LandRead where
  read : Nat
  bad : List Nat
  deriving DecidableEq, Repr

/-- What a pour record's write meets outside (R341, R360): whether a host takes it, and the segments that other members hold. -/
structure RecordInput where
  ok : Bool
  far : List (List (BitVec 8))
  deriving DecidableEq, Repr

/-- A caddy way that firmware looks at, and the errors it has met since (R196). -/
structure WayErrors where
  way : Fin 16
  errs : List CaddyError
  deriving DecidableEq, Repr

/-- What is measured at the module's input over a period of the cap loop (R415, R447): power in W, current, voltage. -/
structure InputSample where
  watts : Nat
  iin : Nat
  vin : Nat
  deriving DecidableEq, Repr

/-- What an operation's second detection or an uncorrectable error was (R87, R89). -/
inductive CheckFail where
  /-- the unit's own second mismatch: mod-3 residues of the array, comparison of the drain, lanes of the vector unit -/
  | second
  /-- a double-bit error of the accumulator file -/
  | accFile
  /-- a double-bit error of the leaf buffer, which only the array reads -/
  | leafBuffer
  deriving DecidableEq, Repr

/-- What the checking hardware beside an operation meets (R51, R52, R85-R87, R263). -/
inductive Check where
  /-- nothing -/
  | pass
  /-- a first mismatch whose replay, re-drain or reissue passed -/
  | retryPass
  /-- a single-bit error was corrected in the accumulator file or leaf buffer -/
  | corrected
  /-- errors in the array's cells while the operation ran, and while it was replayed -/
  | cells (first replay : List CellError)
  /-- a second mismatch outside the residues, or an uncorrectable error; array row and column where located -/
  | fail (kind : CheckFail) (loc : Option (BitVec 8 × BitVec 12))
  deriving DecidableEq, Repr

/-- One entry of a tile's scratchpad map (R163). -/
structure MapEntry where
  kind : BitVec 8
  sizeLog : BitVec 8
  base : BitVec 16
  count : BitVec 16
  reads : BitVec 8
  init : BitVec 8
  tailFlag : BitVec 8
  flagEn : BitVec 8
  headFlag : BitVec 8
  rsvd : BitVec 40
  deriving DecidableEq, Repr

/-- Where one kind of segment of one layer lies in an object's pages, as the image declares it (R206, R328; log entry 7):
position p of head h starts at base + (p / blk) * blkStride + (p % blk) * posStride + h * headStride. -/
structure SegLayout where
  layer : Nat
  /-- 1 K, 2 V, 3 latent KV, 4 convolution state, 5 recurrent state (R328) -/
  kind : BitVec 8
  fmt : BitVec 8
  heads : Nat
  dim : Nat
  blk : Nat
  blkStride : Nat
  elemBase : Nat
  posStride : Nat
  headStride : Nat
  scaleBase : Nat
  scalePosStride : Nat
  scaleHeadStride : Nat
  /-- state segments: bytes of the snapshot, and the distance between the snapshots of positions -/
  stateLen : Nat
  /-- MX: blocks along the key dimension, with scales formed when the values are written (R105, R119) -/
  dynamicKey : Bool
  /-- rank of the group's member that holds each head, 0 where none is named (R360) -/
  ranks : List Nat := []
  deriving DecidableEq, Repr

/-- The draft model as MODEL_LOAD checks it (R265): its weights and their formats, vocabulary, window, whether token IDs are its only
input, and DRAFT_MAX_IMG. -/
structure DraftModel where
  weightBytes : Nat
  weightFmts : List (BitVec 8)
  tokensOnly : Bool
  vocab : Nat
  window : Nat
  draftMax : Nat
  deriving DecidableEq, Repr

/-- One entry of the collective table: a circular region of a tile, and the source that feeds it (R365). -/
structure CollRegion where
  tile : Nat
  /-- base of the region ÷ 512 -/
  base : BitVec 16
  send : Bool
  srcRank : Nat
  srcTile : Nat
  deriving DecidableEq, Repr

/-- A leaf of a round: the K range and the N range it holds (R46). -/
structure LeafRange where
  kLo : Nat
  kHi : Nat
  nLo : Nat
  nHi : Nat
  deriving DecidableEq, Repr

/-- A round of a matrix: its N range, and the leaves that share it, one for each tile (R46, R191). -/
structure LeafRound where
  nLo : Nat
  nHi : Nat
  leaves : List LeafRange
  deriving DecidableEq, Repr

/-- The leaf cut of one matrix for one partition size (R45, R46). -/
structure LeafCut where
  matrix : Nat
  tiles : Nat
  rounds : List LeafRound
  deriving DecidableEq, Repr

/-- The parts of a model image the device reads (R227; the file format is not in the spec, log entry 7). -/
structure Image where
  /-- length its header states (R315) -/
  headerLen : Nat
  measurement : BitVec 384
  /-- 0xB1 is stepping B1 -/
  stepping : BitVec 8
  prefill : Bool
  embed : Bool
  score : Bool
  /-- EMBED pooling: mean (true) or last row (false) -/
  poolMean : Bool
  embedDim : Nat
  embedFmt : BitVec 8
  contextMax : Nat
  vocab : Nat
  layers : Nat
  kvBytes : Nat
  stateBytes : Nat
  pMin : Nat
  rptMask : BitVec 4
  chunkDefault : Nat
  /-- entry address of each context 0-3, none where the context has no entry (R125) -/
  entries : List (Option Nat)
  /-- LEAF_BYTES of each round (R191) -/
  ringSchedule : List Nat
  /-- context mask of barrier numbers 0-15 (R217) -/
  barrierTable : List (BitVec 4)
  /-- wait limit in µs (R221) -/
  waitLimit : Nat
  /-- for each layer the barrier number and the use (from 0) that ends it (R219) -/
  layerMarks : List (Nat × Nat)
  /-- the leaf cut of every matrix, by partition size (R45, R46) -/
  leafCuts : List LeafCut
  /-- attention KV block length (R45, R47) -/
  kvBlock : Nat
  /-- operands reduced along the key dimension: format code, and whether their MX scales are dynamic (R119) -/
  keyOperands : List (BitVec 8 × Bool)
  /-- where the programs write logit and output rows: offset in the partition's share (R233, R234, R269; log entry 19) -/
  logitBase : Nat
  /-- program region contents by tile index, from the region's base -/
  programs : List (List (BitVec 8))
  /-- scratchpad maps by tile index; tiles past the list use the last one -/
  maps : List (List MapEntry)
  sharedExperts : Nat
  topK : Nat
  privateMax : Nat
  variants : Nat
  draft : Option DraftModel
  /-- image groups: member count its collective table expects, none when the image declares no groups -/
  collMembers : Option Nat
  collRegions : List CollRegion
  segs : List SegLayout
  /-- bytes of the image in DRAM, for IMAGE space and the page count -/
  size : Nat
  bytes : SMap 8
  deriving DecidableEq, Repr

/-- What MODEL_LOAD's reads return: the host link failed, bytes that are no image, or an image (and, where
MEAS_ADDR is not 0, the 48 bytes there). -/
inductive ImageRead where
  | hostFail
  | notAnImage
  | image (img : Image) (expected : BitVec 384)
  deriving DecidableEq, Repr

/-- An entry of a group's member list (R357). -/
structure Member where
  fabricId : BitVec 64
  partition : Nat
  rsvd : BitVec 56
  pourGid : BitVec 128
  rsvd2 : BitVec 256
  deriving DecidableEq, Repr

/-- A group's member list (R357). -/
structure MemberList where
  groupKey : BitVec 64
  members : Nat
  levels : BitVec 8
  rsvd : BitVec 424
  entries : List Member
  /-- CRC-32C of the list's bytes as read -/
  crc : BitVec 32
  deriving DecidableEq, Repr

/-- The firmware image FIRMWARE_STAGE or PLDM reads: signature verified (R423), version and SVN. -/
structure FwImage where
  signed : Bool
  version : BitVec 16
  svn : BitVec 16
  deriving DecidableEq, Repr

/-- Partition configuration as PARTITION_CREATE's parameters give it, with its tenants (R373): bytes 16-63 of the
packet, and of each tenant's TENANT_CONFIGURE. -/
structure PairConfig where
  partitions : List (BitVec 384)
  tenants : List (Nat × BitVec 384)
  deriving DecidableEq, Repr

/-- How far the partner's side of a bind has come when it is looked at (R371). -/
inductive BindInput where
  /-- the partner's command or authentication is not there yet -/
  | waiting
  /-- the partner presented a certificate of this hash, and accepts ours or not; its configuration, and why it could not create
  ours where it was to take it over (R373) -/
  | partner (cert : BitVec 384) (acceptsUs : Bool) (config : PairConfig) (fails : Option (BitVec 16 × Nat))
  deriving DecidableEq, Repr

/-- A request as the mirror carries it, and as the table holds it (R231, R375). Widths are the table's. -/
structure ReqFields where
  partition : BitVec 6
  kind : BitVec 2
  handle : BitVec 64
  seq : BitVec 32
  ring : BitVec 13
  tenant : BitVec 12
  variant : BitVec 16
  image : BitVec 8
  length : BitVec 21
  contLen : BitVec 17
  /-- CHUNK_LEN ÷ 128 -/
  chunk : BitVec 10
  progress : BitVec 14
  nextPos : BitVec 21
  pin : BitVec 15
  basePrio : BitVec 3
  effPrio : BitVec 3
  deadline : BitVec 64
  admitAt : BitVec 64
  promoStart : BitVec 64
  pourTarget : BitVec 10
  result : BitVec 64
  seed : BitVec 64
  stopSet : BitVec 16
  maxNew : BitVec 7
  pauses : BitVec 8
  charges : BitVec 2
  tokenAddr : BitVec 64
  tokenCrc : BitVec 32
  crcHwm : BitVec 21
  delay : BitVec 4
  lastEvent : BitVec 16
  /-- event completions wanted and interrupt on the final one (R307 FLAGS), and CLASS -/
  cmdFlags : BitVec 8
  cls : BitVec 4
  /-- promotion steps taken (R249) -/
  steps : Nat
  /-- measurement of the bound image (R50) -/
  measurement : BitVec 384
  /-- PREFIX_PIN's job (R252) -/
  isPin : Bool
  deriving DecidableEq, Repr

/-- Request states (R236), numbered as QUERY_REQUEST reports them (R312). -/
inductive ReqState where
  | queued | steeping | headstart | pouring | paused | cancelling | done | failed
  deriving DecidableEq, Repr

/-- A completion before it has its PHASE (R309): SEQ, STATUS, FLAGS without PHASE, HANDLE, RESULT. -/
structure Completion where
  seq : BitVec 32
  status : BitVec 16
  final : Bool
  event : Bool
  degraded : Bool
  detail : BitVec 4
  handle : BitVec 64
  result : BitVec 128
  /-- FLAGS.INT of the command, for R306 -/
  int : Bool
  deriving DecidableEq, Repr

/-- A mirror delta (R375). -/
inductive Delta where
  | command (ring : Nat) (opcode : BitVec 8) (p : Packet) (count : BitVec 16)
  | request (index : Nat) (st : ReqState) (f : ReqFields)
  | requestFreed (index : Nat)
  | completion (ring : Nat) (count : BitVec 16) (c : Completion)
  | ringState (ring : Nat) (cfg base int : BitVec 64) (devCount hostCount : BitVec 16)
  | progress (index : Nat) (v : BitVec 14)
  | partition (params : BitVec 384)
  | partitionGone (p : Nat)
  | tenant (p : Nat) (params : BitVec 384)
  | pairReg (p : Nat) (offset : Nat) (v : BitVec 64)
  | imageMeas (p : Nat) (m : BitVec 384)
  | pin (p n : Nat) (length : Nat) (crc : BitVec 32)
  | unbind
  deriving DecidableEq, Repr

/-- A command the partner decoded and has not finished, as mirrored (R375, R387). -/
structure ShadowCmd where
  ring : Nat
  opcode : BitVec 8
  packet : Packet
  count : BitVec 16
  deriving DecidableEq, Repr

/-- Ring state as mirrored (R375). -/
structure ShadowRing where
  cfg : BitVec 64
  base : BitVec 64
  int : BitVec 64
  devCount : BitVec 16
  hostCount : BitVec 16
  written : List (BitVec 16 × Completion)
  deriving DecidableEq, Repr

/-- The shadow of the partner's control state (R375). -/
structure Shadow where
  requests : Tab (ReqState × ReqFields)
  commands : List ShadowCmd
  rings : Tab ShadowRing
  images : Tab (BitVec 384)
  pins : List (Nat × Nat × Nat × BitVec 32)
  deriving DecidableEq, Repr

/-- A published route of this module (R352): destination route ID and the ports of its equal-cost first hops. -/
structure Route where
  dst : BitVec 16
  ports : List Nat
  deriving DecidableEq, Repr

/-- A neighbour as a node's table lists it (R352). -/
structure Neighbour where
  port : Nat
  id : BitVec 64
  peerPort : Nat
  isSwitch : Bool
  deriving DecidableEq, Repr

/-- Temperature readings of one sample (R452): hottest sensor of CD0-CD3 and the IOD in °C, outlet, inlet; die at or above
115 °C for 100 µs; outlet at or above 85 °C for 1 s. -/
structure Temps where
  dies : List Nat
  outlet : Nat
  inlet : Nat
  dieTrip : Bool
  outletTrip : Bool
  deriving DecidableEq, Repr

/-- What start-up finds (R463, R465). -/
structure StartCfg where
  slotId : BitVec 4
  flashWp : Bool
  /-- running slot verified; other slot verified (R425) -/
  slotOk : Bool
  otherOk : Bool
  sealOk : Bool
  /-- failed physical tiles by die 0-3, positions 0-16 -/
  badTiles : List (Nat × Nat)
  lostPkgs : BitVec 32
  networksOk : Bool
  newtsLost : BitVec 8
  cores : Nat
  comparatorsOk : Bool
  portsUp : BitVec 4
  portsMacsec : BitVec 4
  refclk : Bool
  perstHigh : Bool
  /-- fabric ports 0-17 that train -/
  fabUp : BitVec 18
  deriving DecidableEq, Repr

/-- Scope of a power-state event: the device or one partition. -/
inductive PwrScope where
  | device
  | part (p : Fin 64)
  deriving DecidableEq, Repr

/-- Which host-link reset came (R460). -/
inductive LinkReset where
  | perst | hotOrDown
  deriving DecidableEq, Repr

/-- An SPDM request (R429, R430). -/
inductive SpdmReq where
  | getMeasurements (index : BitVec 8)
  | keyExchange
  | endSession
  | setCertificate
  | challenge (nonce : List (BitVec 8))
  | other (code : BitVec 8) (body : List (BitVec 8))
  deriving DecidableEq, Repr

/-- A PLDM request (R425, R457, R466). -/
inductive PldmReq where
  | fwUpdate (img : FwImage)
  | telemetry (body : List (BitVec 8))
  deriving DecidableEq, Repr

/-- Result of one port's training (R458): conditions seen per lane. -/
structure Training where
  inverted : BitVec 8
  reversed : Bool
  permuted : Bool
  crossed : Bool
  openTx : BitVec 8
  openRx : BitVec 8
  lanesOk : BitVec 8
  deriving DecidableEq, Repr

/-- The partner's full control state, as a resynchronisation exchange brings it (R382). -/
structure ResyncInput where
  shadow : Shadow
  config : PairConfig
  deriving DecidableEq, Repr

/-- Row-map entry of one row (R243). -/
structure RowEntry where
  position : BitVec 20
  entry : BitVec 15
  valid : Bool
  segStart : Bool
  head : Bool
  sample : Bool
  last : Bool
  output : Bool
  draft : BitVec 8
  token : BitVec 18
  variant : BitVec 16
  deriving DecidableEq, Repr

/-- The commands of the block. -/
inductive Instr where
  -- request, partition, image, pour, group, power, pair and service commands, decoded from a submission ring
  | submitPrompt (ring : Nat) (p : Packet)
  | cancel (ring : Nat) (p : Packet)
  | pause (ring : Nat) (p : Packet)
  | resume (ring : Nat) (p : Packet)
  | setPriority (ring : Nat) (p : Packet)
  | queryRequest (ring : Nat) (p : Packet) (hostOk : Bool)
  | partitionCreate (ring : Nat) (p : Packet)
  | partitionDestroy (ring : Nat) (p : Packet)
  | tenantConfigure (ring : Nat) (p : Packet)
  | modelLoad (ring : Nat) (p : Packet) (rd : ImageRead)
  | modelUnload (ring : Nat) (p : Packet)
  | prefixPin (ring : Nat) (p : Packet)
  | prefixUnpin (ring : Nat) (p : Packet)
  | pourTargetAdd (ring : Nat) (p : Packet)
  | pourTargetRemove (ring : Nat) (p : Packet)
  | groupCreate (ring : Nat) (p : Packet) (list : Option MemberList)
  | groupDestroy (ring : Nat) (p : Packet)
  | setWakeTolerance (ring : Nat) (p : Packet)
  | setPowerCap (ring : Nat) (p : Packet)
  | pairBind (ring : Nat) (p : Packet) (partner : BindInput)
  | pairUnbind (ring : Nat) (p : Packet)
  | pairStatus (ring : Nat) (p : Packet)
  | telemetryRead (ring : Nat) (p : Packet) (hostOk : Bool)
  | logRead (ring : Nat) (p : Packet) (hostOk : Bool)
  | selftest (ring : Nat) (p : Packet) (pass : BitVec 8)
  | firmwareStage (ring : Nat) (p : Packet) (img : Option FwImage)
  | firmwareActivate (ring : Nat) (p : Packet) (newOk partnerOk : Bool)
  | nop (ring : Nat) (p : Packet)
  | unknownOpcodeCommand (ring : Nat) (opcode : BitVec 8) (p : Packet)
  -- rings, doorbells and the register window
  | doorbellWrite (fn : Fin 65) (offset : Nat) (be : BitVec 8) (v : Word64)
  | pushWrite (fn : Fin 65) (offset : Nat) (bytes : List Byte)
  | pullFetchDone (ring : Nat) (entries : Option (List (BitVec 512)))
  | completionWrite (ring : Nat) (hostOk : Bool)
  | interruptAgeExpiry (ring : Nat)
  | ringEnable (fn : Fin 65) (index : Nat) (v : Word64)
  | ringDisable (fn : Fin 65) (index : Nat) (v : Word64)
  | pairedLowWrite (fn : Fin 65) (offset : Nat) (v : Word32)
  | counterLowRead (fn : Fin 65) (offset : Nat)
  | unmappedRead (fn : Fin 65) (r : WindowRead)
  | registerWrite (fn : Fin 65) (offset : Nat) (be : BitVec 8) (v : Word64)
  | bar4Access (vf : Fin 64) (offset : Nat) (be : List Bool) (write : Option (List Byte))
  | portUnfence (port : Fin 18)
  | kettleOff
  -- tile instructions: tile, context, bits 127:8 of the word (the constructor fixes the opcode, R121)
  | nopInstruction (t : Fin 64) (c : Fin 4) (w : BitVec 120)
  | endI (t : Fin 64) (c : Fin 4) (w : BitVec 120)
  | jmp (t : Fin 64) (c : Fin 4) (w : BitVec 120)
  | br (t : Fin 64) (c : Fin 4) (w : BitVec 120)
  | loop (t : Fin 64) (c : Fin 4) (w : BitVec 120)
  | sli (t : Fin 64) (c : Fin 4) (w : BitVec 120)
  | sadd (t : Fin 64) (c : Fin 4) (w : BitVec 120)
  | ssub (t : Fin 64) (c : Fin 4) (w : BitVec 120)
  | smul (t : Fin 64) (c : Fin 4) (w : BitVec 120)
  | sand (t : Fin 64) (c : Fin 4) (w : BitVec 120)
  | sor (t : Fin 64) (c : Fin 4) (w : BitVec 120)
  | sxor (t : Fin 64) (c : Fin 4) (w : BitVec 120)
  | sshl (t : Fin 64) (c : Fin 4) (w : BitVec 120)
  | sshr (t : Fin 64) (c : Fin 4) (w : BitVec 120)
  | sshrl (t : Fin 64) (c : Fin 4) (w : BitVec 120)
  | smin (t : Fin 64) (c : Fin 4) (w : BitVec 120)
  | smax (t : Fin 64) (c : Fin 4) (w : BitVec 120)
  | sld (t : Fin 64) (c : Fin 4) (w : BitVec 120)
  | sst (t : Fin 64) (c : Fin 4) (w : BitVec 120)
  | bset (t : Fin 64) (c : Fin 4) (w : BitVec 120)
  | mld (t : Fin 64) (c : Fin 4) (w : BitVec 120)
  | mst (t : Fin 64) (c : Fin 4) (w : BitVec 120)
  | mrng (t : Fin 64) (c : Fin 4) (w : BitVec 120)
  | mvalid (t : Fin 64) (c : Fin 4) (w : BitVec 120)
  | mseg (t : Fin 64) (c : Fin 4) (w : BitVec 120)
  | rmap (t : Fin 64) (c : Fin 4) (w : BitVec 120)
  | frd (t : Fin 64) (c : Fin 4) (w : BitVec 120)
  | tmma (t : Fin 64) (c : Fin 4) (w : BitVec 120)
  | tmmaL (t : Fin 64) (c : Fin 4) (w : BitVec 120)
  | tmmaF (t : Fin 64) (c : Fin 4) (w : BitVec 120)
  | rescale (t : Fin 64) (c : Fin 4) (w : BitVec 120)
  | lswap (t : Fin 64) (c : Fin 4) (w : BitVec 120)
  | drain (t : Fin 64) (c : Fin 4) (w : BitVec 120)
  | vmov (t : Fin 64) (c : Fin 4) (w : BitVec 120)
  | vadd (t : Fin 64) (c : Fin 4) (w : BitVec 120)
  | vsub (t : Fin 64) (c : Fin 4) (w : BitVec 120)
  | vmul (t : Fin 64) (c : Fin 4) (w : BitVec 120)
  | vfma (t : Fin 64) (c : Fin 4) (w : BitVec 120)
  | vmin (t : Fin 64) (c : Fin 4) (w : BitVec 120)
  | vmax (t : Fin 64) (c : Fin 4) (w : BitVec 120)
  | vdiv (t : Fin 64) (c : Fin 4) (w : BitVec 120)
  | vsqrt (t : Fin 64) (c : Fin 4) (w : BitVec 120)
  | vexp2 (t : Fin 64) (c : Fin 4) (w : BitVec 120)
  | vrsum (t : Fin 64) (c : Fin 4) (w : BitVec 120)
  | vrmax (t : Fin 64) (c : Fin 4) (w : BitVec 120)
  | vcvt (t : Fin 64) (c : Fin 4) (w : BitVec 120)
  | srun (t : Fin 64) (c : Fin 4) (w : BitVec 120)
  | sstop (t : Fin 64) (c : Fin 4) (w : BitVec 120)
  | signal (t : Fin 64) (c : Fin 4) (w : BitVec 120)
  | wait (t : Fin 64) (c : Fin 4) (w : BitVec 120)
  | fence (t : Fin 64) (c : Fin 4) (w : BitVec 120)
  | barrier (t : Fin 64) (c : Fin 4) (w : BitVec 120)
  | fset (t : Fin 64) (c : Fin 4) (w : BitVec 120)
  -- tile events
  | tmmaIssueEnd (t : Fin 64) (chk : Check)
  | tileHangTimeout (t : Fin 64)
  | drainStart (t : Fin 64)
  | drainEnd (t : Fin 64) (chk : Check)
  | rescaleStart (t : Fin 64)
  | rescaleEnd (t : Fin 64)
  | leafSwap (t : Fin 64)
  | vectorEnd (t : Fin 64) (chk : Check)
  | waitSatisfied (t : Fin 64) (c : Fin 4)
  | fenceComplete (t : Fin 64) (c : Fin 4)
  | barrierRelease (p : Fin 64) (bar : Fin 16)
  | signalArrive (i : Nat)
  | tagClaim (t : Fin 64) (i : Nat)
  | remoteWriteArrive (i : Nat)
  | remoteReadReturn (i : Nat)
  | scrubTick (t : Fin 64) (line : Fin 32768)
  | waitLimitExpiry (p : Fin 64)
  | powerLend (t : Fin 64)
  -- streams, DRAM and caddy
  | streamXfer (t : Fin 64) (h : Fin 8)
  | streamReadLand (t : Fin 64) (h : Fin 8) (r : LandRead)
  | streamDone (t : Fin 64) (h : Fin 8)
  | mergeEntryTimeout (t : Fin 64) (i : Nat)
  | pageWalkDone (t : Fin 64) (h : Fin 8)
  -- composition, steeps and newts
  | compositionDone (p : Fin 64)
  | tokenReadDone (e : Fin 32768) (tokens : Option (List Word32))
  | hsBlockReadDone (e : Fin 32768) (block : Option (BitVec 2048))
  | steepRelease (p : Fin 64)
  | newtSample (e : Fin 32768) (bad : List Nat) (chk : Check)
  | headstartFill (e : Fin 32768)
  | headstartFillTimeout (p : Fin 64)
  | draftLimitTick (waitPermille : Nat)
  | newtHangTimeout (n : Fin 8)
  -- pour
  | pourRecordWrite (p : Fin 64) (tgt : Fin 1024) (input : RecordInput)
  | consumedPoll (p : Fin 64) (tgt : Fin 1024)
  | controlBlockRead (p : Fin 64) (tgt : Fin 1024) (block : Option (BitVec 512))
  | commitAck (p : Fin 64) (tgt : Fin 1024)
  | resultWriteDone (e : Fin 32768) (ok : Bool)
  | targetNak (p : Fin 64) (tgt : Fin 1024) (cause : Fin 3)
  | transportAckTimeout (p : Fin 64) (tgt : Fin 1024)
  | cnpReceived (p : Fin 64) (tgt : Fin 1024)
  | pourPortFail (port : Fin 4)
  | pourPortReturn (port : Fin 4)
  -- fabric, groups and collectives
  | helloTimer
  | hello (port : Fin 16) (id : BitVec 64) (peerPort : Fin 32) (epoch : BitVec 16) (isSwitch : Bool)
  | epochMessage (epoch : BitVec 16)
  | prepare (epoch : BitVec 16)
  | commit (epoch : BitVec 16) (modules switches : List (BitVec 64)) (routes : List Route)
  | fabricLinkPacket (port : Fin 18) (header : BitVec 128) (payload : List Byte)
  | linkRetransmitTimeout (port : Fin 18) (vc : Fin 4)
  | sPortStateChange (port : Fin 16) (up : Bool)
  | laneFailure (port : Fin 18) (lane : Fin 4)
  | fabricRecordSend (t : Fin 64) (base : BitVec 16)
  | fabricRecordDeliver (t : Fin 64) (record : List Byte)
  | groupFormTimeout (g : Fin 16)
  | inPassingReduction (g : Fin 16) (joined : Nat) (sums : List Word32)
  | lagExchangeTimer (g : Fin 16) (totals : List (Nat × Nat))
  | lockstepPageCount (p : Fin 64) (rank : Nat) (free : Nat)
  | lockstepRowMaps (p : Fin 64) (rpt : Nat) (rows : List RowEntry)
  | lockstepRelease (p : Fin 64)
  | lockstepAbort (p : Fin 64) (charged : Bool) (rows : List (Fin 32768))
  -- pair
  | heartbeatTimer
  | heartbeat (port : Fin 2) (timebase : Word64) (echoSent echoArrived : Word64)
  | heartbeatMissed
  | aliveInTimeout
  | mirrorDelta (d : Delta)
  | mirrorAck (n : Nat) (fails : Option (BitVec 16 × Nat))
  | mirrorPortFail (port : Fin 2)
  | mirrorPortReturn (port : Fin 2)
  | resyncExchange (partner : Option ResyncInput)
  | sleep (ticks : Word64)
  | sleepConfirm
  | pairReauth (port : Fin 2) (partner : BindInput)
  | pairBindTimeout
  | wireFaultClear
  -- faults, power, thermal, supply and start-up
  | moduleFault (code : BitVec 8)
  | controlCoreFail
  | packageLost (pkg : Fin 32)
  | patrolScrubTick (stripe : Nat) (bad : Option (Fin 32))
  | caddyWayDisable (w : WayErrors)
  | powerCapTick (i : InputSample)
  | dieHot
  | dieHotClearTimeout
  | pwrBrakeN (low : Bool)
  | currentLimit
  | currentLimitTimeout
  | thermalSample (x : Temps)
  | vinOutOfWindow (mv : Int)
  | railFault
  | leak
  | wakeNExternal
  | refclkLoss
  | alarmFire (i : Fin 4)
  | stateDwellExpiry (scope : PwrScope)
  | wakeEvent (scope : PwrScope) (source : BitVec 8)
  | domainSwitchClose
  | pinTestTimer (above2V : Bool) (bridged : List (Fin 21))
  | pinReadbackMismatch (pin : Fin 21)
  | smbusHeldLowTimeout (pin : Fin 2)
  | powerOn (x : StartCfg)
  | startupTimeout
  | resetN (x : StartCfg)
  | perstN (kind : LinkReset)
  | flr (vf : Fin 64)
  | a4Exit (x : StartCfg)
  | firmwareQueueDispatch
  | deadlinePassed (e : Fin 32768)
  | illegalOpcode (t : Fin 64) (c : Fin 4) (w : BitVec 128)
  | rnrNak (p : Fin 64) (tgt : Fin 1024)
  | rnrTimerExpiry (p : Fin 64) (tgt : Fin 1024)
  | combiningBufferTimeout (stripe : Nat)
  | trainingRetryTimer (port : Fin 22) (x : Training)
  | vinBackInside (mv : Int)
  | leakNHigh
  | currentLimitRelease
  | pairAliveInEdge
  | neighbourTable (id : BitVec 64) (isSwitch : Bool) (nbrs : List Neighbour)
  | prepareConfirmation (id : BitVec 64) (epoch : BitVec 16)
  | spdmRequest (r : SpdmReq)
  | pldmRequest (r : PldmReq)
  | pmeTurnOff
  | vfEnable (vf : Fin 64)
  | sidebandHeldTimeout (pin : Fin 21)
  deriving DecidableEq, Repr

end Sys2Proof
end

