-- ==== Sys2Proof/Decode.lean ====
section
/-! DEFINITION. Decode.lean: commands spelled by the opcode table's bits. No row of the table gives bits: a command
arrives whole, with its operands, so no word spells one. The block's own encodings (command packets R307, tile
instruction words R121) are read by the meanings of the commands that carry them. -/

namespace Sys2Proof

/-- The command a word spells by the table's bits: none, since the table gives no row bits. -/
def decodeTableWord (_nbits _w : Nat) : Option Instr := none

end Sys2Proof
end

