-- ==== Sys2Proof/Config.lean ====
section
/-! DEFINITION. Config.lean: what one module fixes, and the free values (constants without a body). -/

namespace Sys2Proof.Config

/-- Ordering code of this module: 0x01 YR6400-512-LC, 0x02 YR6400-256-LC (R1, R293). The model fixes the 512 variant:
DESIGN CHOICE, log entry 6. -/
def orderCode : BitVec 8 := 0x01

/-- Usable DRAM after erasure coding, MiB (R293). -/
def usableMib : Nat := if orderCode = 0x01 then 0x78000 else 0x3C000

/-- DRAM available to partition shares, MiB (R293). -/
def partableMib : Nat := if orderCode = 0x01 then 0x77800 else 0x3B800

/-- Rings of the device (R295). -/
def rings : Nat := 8192

/-- Entries of the request table (R230). -/
def tableEntries : Nat := 32768

/-- SHA-384 of this module's identity certificate (R427, R428): fixed at manufacture, no value in the spec. -/
opaque identityHash : BitVec 384

/-- Measurements of boot stages 0 to 3 by index 1 to 4 (R423, R430), for a firmware version. -/
opaque stageMeasurement : Nat → BitVec 16 → BitVec 384

/-- Version and SVN the running firmware reports at start-up (R294, R441): no value in the spec. -/
opaque firmwareVersion : BitVec 16
opaque firmwareSvn : BitVec 16
opaque fusedSvnMin : BitVec 16

/-- BAR4 present, fixed by the module's configuration record at start-up (R286). -/
opaque bar4Present : Bool

/-- SHA-384 of a byte string (an external standard's function, log entry 8). -/
opaque sha384 : List (BitVec 8) → BitVec 384

/-- HMAC-SHA-384 of a key and a byte string (an external standard's function, log entry 8). -/
opaque hmacSha384 : List (BitVec 8) → List (BitVec 8) → BitVec 384

/-- The key derived from the unique device secret (R432: in fuses), and the storage salt drawn for the nth sealed state. -/
opaque deviceKey : List (BitVec 8)
opaque storageSalt : Nat → List (BitVec 8)

/-- Bytes that DRAM packages hold of granules outside every partition's share (R434: no rule says), by granule and byte. -/
opaque dramResidue : Nat → Nat → BitVec 8

/-- Set of a caddy line, by partition and line of its share (R193: a hash of the physical address, which the spec does not give). -/
opaque caddySet : Nat → Nat → Nat

/-- Pseudo-LRU's choice among the ways a partition may allocate into (R193 gives no algorithm): by the set's ways from the least to the
most recently used, and the allowed ways; an index into the latter. -/
opaque caddyVictim : List Nat → List Nat → Nat

/-- Bytes of a page-list entry (R204, R205: no value in the spec). -/
opaque pageListEntry : Nat

/-- The answer of the SPDM responder to a request in a session state (R429; message bodies are SPDM 1.3's, log entry 8). -/
opaque spdmBody : BitVec 8 → List (BitVec 8) → List (BitVec 8)

/-- The answer to a PLDM telemetry request (R466; message bodies are PLDM's, log entry 8). -/
opaque pldmBody : List (BitVec 8) → List (BitVec 8)

/-- Local queue pair number and initial PSN of the nth pour target added (R315 names them, gives no value). -/
opaque localQpn : Nat → BitVec 24
opaque localPsn : Nat → BitVec 24

/-- DRAM offset of the page list of a table entry (R231 PAGE_LIST; no value in the spec). -/
opaque pageListOffset : Nat → BitVec 40

/-- Bytes in a host buffer after a write that did not complete (R316: undefined). -/
opaque brokenBuffer : Nat → BitVec 8

/-- Logits of the image's draft model for the position after these tokens (R265: weights of the image), by measurement. -/
opaque draftLogits : BitVec 384 → List (BitVec 32) → List (BitVec 32)

/-- First byte of a partition's share in the physical data space of R199 (no value in the spec). -/
opaque physBase : Nat → Nat

/-- Whether a ROWSCALE instruction's A operand is stored as FP32 rather than BF16 (R96 names both; no field of the
instruction says which), by instruction word (log entry 23). -/
opaque rowscaleFp32 : BitVec 128 → Bool

/-- Number of groups G that a ROWSCALE RMS instruction combines (R98; no field gives it), by instruction word and statistics
word (log entry 23). -/
opaque rmsGroups : BitVec 128 → BitVec 64 → Nat

/-- The sum of a group of BF16 or FP16 products when an error that no residue shows (R51: a multiple of 65 535) changed their integer
significand products by an amount: by the sum without it and the amount (log entry 139). -/
opaque groupError : BitVec 32 → Int → BitVec 32

/-- Which of the equal-cost routes a packet takes, by SRC_ROUTE and GROUP (R352: "a hash of SRC_ROUTE and GROUP", which the
spec does not give). -/
opaque routeHash : Nat → Nat → Nat

/-- A free value: the nth one taken (log entry 3). -/
opaque freeValue : Nat → BitVec 64

end Sys2Proof.Config
end

