-- ==== Sys2Proof/Machine/State.lean ====
section
/-! DEFINITION. State.lean: the state of the block as plain data, its stops, and the state after reset.
Every record's default value is its reset value, and a table that lists nothing reads it (R290, R294 and the Reset
columns of the register tables; values the spec does not give: log entry 4). -/

namespace Sys2Proof.Machine

/-- Why the block stops with a fault. -/
inductive Fault where
  /-- Conditions outside the absolute maximum ratings (R445: "survival is not guaranteed"). Raised by VIN_OUT_OF_WINDOW and
  VIN_BACK_INSIDE on a supply value beyond them. Safe: the model stops where the hardware may go on. -/
  | beyondRatings
  deriving DecidableEq, Repr

/-- Why the block refuses a command. -/
inductive Refusal where
  /-- The command has no meaning in the model yet. Raised by Dispatch.lean's refused arms only. Safe. -/
  | notModelled (mnemonic : String)
  deriving DecidableEq, Repr

/-- State of a task context (R207). -/
inductive CtxState where
  | idle | running | waiting | ended
  deriving DecidableEq, Repr

/-- An open LOOP of a context (R148): first instruction of the body, the one after it (both as pc), passes left. -/
structure LoopFrame where
  first : Nat
  after : Nat
  left : Nat
  deriving DecidableEq, Repr

/-- A head that an event completes (R208): WAIT, FENCE with its scope, BARRIER, LSWAP. -/
inductive Held where
  | wait (flag : Nat) (cond : Nat) (consume : Bool) (value : Word32)
  | fence (scope : Nat)
  | barrier (num : Nat)
  | lswap
  deriving DecidableEq, Repr

/-- One task context (R123, R207). `s`, `b` and `m` list only what differs from the state at steep release. -/
structure Ctx where
  st : CtxState := .idle
  cause : Nat := 0
  object : Nat := 0
  s : SMap 64 := []
  b : Tab Word32 := []
  m : Tab (BitVec 512) := []
  pc : Nat := 0
  loops : List LoopFrame := []
  held : Option Held := none
  /-- TIMEBASE at which the context began to wait (R225) -/
  since : Nat := 0
  /-- the unit (R128) a head held with cause 9 waits for -/
  unit : Nat := 0
  /-- its END waits for earlier work (R148) -/
  atEnd : Bool := false
  deriving DecidableEq, Repr

/-- Shape of a matrix instruction (R60). -/
inductive Shape where
  | normal | quadrant | wide | shift
  deriving DecidableEq, Repr

/-- Accumulator mode (R131 ACC). -/
inductive AccMode where
  | fp32 | ext | int32
  deriving DecidableEq, Repr

/-- State of an accumulator slot (R69, R108). -/
inductive SlotState where
  | free | accumulating | draining | chained
  deriving DecidableEq, Repr

/-- One accumulator slot: what R65, R68, R108, R110 and R116 keep for it. -/
structure Slot where
  st : SlotState := .free
  shape : Shape := .normal
  mode : AccMode := .fp32
  fmtA : Nat := 0
  fmtB : Nat := 0
  owner : Nat := 0
  /-- operations accepted on the slot and not ended; the slot is complete at 0 (R57) -/
  pendingOps : Nat := 0
  /-- scale bytes of the slot's first block by row and by column, with bit 8 set, INT32 mode (R35) -/
  scaleA : SMap 9 := []
  scaleB : SMap 9 := []
  /-- columns by slot row whose contents the manual does not define (R84), and the first free value that stands for them -/
  undef : Tab (BitVec 512) := []
  undefBase : Nat := 0
  /-- under RESCALE (R117) -/
  rescaling : Bool := false
  /-- chained operand: format code, elements by row * 512 + column, scale bytes by row * 16 + block (R108) -/
  chainFmt : Nat := 0
  chainEl : SMap 32 := []
  chainSc : SMap 8 := []
  /-- row-valid bits, row m of sub-array q at 128q + m (R110) -/
  rowValid : BitVec 512 := 0
  /-- the drain was in online mode, and alpha by 128q + m (R116) -/
  online : Bool := false
  alpha : SMap 32 := []
  deriving DecidableEq, Repr

/-- Fill of ARR (R70): none, from the ring, from a stream. -/
structure Leaf where
  bytes : SMap 8 := []
  fill : Nat := 0
  full : Bool := false
  deriving DecidableEq, Repr

/-- State of a tagged slot (R168). -/
inductive TagState where
  | empty | filling | full | closing
  deriving DecidableEq, Repr

structure Tag where
  st : TagState := .empty
  act : Nat := 0
  rem : Nat := 0
  deriving DecidableEq, Repr

/-- Counts of a circular region (R172) with the records completed out of order. -/
structure Circ where
  tailC : Word32 := 0
  tail : Word32 := 0
  headC : Word32 := 0
  head : Word32 := 0
  doneW : List Nat := []
  doneR : List Nat := []
  deriving DecidableEq, Repr

/-- Where the footprint of an operand lies (R166, R172): plain memory, tagged slot `i` of map entry `e`, the circular region of entry
`e`; straddling a slot boundary; leaving a region's first record. -/
inductive Region where
  | plain
  | slot (e i : Nat)
  | circ (e : Nat)
  | straddle
  | outRecord
  deriving DecidableEq, Repr

/-- What a claim asks for (R166): a tagged slot of a map entry, or a record of a circular region. -/
structure Claim where
  entry : Nat
  /-- slot number, or the record count claimed -/
  index : Nat
  /-- operand number within the operation -/
  opnd : Nat
  circ : Bool
  writer : Bool
  /-- who waits: a local context, or a remote tile -/
  remote : Bool
  who : Nat
  /-- the operation's number on the tile, whose completion completes the claim -/
  op : Nat
  taken : Bool
  /-- ns the claim has waited so far (R369) -/
  waited : Nat := 0
  /-- made by the head of the context's queue before its acceptance -/
  head : Bool := false
  deriving DecidableEq, Repr

/-- A range of tile rows charged when an operation fails (R152), none when not attributable. -/
abbrev Rows := Option (Nat × Nat)

/-- An accepted matrix instruction, at its current list entry (R127: registers and masks as read at acceptance). -/
structure MatOp where
  id : Nat
  ctx : Nat
  pc : Nat
  word : BitVec 128
  shape : Shape
  slot : Nat
  mode : AccMode
  fmtA : Nat
  fmtB : Nat
  pro : Nat
  chainA : Option Nat
  bSrc : Nat
  /-- A and B words of the current entry, and as A_REG and B_REG gave them at acceptance -/
  aReg : Word64
  bReg : Word64
  aReg0 : Word64
  bReg0 : Word64
  pWord : Word64
  qWord : Word64
  /-- operand words of the sub-arrays -/
  aWords : List Word64
  bWords : List Word64
  kBlk : Nat
  /-- K elements in force; taps in the shift-reuse shape -/
  kTotal : Nat
  kBound : Nat
  mBound : Nat
  nBound : Nat
  mLo : Nat
  mHi : Nat
  gLo : Nat
  gHi : Nat
  rowMask : BitVec 512
  colMasks : List (BitVec 512)
  segMask : BitVec 512
  done : Option Nat
  rowOrg : Nat
  /-- list address, entries, current entry; the fold descriptor's ROWS, A_STRIDE, B_STRIDE (R134-R136) -/
  listBase : Nat
  listLen : Nat
  listIdx : Nat
  fold : Option (Nat × Nat × Nat)
  /-- the current entry has been read; false while its lists wait at a claim (R135, R166) -/
  loaded : Bool := true
  deriving DecidableEq, Repr

/-- An accepted DRAIN with its stage descriptor (R127, R140). -/
structure DrainOp where
  id : Nat
  ctx : Nat
  pc : Nat
  slot : Nat
  partner : Nat
  desc : BitVec 512
  k0 : Word32
  aux : Word64
  mBound : Nat
  nBound : Nat
  rowMask : BitVec 512
  colMask : BitVec 512
  colMasks : List (BitVec 512)
  done : Option Nat
  rowOrg : Nat
  started : Bool
  /-- remote target tile and operation number of its write there, once it waits for a claim there or has one (R74, R175) -/
  remoteOp : Option (Nat × Nat) := none
  deriving DecidableEq, Repr

/-- An accepted vector instruction (R141). -/
structure VecOp where
  id : Nat
  ctx : Nat
  pc : Nat
  opcode : BitVec 8
  dk : Nat
  d : Nat
  dWord : Word64
  ak : Nat
  a : Nat
  aWord : Word64
  bk : Nat
  b : Nat
  bWord : Word64
  ck : Nat
  c : Nat
  cWord : Word64
  fmt : Nat
  widen : Bool
  mBound : Nat
  nBound : Nat
  rowMask : BitVec 512
  colMask : BitVec 512
  done : Option Nat
  rowOrg : Nat
  deriving DecidableEq, Repr

/-- An accepted RESCALE (R117). -/
structure ResOp where
  ctx : Nat
  target : Nat
  source : Nat
  started : Bool
  deriving DecidableEq, Repr

/-- An open loop of an address program (R181). -/
structure ApLoop where
  first : Nat
  left : Nat
  m0 : Int
  l0 : Int
  deriving DecidableEq, Repr

/-- A memory read in flight (R178): pieces of the partition's share, and the ranges of the local side that its bytes fill. -/
structure MemReq where
  chunks : List (Nat × Nat)
  runs : List (Nat × Nat)
  deriving DecidableEq, Repr

/-- An address-program handle (R144, R178-R181). -/
structure Handle where
  busy : Bool := false
  ctx : Nat := 0
  pcInstr : Nat := 0
  dir : Nat := 0
  rtile : Nat := 0
  mspace : Nat := 0
  hint : Nat := 0
  progAddr : Nat := 0
  /-- the program has been read: the transfer has started (R179) -/
  loaded : Bool := false
  prog : List (BitVec 128) := []
  ip : Nat := 0
  m : Int := 0
  l : Int := 0
  loops : List ApLoop := []
  /-- bytes of the current XFER already requested (R178) -/
  sent : Nat := 0
  /-- the memory cursor it started with (R180) -/
  m0 : Int := 0
  localWord : Word64 := 0
  drainFed : Bool := false
  /-- output rows delivered by drains and not yet moved, none where the byte is not enabled (R82, R182) -/
  fed : List (Option Byte) := []
  /-- of those bytes in order, a row each: the context whose drain delivered it, how many are left, and whether none has been moved;
  the contexts that have delivered any (R182, R215) -/
  fedRuns : List (Nat × Nat × Bool) := []
  fedBy : BitVec 4 := 0
  rows : Rows := none
  done : Option Nat := none
  reads : List MemReq := []
  /-- a translation-cache miss is being served (R205) -/
  walking : Option (Nat × Nat) := none
  opId : Nat := 0
  /-- where the scratchpad side of its first XFER lay, which the operation keeps to (R166, R172) -/
  side : Option Region := none
  /-- its operation at each other tile it reaches: tile, operation number, and where it lies there (R166, R175; log entry 154) -/
  far : List (Nat × Nat × Region) := []
  deriving DecidableEq, Repr

/-- A merge-buffer entry (R185): 64 B granule of the partition's share, bytes, byte mask, handle mask. -/
structure MergeEntry where
  granule : Nat
  bytes : SMap 8
  mask : BitVec 64
  handles : BitVec 8
  deriving DecidableEq, Repr

/-- A scratchpad range still being written by an operation (R130). -/
structure Track where
  ctx : Nat
  op : Nat
  lo : Nat
  hi : Nat
  deriving DecidableEq, Repr

/-- One logical tile (R53). -/
structure Tile where
  /-- backed by its die's spare, position 16 (R54, R90) -/
  onSpare : Bool := false
  retired : Bool := false
  ctx : Tab Ctx := []
  slots : Tab Slot := []
  /-- accumulator words, key ((word * 128 + row) * 512 + column) (R53, R66) -/
  acc : SMap 32 := []
  cur : Leaf := {}
  arr : Leaf := {}
  ringRound : Nat := 0
  ringPos : Nat := 0
  /-- the ring port has forwarded all of CUR (R71) -/
  forwarded : Bool := false
  spad : SMap 8 := []
  /-- words (address ÷ 4) with a single-bit error, with a double-bit error, poisoned (R161) -/
  oneBit : List Nat := []
  twoBit : List Nat := []
  poison : List Nat := []
  flags : SMap 32 := []
  /-- row-state file, key (((context * 4 + bank) * 128 + row) * 2 + (0 m, 1 l)) (R113) -/
  rowState : SMap 32 := []
  handles : Tab Handle := []
  merge : List MergeEntry := []
  xlate : List (Nat × Nat) := []
  map : List MapEntry := []
  tags : Tab Tag := []
  circs : Tab Circ := []
  claims : List Claim := []
  nextOp : Nat := 0
  mats : List MatOp := []
  drains : List DrainOp := []
  vecs : List VecOp := []
  rescales : List ResOp := []
  tracks : List Track := []
  errStatus : Word64 := 0
  /-- single-bit errors corrected in the accumulator file and leaf buffer (R87) -/
  eccCount : Nat := 0
  excStatus : Word64 := 0
  excInfo : Word64 := 0
  spadStatus : Word64 := 0
  /-- counters by offset in the tile block (R284) -/
  ctrs : SMap 64 := []
  lending : Bool := false
  deriving DecidableEq, Repr

/-- Source of a flag update (R146, R210). -/
inductive SigSrc where
  | ctx (t : Nat) (c : Nat)
  | newt (n : Nat)
  | engine
  deriving DecidableEq, Repr

/-- A SIGNAL or newt signal on its way (R211, R213). -/
structure Sig where
  src : SigSrc
  toNewt : Bool
  target : Nat
  flag : Nat
  set : Bool
  value : Word32
  part : Nat
  steep : Nat
  deriving DecidableEq, Repr

/-- A remote scratchpad transfer on its way (R175, R176). -/
structure Remote where
  src : Nat
  dst : Nat
  ctx : Nat
  /-- false: a write of these runs of bytes; true: a read of `len` bytes at `addr` -/
  read : Bool
  addr : Nat
  /-- BASE of the operation at the target (R172) -/
  base : Nat
  runs : List (Nat × List Byte)
  len : Nat
  /-- ranges of the source's side that a read's bytes fill -/
  loc : List (Nat × Nat)
  handle : Option Nat
  part : Nat
  toArr : Bool
  /-- operation number at the target, once it waits for a claim there or has one (R176) -/
  op : Option Nat := none
  /-- DONE flag of the source, incremented once the write is visible at the target (R139) -/
  done : Option Nat := none
  deriving DecidableEq, Repr

/-- Rows of one request in a steep (R241). -/
structure Placement where
  entry : Nat
  first : Nat
  count : Nat
  pos : Nat
  head : Bool
  /-- draft length of a head-start round -/
  d : Nat
  /-- cancelled, given up or failed: its rows are invalid (R17, R19) -/
  dead : Bool
  filled : Bool
  tokens : List Word32
  deriving DecidableEq, Repr

/-- What a composition point freezes (R9, R241): head-start requests in their order with base and draft length, prompt requests in
theirs, and PART_SCHED_CFG (R259). -/
structure Frozen where
  heads : List (Nat × Nat × Nat)
  prompts : List Nat
  cfg : Word64
  deriving DecidableEq, Repr

/-- What a placement changed in an entry, to take it back (R239, R241): NEXT_POS, pages held, state pages, whether it was QUEUED, its
newt, DELAY. -/
structure Undo where
  entry : Nat
  head : Bool
  nextPos : Nat
  pages : Nat
  statePages : Nat
  queued : Bool
  newt : Option Nat
  delay : BitVec 4
  deriving DecidableEq, Repr

/-- A composed or running steep (R8-R19, R241). -/
structure Steep where
  n : Nat
  rpt : Nat
  tiles : List Nat
  rows : List Placement
  /-- what the composition point froze (R9) -/
  frozen : Frozen
  /-- preemption marks (R246), and what to restore if the composition is discarded -/
  marks : List Nat
  undo : List Undo
  /-- TIMEBASE of the composition point -/
  frozenAt : Nat
  /-- row maps written (R19 step 2) -/
  composed : Bool
  /-- TIMEBASE at release -/
  released : Nat
  deriving DecidableEq, Repr

/-- Phase of a partition's running steep (R19, R219). -/
inductive Phase where
  /-- no steep running -/
  | none
  /-- running, before CP(n) -/
  | body
  /-- after CP(n), before B(n) -/
  | final
  deriving DecidableEq, Repr

/-- Rows whose output a newt takes (R233, R270), and where their first one lies in the logit buffer (offset in the share): the first
token; a round with `d` draft rows; SCORE or EMBED rows. -/
inductive Sample where
  | first (buf : Nat)
  | round (d buf : Nat)
  | score (pos count buf : Nat)
  | embed (pos count buf : Nat)
  deriving DecidableEq, Repr

/-- A request-table entry (R231), its request fields and what the engine keeps beside them. -/
structure Entry where
  st : ReqState
  f : ReqFields
  /-- page numbers in ascending offset order; the first `statePages` hold state (R204, R245; log entry 18) -/
  pages : List Nat
  statePages : Nat
  /-- mirror of the admission confirmed, or none needed (R8) -/
  confirmed : Bool
  /-- PAUSE commands waiting: ring, packet, and the steep number at whose boundary it takes effect (R9, R237) -/
  pauseAsked : List (Nat × Packet × Nat)
  /-- marked for preemption at the next boundary (R246) -/
  preempted : Bool
  /-- tokens read so far in the current run, from position 0 (R240, R253) -/
  tokens : List Word32
  /-- head-start block as read; emitted tokens; base; d of the last round; rounds; stop reason (R266-R276) -/
  block : Option (BitVec 2048)
  emitted : List Word32
  base : Nat
  d : Nat
  rounds : Nat
  stop : BitVec 8
  /-- a filled round runs, or waits for its newt -/
  roundOut : Bool
  newt : Option Nat
  /-- proposals decided on for the reserved rows (R270) -/
  proposals : List Word32
  /-- output rows of a completed steep that a newt has not taken yet (R233, R270) -/
  samples : List Sample
  /-- position up to which the current run has computed (R237) -/
  computed : Nat
  late : Option (BitVec 4)
  /-- SCORE values, or the pooled vector so far (R233) -/
  gathered : List Word32
  /-- bytes to write at RESULT (R342) -/
  outBytes : List Byte
  resultDue : Bool
  finalPosted : Bool
  /-- adopted from the partner: its completions go to the partner's rings (R386) -/
  adopted : Bool
  deriving DecidableEq, Repr

/-- A tenant (R437). -/
structure Tenant where
  variant : BitVec 16
  pinQuota : Nat
  subRing : Nat
  cplRing : Nat
  deriving DecidableEq, Repr

/-- A pinned prefix (R252). -/
structure Pin where
  tenant : Nat
  length : Nat
  crc : Word32
  measurement : BitVec 384
  pages : List Nat
  retiring : Bool
  deriving DecidableEq, Repr

/-- State of a pour target (R339). -/
inductive TgtState where
  | active | waiting | errored
  deriving DecidableEq, Repr

/-- A record on its way to a target (R324, R336): log position, bytes, and what its acknowledgement means. -/
structure Flight where
  pos : Nat
  len : Nat
  entry : Nat
  chunk : Nat
  commit : Bool
  sent : Nat
  deriving DecidableEq, Repr

/-- A chunk that is due at a target (R15, R245, R329-R331): what its records carry, and the pages they are read from. -/
structure PourJob where
  entry : Nat
  f : ReqFields
  chunk : Nat
  first : Nat
  count : Nat
  pages : List Nat
  statePages : Nat
  pinLen : Nat
  pinPages : List Nat
  headstart : Bool
  /-- tokens and stop reason where this is the request's FINAL chunk -/
  final : Option (List Word32 × BitVec 8)
  /-- sampling comes first (R15) -/
  wait : Bool
  deriving DecidableEq, Repr

/-- A pour target (R315, R322-R341). -/
structure Target where
  tenant : Nat
  host : Bool
  ports : BitVec 4
  destQpn : BitVec 24
  pmtu : BitVec 8
  gid : BitVec 128
  rkey : BitVec 32
  startPsn : BitVec 24
  regionAddr : Word64
  regionLen : Word64
  qpn : BitVec 24
  psn : BitVec 24
  port : Nat
  st : TgtState
  cause : Nat
  moved : Bool
  retries : Nat
  /-- retries since the last progress, and ports tried (R334, R336) -/
  tries : Nat
  triedPorts : List Nat
  rnr : Bool
  /-- control block as first read: LOG_OFFSET, LOG_LEN; CONSUMED (R323) -/
  log : Option (Nat × Nat)
  consumed : Nat
  /-- free-running log position, and the position after the latest commit record (R324, R339) -/
  pos : Nat
  produced : Nat
  /-- chunks queued in the order their steeps completed them; records of the front one already written -/
  queue : List PourJob
  recIdx : Nat
  crcs : List Word32
  flights : List Flight
  cnps : Nat
  deriving DecidableEq, Repr

/-- A group (R357-R369). -/
inductive GroupState where
  | forming | active | broken
  deriving DecidableEq, Repr

structure Group where
  st : GroupState
  part : Nat
  key : BitVec 64
  rank : Nat
  levelsAsked : BitVec 8
  levelsUsed : BitVec 3
  list : MemberList
  brokenRank : BitVec 16
  joined : Nat
  /-- waits charged by rank, and the published slowest (R369) -/
  waits : Tab Nat
  slowest : Nat
  slowestNs : Nat
  /-- waits charged by TAG and rank in this module (R369) -/
  tagWaits : List (Nat × Nat × Nat)
  /-- ranks reached at the between-rack level (R363) -/
  far : List Nat
  destroying : Bool
  /-- the GROUP_CREATE to complete, and the GROUP_DESTROY -/
  cmd : Option (Nat × Packet)
  endCmd : Option (Nat × Packet)
  deriving DecidableEq, Repr

/-- A command in the firmware queue, with what its reads will return (R320). -/
inductive FwInput where
  | none
  | hostOk (b : Bool)
  | image (r : ImageRead)
  | members (l : Option MemberList)
  | bind (b : BindInput)
  | mask (m : BitVec 8)
  | fw (i : Option FwImage)
  | activate (newOk partnerOk : Bool)
  deriving DecidableEq, Repr

structure FwCmd where
  ring : Nat
  opcode : BitVec 8
  p : Packet
  input : FwInput
  deriving DecidableEq, Repr

/-- A partition (R434, R440), its request-engine state and its registers. -/
structure Part where
  tileMask : BitVec 64
  ringBase : Nat
  ringQuota : Nat
  pushBase : Nat
  pushUnits : Nat
  dramPages : Nat
  entryQuota : Nat
  tenantQuota : Nat
  keyGen : BitVec 32
  keyContext : BitVec 64
  regulator : Word64
  caddyWays : Word64
  schedCfg : Word64 := 0x000003F0000003E8
  poolPages : BitVec 32 := 0
  freePages : BitVec 32 := 0
  syncStatus : Word64 := 0x7D0
  hsTable : Word64 := 0
  bar4Base : Word64 := 0
  tolUs : BitVec 32 := 2
  pstate : Nat := 0
  /-- state the partition wakes to, while its domains power on (R413) -/
  waking : Option Nat := none
  tenants : Tab Tenant := []
  targets : Tab Target := []
  pins : Tab Pin := []
  image : Option Image := none
  imageBase : Nat := 0
  imageCharges : Nat := 0
  imageCharged : Bool := false
  /-- a fault or exception has been charged since B(n), before the next release (R474) -/
  idleCharged : Bool := false
  pool : List Nat := []
  /-- pages returned since the last composition point (R245) -/
  returned : List Nat := []
  /-- the partition's DRAM share, PART space (R183) -/
  mem : SMap 8 := []
  ctrs : SMap 64 := []
  /-- bandwidth credits in 1/102 400 bytes, so that a nanosecond's growth is whole (R190) -/
  creditRd : Int := 6710886400
  creditWr : Int := 6710886400
  creditRm : Int := 6710886400
  phase : Phase := .none
  steepNo : Nat := 0
  running : Option Steep := none
  next : Option Steep := none
  /-- frozen at CP(n), while the leader waits for the members' counts (R360) -/
  frozen : Option Frozen := none
  /-- pages were freed, a request became eligible or head-start rows fell due since the last composition (R12, R242) -/
  stir : Bool := false
  /-- pages of requests that failed while a steep runs: they return at its boundary (R245) -/
  atBoundary : List (List Nat) := []
  /-- RPT and duration of the last completed steep (R249) -/
  lastRpt : Nat := 0
  lastT : Nat := 0
  /-- contexts arrived at each numbered barrier, and uses released in this steep (R217-R219) -/
  arrived : Tab (List (Nat × Nat)) := []
  uses : SMap 32 := []

  /-- free-page counts the members of a group have sent, by rank (R360) -/
  counts : List (Nat × Nat) := []
  /-- the leader has reached CP(n) and waits for the members' counts (R360) -/
  awaitCounts : Bool := false
  /-- pages a member that is not the leader holds for the leader's entries (R360) -/
  memberPages : Tab (List Nat) := []
  /-- pages of requests that left them while pours still read them (R245) -/
  lent : List (List Nat) := []
  slowRuns : Tab Nat := []
  slowPrev : Tab Nat := []
  /-- counted steep broken by throttling (R396, R415) -/
  throttled : Bool := false
  /-- a request of the read, write or remote class waits for credit (R190) -/
  waitRd : Bool := false
  waitWr : Bool := false
  waitRm : Bool := false
  /-- cancelled requests whose records in flight have not completed: marker of the flights, entry (R19) -/
  cancelled : List (Nat × Entry) := []
  /-- the release was delayed by a power exit, the cap or token reads (R248 code 0x9) -/
  delayed : Bool := false
  deriving DecidableEq, Repr

/-- A ring (R295-R306). -/
structure Ring where
  cfg : Word64 := 0
  base : Word64 := 0
  head : BitVec 16 := 0
  tail : BitVec 16 := 0
  int : Word64 := 0x8000000001000000
  status : Word64 := 0
  count : Word64 := 0
  /-- completions waiting to be written, oldest first; each with its mirror delta number when it waits for one -/
  waiting : List (Completion × Option Nat) := []
  /-- completions written that the host has not taken, with their device counts (R304, R382) -/
  unread : List (BitVec 16 × Completion) := []
  unsignalled : Nat := 0
  /-- an unsignalled final completion of a command with FLAGS.INT has been written (R306) -/
  intDue : Bool := false
  /-- entries captured when the doorbell covered them, or fetched (R299, R301) -/
  live : List (BitVec 512) := []
  /-- commands decoded and not finished, for NOP (R321): SEQ of firmware commands outstanding -/
  outstanding : List (BitVec 32) := []
  nops : List (Packet × List (BitVec 32)) := []
  deriving DecidableEq, Repr

/-- Function state (R289, R290, R292, R294, R343, R344). -/
structure Func where
  errAccess : Word64 := 0
  heldLow : SMap 33 := []
  snaps : SMap 33 := []
  enabled : Bool := false
  resetCause : BitVec 8 := 0
  fnMask : Bool := false
  masked : List Nat := []
  pend : List Nat := []
  deriving DecidableEq, Repr

/-- Something the block sends out (log entry 5). -/
inductive Out where
  | hostWrite (fn : Nat) (addr : Word64) (bytes : List Byte)
  | hostRead (fn : Nat) (addr : Word64) (n : Nat)
  | hostUndefined (addr : Word64) (n : Nat)
  | interrupt (fn : Nat) (vector : Nat)
  | readData (fn : Nat) (bar : Nat) (offset : Nat) (v : Word64)
  | readBytes (fn : Nat) (offset : Nat) (bytes : List Byte)
  | rdmaWrite (part tgt port : Nat) (offset : Nat) (bytes : List Byte) (imm : Option Word32)
  | rdmaRead (part tgt port : Nat)
  /-- a read of K and V that another member of the group holds, over VC1 (R360) -/
  | gather (part rank layer : Nat) (kind : BitVec 8) (first count : Nat)
  | retransmit (part tgt port : Nat) (fromPos : Nat)
  | fabric (port : Nat) (header : BitVec 128) (payload : List Byte)
  | hello (port : Nat) (id : BitVec 64) (epoch : BitVec 16)
  | epochMsg (epoch : BitVec 16)
  | prepareMsg (epoch : BitVec 16)
  | confirmMsg (epoch : BitVec 16)
  | commitMsg (epoch : BitVec 16)
  | neighbours (id : BitVec 64)
  | groupMsg (g : Nat) (kind : Nat) (v : Nat)
  | collective (g : Nat) (rank : Nat) (bytes : List Byte)
  | lockstep (part : Nat) (kind : Nat) (v : Nat)
  | heartbeat (port : Nat) (timebase echoSent echoArrived : Word64)
  | delta (n : Nat) (d : Delta)
  | deltaAck (n : Nat) (fails : Option (BitVec 16 × Nat))
  | resync (c : Shadow)
  | sleepMsg (ticks : Word64)
  | sleepAck
  | pairAuth (id : BitVec 384)
  | spdm (code : BitVec 8) (body : List Byte)
  | pldm (body : List Byte)
  | pin (index : Nat) (high : Bool)
  | pme
  deriving DecidableEq, Repr

/-- Link state of a port and VC (R350): packets that wait for credit, packets sent and not acknowledged, credits. -/
structure LinkVc where
  nextSend : Word32 := 0
  /-- number of the next packet queued; packets take their SEQ as they are sent -/
  nextTicket : Word32 := 0
  nextRecv : Word32 := 0
  queue : List (BitVec 128 × List Byte) := []
  unacked : List (BitVec 128 × List Byte) := []
  credits : Nat := 0
  deriving DecidableEq, Repr

/-- A fabric port (R347, R354, R356). -/
structure FabPort where
  status : Word64 := 0
  vcs : Tab LinkVc := []
  sent : SMap 64 := []
  /-- the output's arbitration (R351): the VC in turn, whether its turn has been given its quantum, and the deficits, in 64 B -/
  turn : Nat := 0
  given : Bool := false
  deficit : Tab Nat := []
  /-- group of the last packet of VC0 (R366) -/
  lastGroup : Nat := 0
  /-- TIMEBASE of the state changes in the last second (R354) -/
  changes : List Nat := []
  nbr : Option (BitVec 64 × Nat × Bool) := none
  deriving DecidableEq, Repr

/-- A record read from a send region whose next hop has not acknowledged it (R365): tile, operation that holds the claim,
port, and its last packet: its SEQ once it is sent, its number in the queue before. -/
structure FabSend where
  tile : Nat
  op : Nat
  port : Nat
  seq : Word32
  sent : Bool
  deriving DecidableEq, Repr

/-- The search (R352, R353). -/
structure Fabric where
  ports : Tab FabPort := []
  epoch : BitVec 16 := 0
  pubEpoch : BitVec 16 := 0
  published : Bool := false
  searching : Bool := false
  modules : Nat := 0
  moduleIds : List (BitVec 64) := []
  routeId : BitVec 16 := 0
  routes : List Route := []
  prepared : Option (BitVec 16) := none
  tables : List (BitVec 64 × Bool × List Neighbour) := []
  confirms : List (BitVec 64) := []
  vcWeight : Word64 := 0x0000000040081040
  groups : Tab Group := []
  sends : List FabSend := []
  /-- TIMEBASE of the last reroute (R368) -/
  rerouted : Option Nat := none
  deriving DecidableEq, Repr

/-- Level of PAIR_ALIVE_OUT (R377). -/
inductive AliveOut where
  | static | mhz1 | hz32
  deriving DecidableEq, Repr

/-- Pair state (R371-R393). -/
structure Pair where
  /-- 0 unbound, 1 binding, 2 paired, 3 solo, 4 STRANGER, 5 survivor (R294) -/
  st : Nat := 0
  partner : Option (BitVec 384) := none
  rank : Nat := 0
  aliveIn : Nat := 2
  aliveOut : AliveOut := .static
  mirrorPort : Nat := 0
  portsUp : BitVec 2 := 0
  wireFault : Bool := false
  resyncs : Nat := 0
  shadow : Shadow := { requests := [], commands := [], rings := [], images := [], pins := [] }
  /-- deltas sent and not confirmed: number and delta (R375) -/
  sent : List (Nat × Delta) := []
  nextDelta : Nat := 0
  /-- deltas received from the partner -/
  received : Nat := 0
  /-- pair-owned writes waiting for confirmation: partition, offset, value (R393) -/
  pairWrites : List (Nat × Nat × Nat × Word64) := []
  /-- decoded commands whose delta is not confirmed, with its number (R375) -/
  held : List (Nat × FwCmd) := []
  /-- configuration commands whose configuration delta is not confirmed, with its number (R373, R375) -/
  configs : List (Nat × FwCmd) := []
  bindCmd : Option (Nat × Packet × BitVec 384) := none
  lastHbSent : Word64 := 0
  lastHbRecv : Word64 := 0
  lastHbArrived : Word64 := 0
  missed : Nat := 0
  delta : Int := 0
  partnerAsleep : Bool := false
  /-- waiting for the first heartbeat after a wake (R379, R380) -/
  window : Bool := false
  /-- the partner's kettle tick count at its SLEEP, and this member's at the start of the sleep (R380) -/
  sleepTick : Word64 := 0
  sleepAt : Word64 := 0
  /-- end of the wake window on TIMEBASE, while `window` holds (R380) -/
  windowEnd : Nat := 0
  sleepConfirmed : Bool := false
  selfAsleep : Bool := false
  frozen : Bool := false
  /-- adopted ring state on the survivor by the partner's ring number; the model numbers ring n of them 8192 + n (R386) -/
  adopted : Tab Ring := []
  /-- adopted entries that wait for a FREE table entry, in order (R384) -/
  waitingEntries : List (ReqState × ReqFields) := []
  ctrs : SMap 64 := []
  deriving DecidableEq, Repr

/-- A fault-log record (R400). -/
structure LogRec where
  seq : Nat
  time : Word64
  cls : BitVec 8
  code : BitVec 8
  part : BitVec 8
  action : BitVec 8
  unit : BitVec 16
  physical : BitVec 16
  interruption : Word32
  steep : Word32
  detail : BitVec 128
  deriving DecidableEq, Repr

/-- Power and kettle (R403-R422). -/
structure Power where
  dev : Nat := 0
  tolUs : BitVec 32 := 2
  capW : BitVec 16 := 0x0A28
  measured : BitVec 16 := 0
  theta : Nat := 0
  step : Nat := 0
  below : Nat := 0
  capUnmet : Bool := false
  hot : Bool := false
  brake : Bool := false
  limitBrake : Bool := false
  refLocal : Bool := false
  /-- SET_POWER_CAP commands that complete at the next loop period (R415) -/
  capCmds : List (Nat × Packet) := []
  /-- SET_WAKE_TOLERANCE commands that complete once the state is reached (R409) -/
  tolCmds : List (Nat × Packet) := []
  /-- compute domains on or gated (R407), and switches queued to close (R413) -/
  domains : BitVec 16 := 0
  switches : List Nat := []
  timebase : Word64 := 0
  tick : Word64 := 0
  frac : Nat := 0
  aclkFrac : Nat := 0
  /-- TIMEBASE and tick captured when PD18 powers down (R406) -/
  captured : Option (Word64 × Word64) := none
  alarms : Tab Word64 := []
  vinOut : Bool := false
  dieHot : Bool := false
  leakNow : Bool := false
  wakeIn : Bool := false
  seen : BitVec 4 := 0
  wakeCause : BitVec 8 := 0
  vin10mv : BitVec 16 := 0
  wakeMask : BitVec 4 := 5
  wakeSuppressed : Bool := false
  throttleNs : Word64 := 0
  energyMj : Word64 := 0
  energyFrac : Nat := 0
  leftA4 : Option Nat := none
  pmeDone : Bool := false
  deriving DecidableEq, Repr

/-- Security and module (R423-R441, R447-R471). -/
structure Mod where
  lifecycle : BitVec 2 := 1
  otherBad : Bool := false
  sealReset : Bool := false
  sessions : Nat := 0
  fwSvn : BitVec 16 := 0
  svnMin : BitVec 16 := 0
  fwVersion : BitVec 16 := 0
  fwSlot : Bool := false
  staged : Option FwImage := none
  recovery : Bool := false
  gen : BitVec 32 := 0
  salt : Nat := 0
  cores : Nat := 4
  lifeStarted : Bool := false
  /-- module fault that stopped the device (R466) and whether the restart condition holds -/
  stopped : Option (BitVec 8) := none
  restartOk : Bool := true
  leakShutdown : Bool := false
  pinFaults : BitVec 21 := 0
  pinSeen : BitVec 21 := 0
  lastPin : BitVec 5 := 0
  lastKind : BitVec 3 := 0
  /-- TIMEBASE at which a faulted pin went clear (R456: no further record until clear for 1 s) -/
  pinClear : Tab Nat := []
  flashWp : Bool := false
  slotId : BitVec 4 := 0
  testPin : Nat := 0
  wakePinHeld : Bool := false
  alert : Bool := false
  alertSeen : Bool := false
  tjMax : BitVec 8 := 0
  hotDie : BitVec 3 := 0
  inlet : BitVec 8 := 0
  outlet : BitVec 8 := 0
  psi : BitVec 16 := 0
  ilimit : Bool := false
  ilimitSeen : Bool := false
  pwrGood : Bool := false
  iin : BitVec 16 := 0
  vinSns : BitVec 16 := 0
  lanes : Tab Word64 := []
  /-- a start-up that waits for the restart condition of R466, or for a firmware update in recovery: RESET_CAUSE, findings -/
  waitStart : Option (BitVec 8 × StartCfg) := none
  /-- the submission ring served last (R302) -/
  lastRing : Nat := 8191
  deriving DecidableEq, Repr

/-- A line of the caddy (R193, R195): set, way, partition, line of its share, and which 64 B halves it holds (log entry 152). -/
structure CaddyLine where
  set : Nat
  way : Nat
  part : Nat
  line : Nat
  halves : BitVec 2
  deriving DecidableEq, Repr

/-- DRAM, caddy, newts, pour ports: the shared parts of the IOD. -/
structure Iod where
  lost : BitVec 32 := 0
  scrubPass : BitVec 8 := 0
  /-- TIMEBASE of the granules a package has reported uncorrectable (R203) -/
  uncorr : Tab (List Nat) := []
  waysOff : BitVec 16 := 0
  /-- errors of each way in the last 24 hours: whether uncorrectable, TIMEBASE (R196) -/
  wayErrs : Tab (List (Bool × Nat)) := []
  /-- lines the caddy holds, the least recently used first (R193-R197) -/
  caddy : List CaddyLine := []
  /-- credit of the newts in 1/102 400 bytes (R190) -/
  creditNewt : Int := 6710886400
  /-- stripes gathered in the combining buffer, with the positions written (R202) -/
  combining : List (Nat × List Nat) := []
  newtsLost : BitVec 8 := 0
  /-- what SIGNALs have brought to a newt, by newt and the number each names: key newt * 256 + flag (R214; log entry 157) -/
  newtFlags : SMap 32 := []
  draftLimit : Nat := 8
  calm : Nat := 0
  gaveUp : Bool := false
  ctrs : SMap 64 := []
  portsUp : BitVec 4 := 0
  portsMacsec : BitVec 4 := 0
  portsFenced : BitVec 4 := 0
  portLanes : Word32 := 0
  pourTc : Word64 := 0x02DA02DA02DA02DA
  collTc : Word64 := 0x0322032203220322
  targetsAdded : Nat := 0
  sparesUsed : BitVec 4 := 0
  /-- physical tiles found bad: die * 17 + position -/
  badPhys : List Nat := []
  deriving DecidableEq, Repr

/-- What A4 entry saves (R408): kept outside the records that lose their contents. -/
structure Saved where
  valid : Bool := false
  parts : Tab Part := []
  rings : Tab Ring := []
  table : Tab Entry := []
  tiles : Tab Tile := []
  deriving DecidableEq, Repr

/-- The state of the block. -/
structure State where
  pending : List Instr
  free : Nat
  ready : Bool
  resetCause : BitVec 8
  funcs : Tab Func
  rings : Tab Ring
  push : SMap 8
  fwLimit : BitVec 16
  fwQueue : List FwCmd
  parts : Tab Part
  table : Tab Entry
  tiles : Tab Tile
  sigs : List Sig
  remotes : List Remote
  iod : Iod
  fab : Fabric
  pair : Pair
  log : List LogRec
  logNext : Nat
  /-- records overwritten, by partition byte (0xFF device-wide) and sequence number (R316) -/
  logLost : List (Nat × Nat)
  pwr : Power
  mod : Mod
  saved : Saved
  out : List Out
  deriving DecidableEq, Repr

/-- The machine right after reset, before start-up: every register at its Reset value, nothing stored, no command
waiting (log entries 4 and 11; POWER_ON runs the start-up sequence). -/
def State.reset : State where
  pending := []
  free := 0
  ready := false
  resetCause := 0
  funcs := []
  rings := []
  push := []
  fwLimit := 0x0400
  fwQueue := []
  parts := []
  table := []
  tiles := []
  sigs := []
  remotes := []
  iod := {}
  fab := {}
  pair := {}
  log := []
  logNext := 0
  logLost := []
  pwr := {}
  mod := {}
  saved := {}
  out := []

end Sys2Proof.Machine
end

