-- ==== Sys2Proof/Machine/Table.lean ====
section
/-! DEFINITION. Table.lean: reading and writing sparse stores and tables, and bytes in little-endian order (R5). -/

namespace Sys2Proof.Machine

/-- Put a pair into a list with strictly rising keys, replacing the pair of that key. -/
def tabInsert {α : Type} (k : Nat) (v : α) : List (Nat × α) → List (Nat × α)
  | [] => [(k, v)]
  | (k', v') :: r => if k < k' then (k, v) :: (k', v') :: r
    else if k = k' then (k, v) :: r else (k', v') :: tabInsert k v r

/-- Remove the pair of a key. -/
def tabErase {α : Type} (k : Nat) : List (Nat × α) → List (Nat × α)
  | [] => []
  | (k', v') :: r => if k = k' then tabErase k r else (k', v') :: tabErase k r

/-- The record of a number, if the table lists one. -/
def tabGet? {α : Type} (k : Nat) : List (Nat × α) → Option α
  | [] => none
  | (k', v') :: r => if k = k' then some v' else tabGet? k r

/-- The record of a number, or the default where none is listed. -/
def tabGetD {α : Type} (t : List (Nat × α)) (k : Nat) (d : α) : α := (tabGet? k t).getD d

/-- Change the record of a number, starting from the default where none is listed. -/
def tabModify {α : Type} (t : List (Nat × α)) (k : Nat) (d : α) (f : α → α) : List (Nat × α) :=
  tabInsert k (f (tabGetD t k d)) t

/-- The keys of a table. -/
def tabKeys {α : Type} (t : List (Nat × α)) : List Nat := t.map Prod.fst

/-- Whether the keys of a list rise strictly. -/
def keysRise {α : Type} : List (Nat × α) → Bool
  | [] => true
  | [_] => true
  | (a, _) :: (b, y) :: r => decide (a < b) && keysRise ((b, y) :: r)

/-- Read a cell of a sparse store; an unlisted cell reads 0 (log entry 4). -/
def smGet {w : Nat} (m : List (Nat × BitVec w)) (a : Nat) : BitVec w := (tabGet? a m).getD 0

/-- Write a cell, keeping the canonical form: a zero cell is not listed. -/
def smSet {w : Nat} (m : List (Nat × BitVec w)) (a : Nat) (v : BitVec w) : List (Nat × BitVec w) :=
  if v = 0 then tabErase a m else tabInsert a v m

/-- The canonical form of a sparse store: keys strictly rising, no cell listed at 0. -/
def Memory.wf {w : Nat} (m : List (Nat × BitVec w)) : Bool := keysRise m && m.all (fun p => decide (p.2 ≠ 0))

/-- Read `n` bytes from address `a`. -/
def readBytes (m : SMap 8) (a : Nat) : Nat → List Byte
  | 0 => []
  | n + 1 => smGet m a :: readBytes m (a + 1) n

/-- Write bytes from address `a` on. -/
def writeBytes (m : SMap 8) (a : Nat) : List Byte → SMap 8
  | [] => m
  | b :: r => writeBytes (smSet m a b) (a + 1) r

/-- Set `n` cells from `a` to zero. -/
def clearRange {w : Nat} (m : List (Nat × BitVec w)) (a n : Nat) : List (Nat × BitVec w) :=
  m.filter (fun p => !(decide (a ≤ p.1) && decide (p.1 < a + n)))

/-- The number that bytes spell, the first byte least significant (R5). -/
def bytesToNat : List Byte → Nat
  | [] => 0
  | b :: r => b.toNat + 256 * bytesToNat r

/-- `n` bytes of a number, least significant first (R5). -/
def natToBytes : Nat → Nat → List Byte
  | 0, _ => []
  | n + 1, v => BitVec.ofNat 8 v :: natToBytes n (v / 256)

/-- A little-endian value of `w` bits at address `a`. -/
def readLE (m : SMap 8) (a n w : Nat) : BitVec w := BitVec.ofNat w (bytesToNat (readBytes m a n))

/-- Bits [hi:lo] of a number, as the spec writes bit ranges (00, Notation). -/
def bits {w : Nat} (x : BitVec w) (hi lo : Nat) : Nat := (x.toNat >>> lo) % 2 ^ (hi + 1 - lo)

/-- One bit of a word. -/
def bit {w : Nat} (x : BitVec w) (i : Nat) : Bool := x.getLsbD i

/-- Put a field's value into bits [hi:lo] of a word. -/
def setBits {w : Nat} (x : BitVec w) (hi lo v : Nat) : BitVec w :=
  let mask := BitVec.ofNat w ((2 ^ (hi + 1 - lo) - 1) <<< lo)
  (x &&& ~~~mask) ||| (BitVec.ofNat w ((v % 2 ^ (hi + 1 - lo)) <<< lo))

/-- Put one bit. -/
def setBit {w : Nat} (x : BitVec w) (i : Nat) (b : Bool) : BitVec w := setBits x i i (if b then 1 else 0)

/-- Sign extension of a `w`-bit field held in a number. -/
def signed (w v : Nat) : Int := (BitVec.ofNat w v).toInt

/-- The bit of a Boolean as a number. -/
def b2n (b : Bool) : Nat := if b then 1 else 0

/-- The least upper rounded quotient. -/
def ceilDiv (a b : Nat) : Nat := (a + b - 1) / b

/-- Indexes at which a list's elements satisfy a test. -/
def indexesOf {α : Type} (p : α → Bool) : List α → Nat → List Nat
  | [], _ => []
  | x :: r, i => if p x then i :: indexesOf p r (i + 1) else indexesOf p r (i + 1)

/-- Remove the element at an index. -/
def dropIdx {α : Type} : List α → Nat → List α
  | [], _ => []
  | _ :: r, 0 => r
  | x :: r, i + 1 => x :: dropIdx r i

/-- Sort by a less-or-equal test (insertion; keeps the order of equals). -/
def insertBy {α : Type} (le : α → α → Bool) (x : α) : List α → List α
  | [] => [x]
  | y :: r => if le x y then x :: y :: r else y :: insertBy le x r
def sortBy {α : Type} (le : α → α → Bool) : List α → List α
  | [] => []
  | x :: r => insertBy le x (sortBy le r)

end Sys2Proof.Machine
end

