-- ==== Sys2Proof/Machine/Float.lean ====
section
/-! DEFINITION. Float.lean: number formats, exact values, the one rounding (RNE), FP32 operations, block integers, MX
quantisation, and the exp2 and log2 reference routines (spec/02_numerics.md). -/

namespace Sys2Proof.Machine

/-- The value of an encoding: NaN, an infinity, or ± m × 2^e. -/
inductive Num where
  | nan
  | inf (neg : Bool)
  | fin (neg : Bool) (m : Nat) (e : Int)
  deriving DecidableEq, Repr

/-- A floating format of R22: exponent and mantissa bits, bias, largest finite encoding, has infinities, NaN rule:
0 none, 1 the one mantissa of all ones (E4M3), 2 IEEE 754. -/
structure FFmt where
  eb : Nat
  mb : Nat
  bias : Nat
  maxBits : Nat
  inf : Bool
  nan : Nat
  deriving DecidableEq, Repr

def fE4M3 : FFmt := ⟨4, 3, 7, 0x7E, false, 1⟩
def fE5M2 : FFmt := ⟨5, 2, 15, 0x7B, true, 2⟩
def fE2M3 : FFmt := ⟨2, 3, 1, 0x1F, false, 0⟩
def fE3M2 : FFmt := ⟨3, 2, 3, 0x1F, false, 0⟩
def fE2M1 : FFmt := ⟨2, 1, 1, 0x7, false, 0⟩
def fBF16 : FFmt := ⟨8, 7, 127, 0x7F7F, true, 2⟩
def fFP16 : FFmt := ⟨5, 10, 15, 0x7BFF, true, 2⟩
def fFP32 : FFmt := ⟨8, 23, 127, 0x7F7FFFFF, true, 2⟩

/-- The value of an encoding of a floating format (R22). -/
def FFmt.decode (f : FFmt) (x : Nat) : Num :=
  let neg := (x >>> (f.eb + f.mb)) % 2 = 1
  let e := (x >>> f.mb) % 2 ^ f.eb
  let m := x % 2 ^ f.mb
  if f.nan = 2 ∧ e = 2 ^ f.eb - 1 then (if m = 0 then .inf neg else .nan)
  else if f.nan = 1 ∧ e = 2 ^ f.eb - 1 ∧ m = 2 ^ f.mb - 1 then .nan
  else if e = 0 then .fin neg m (1 - (f.bias : Int) - f.mb)
  else .fin neg (2 ^ f.mb + m) ((e : Int) - f.bias - f.mb)

/-- v / 2^k rounded to nearest, ties to even. -/
def rneShift (v k : Nat) : Nat :=
  let w := v >>> k
  let rem := v - (w <<< k)
  if k = 0 then v
  else if 2 * rem > 2 ^ k ∨ (2 * rem = 2 ^ k ∧ w % 2 = 1) then w + 1 else w

/-- Sign bit of a format in place. -/
def FFmt.sign (f : FFmt) (neg : Bool) : Nat := if neg then 2 ^ (f.eb + f.mb) else 0

/-- Round ± m × 2^e once to a format with RNE; formats without infinity saturate, the others overflow to infinity;
subnormals and signed zeros are kept (R25, R37). -/
def FFmt.round (f : FFmt) (neg : Bool) (m : Nat) (e : Int) : Nat :=
  if m = 0 then f.sign neg
  else
    let top : Int := e + Nat.log2 m
    let emin : Int := 1 - (f.bias : Int)
    let q : Int := max top emin - f.mb
    let sig := if q ≤ e then m <<< (e - q).toNat else rneShift m (q - e).toNat
    let field : Nat := (q + f.mb - emin).toNat
    let mag := if sig < 2 ^ f.mb then sig else (field <<< f.mb) + sig
    f.sign neg + (if mag > f.maxBits then (if f.inf then f.maxBits + 1 else f.maxBits) else mag)

/-- Positive canonical NaN (R38); formats without a written NaN encoding never get one (R39, R105). -/
def FFmt.nanBits (f : FFmt) : Nat := if f.nan = 2 ∧ f.eb + f.mb > 7 then ((2 ^ f.eb - 1) <<< f.mb) + 2 ^ (f.mb - 1) else 0

/-- Convert a value to a format (R37, R38). -/
def FFmt.encode (f : FFmt) : Num → Nat
  | .nan => f.nanBits
  | .inf neg => f.sign neg + (if f.inf then f.maxBits + 1 else f.maxBits)
  | .fin neg m e => f.round neg m e

/-- FP32 bits. -/
def toF32 (n : Num) : Word32 := BitVec.ofNat 32 (fFP32.encode n)
def ofF32 (x : Word32) : Num := fFP32.decode x.toNat

/-- Signed integer of a finite value scaled to exponent `e0 ≤ e`. -/
def scaled (neg : Bool) (m : Nat) (e e0 : Int) : Int :=
  let v : Int := (m : Int) * 2 ^ (e - e0).toNat
  if neg then -v else v

/-- An exact finite sum; an exact zero is −0 only when both terms are −0 (R32). -/
def Num.add : Num → Num → Num
  | .nan, _ => .nan
  | _, .nan => .nan
  | .inf a, .inf b => if a = b then .inf a else .nan
  | .inf a, _ => .inf a
  | _, .inf b => .inf b
  | .fin n1 m1 e1, .fin n2 m2 e2 =>
    let e := min e1 e2
    let s := scaled n1 m1 e1 e + scaled n2 m2 e2 e
    if s = 0 then .fin (n1 && n2) 0 e else .fin (decide (s < 0)) s.natAbs e

/-- An exact product. -/
def Num.mul : Num → Num → Num
  | .nan, _ => .nan
  | _, .nan => .nan
  | .inf a, .inf b => .inf (a != b)
  | .inf a, .fin n m _ => if m = 0 then .nan else .inf (a != n)
  | .fin n m _, .inf b => if m = 0 then .nan else .inf (n != b)
  | .fin n1 m1 e1, .fin n2 m2 e2 => .fin (n1 != n2) (m1 * m2) (e1 + e2)

def Num.neg : Num → Num
  | .nan => .nan
  | .inf a => .inf (!a)
  | .fin n m e => .fin (!n) m e

/-- A quotient with a sticky bit below 70 quotient bits, enough for one rounding to any format (R43). -/
def Num.div : Num → Num → Num
  | .nan, _ => .nan
  | _, .nan => .nan
  | .inf _, .inf _ => .nan
  | .inf a, .fin n _ _ => .inf (a != n)
  | .fin n _ _, .inf b => .fin (n != b) 0 0
  | .fin n1 m1 e1, .fin n2 m2 e2 =>
    if m2 = 0 then (if m1 = 0 then .nan else .inf (n1 != n2))
    else if m1 = 0 then .fin (n1 != n2) 0 0
    else
      let k := 70 + Nat.log2 m2
      let q := (m1 <<< k) / m2
      let r := (m1 <<< k) % m2
      .fin (n1 != n2) (2 * q + (if r = 0 then 0 else 1)) (e1 - e2 - k - 1)

/-- A square root with a sticky bit (R98, R143). -/
def Num.sqrt : Num → Num
  | .nan => .nan
  | .inf neg => if neg then .nan else .inf false
  | .fin neg m e =>
    if m = 0 then .fin neg 0 0
    else if neg then .nan
    else
      let m' := if e % 2 = 0 then m else 2 * m
      let e' := if e % 2 = 0 then e else e - 1
      let v := m' <<< 80
      let r := Nat.sqrt v
      .fin false (2 * r + (if r * r = v then 0 else 1)) ((e' - 80) / 2 - 1)

/-- FP32 operations, each with one RNE rounding (R40, R43). -/
def fadd (a b : Word32) : Word32 := toF32 ((ofF32 a).add (ofF32 b))
def fsub (a b : Word32) : Word32 := toF32 ((ofF32 a).add (ofF32 b).neg)
def fmul (a b : Word32) : Word32 := toF32 ((ofF32 a).mul (ofF32 b))
def ffma (a b c : Word32) : Word32 := toF32 (((ofF32 a).mul (ofF32 b)).add (ofF32 c))
def fdiv (a b : Word32) : Word32 := toF32 ((ofF32 a).div (ofF32 b))
def fsqrt (a : Word32) : Word32 := toF32 (ofF32 a).sqrt

/-- a < b as values; false where either is NaN. -/
def Num.lt : Num → Num → Bool
  | .nan, _ => false
  | _, .nan => false
  | .inf a, .inf b => a && !b
  | .inf a, _ => a
  | _, .inf b => !b
  | .fin n1 m1 e1, .fin n2 m2 e2 =>
    let e := min e1 e2
    decide (scaled n1 m1 e1 e < scaled n2 m2 e2 e)

def flt (a b : Word32) : Bool := (ofF32 a).lt (ofF32 b)
def fge (a b : Word32) : Bool := (ofF32 a) ≠ .nan && (ofF32 b) ≠ .nan && !flt a b
def isNan (a : Word32) : Bool := ofF32 a = .nan
def isInf (a : Word32) : Bool := match ofF32 a with | .inf _ => true | _ => false
def signBit (a : Word32) : Bool := a.getLsbD 31

def nan32 : Word32 := 0x7FC00000
def pinf32 : Word32 := 0x7F800000
def ninf32 : Word32 := 0xFF800000
def one32 : Word32 := 0x3F800000
/-- log2 e as FP32 (R101). -/
def log2e32 : Word32 := 0x3FB8AA3B

/-- Maximum: a NaN makes it NaN, and +0 counts as greater than −0 (R103; for VMAX DEDUCED, log entry 12). -/
def fmax (a b : Word32) : Word32 :=
  if isNan a || isNan b then nan32
  else if flt a b then b else if flt b a then a
  else if signBit a then b else a

/-- Minimum, the mirror image of the maximum (log entry 12). -/
def fmin (a b : Word32) : Word32 :=
  if isNan a || isNan b then nan32
  else if flt a b then a else if flt b a then b
  else if signBit a then a else b

/-- The fixed pairwise tree over a power-of-two count of values: each level adds adjacent results (R36, R43). -/
def pairUp (f : Word32 → Word32 → Word32) : List Word32 → List Word32
  | a :: b :: r => f a b :: pairUp f r
  | l => l
def treeSum : Nat → List Word32 → Word32
  | 0, l => l.headD 0
  | n + 1, l => treeSum n (pairUp fadd l)

/-- exp2_ref's rne_shift (R41). -/
def expShift (v k : Nat) : Nat := rneShift v (if k > 31 then 32 else k)

/-- exp2_ref (R41). -/
def exp2Ref (x : Word32) : Word32 :=
  match ofF32 x with
  | .nan => nan32
  | .inf neg => if neg then 0 else pinf32
  | .fin neg m e =>
    let ge128 := !neg && !(Num.lt (.fin neg m e) (.fin false 128 0))
    let ltm150 := Num.lt (.fin neg m e) (.fin true 150 0)
    if ge128 then pinf32
    else if ltm150 then 0
    else
      let s : Int := if neg then -(m : Int) else m
      let sh : Int := e + 24
      let q : Int := if 0 ≤ sh then s * 2 ^ sh.toNat else s >>> (-sh).toNat
      let n : Int := q >>> 24
      let r : Nat := (q - n * 2 ^ 24).toNat
      let step := fun (p c : Nat) => ((p * r + 2 ^ 29) >>> 30) + c
      let p0 := step (step (step 0x038D611B 0x0F5FDF00) 0x2C5C85FE) 0x40000000
      let sq := fun (p : Nat) => (p * p + 2 ^ 29) >>> 30
      let p := sq (sq (sq (sq (sq (sq p0)))))
      let E : Int := n + 127
      if 1 ≤ E then
        let mant := rneShift p 7
        let (mant, E) := if mant = 2 ^ 24 then (2 ^ 23, E + 1) else (mant, E)
        if 255 ≤ E then pinf32
        else BitVec.ofNat 32 ((E.toNat <<< 23) + (mant - 2 ^ 23))
      else BitVec.ofNat 32 (expShift p (8 - E).toNat)

/-- The 24 squaring steps of log2_ref (R42): significand in Q30 and the fraction so far. -/
def log2Steps : Nat → Nat → Nat → Nat
  | 0, _, f => f
  | k + 1, x, f =>
    let x := (x * x) >>> 30
    if x ≥ 2 ^ 31 then log2Steps k (x >>> 1) (2 * f + 1) else log2Steps k x (2 * f)

/-- log2_ref (R42). -/
def log2Ref (s : Word32) : Word32 :=
  if isNan s || flt s one32 then nan32
  else if isInf s then pinf32
  else
    let e := bits s 30 23 - 127
    let x := (2 ^ 23 + bits s 22 0) <<< 7
    let n := e * 2 ^ 24 + log2Steps 24 x 0
    toF32 (.fin false n (-24))

/-- Formats by code (R132): 0-4 MX floating, 5 MXINT8, 6 BF16, 7 FP16, 8 FP32. -/
def fmtOf : Nat → FFmt
  | 0 => fE4M3
  | 1 => fE5M2
  | 2 => fE2M3
  | 3 => fE3M2
  | 4 => fE2M1
  | 6 => fBF16
  | 7 => fFP16
  | _ => fFP32

def isMx (code : Nat) : Bool := code ≤ 5

/-- Bits of one element (R22). -/
def elemBits : Nat → Nat
  | 0 => 8 | 1 => 8 | 2 => 6 | 3 => 6 | 4 => 4 | 5 => 8 | 6 => 16 | 7 => 16 | _ => 32

/-- Largest exponent used for a block's scale (R39). -/
def emax : Nat → Int
  | 0 => 8 | 1 => 15 | 2 => 2 | 3 => 4 | 4 => 2 | _ => 0

/-- The value of an element without its scale (R22, R24). -/
def elemNum (code x : Nat) : Num :=
  if code = 5 then
    let i := signed 8 x
    .fin (decide (i < 0)) i.natAbs (-6)
  else (fmtOf code).decode x

/-- Unit exponent u and element integer I of an MX format (R26); 0 for a NaN or infinite encoding. -/
def unitExp (code : Nat) : Int :=
  if code = 5 then -6 else 1 - ((fmtOf code).bias : Int) - (fmtOf code).mb
def elemInt (code x : Nat) : Int :=
  if code = 5 then signed 8 x
  else match (fmtOf code).decode x with
    | .fin neg m e => scaled neg m e (unitExp code)
    | _ => 0

/-- The block integer BI, exact (R27). -/
def blockInt (ca cb : Nat) : List (Nat × Nat) → Int
  | [] => 0
  | (a, b) :: r => elemInt ca a * elemInt cb b + blockInt ca cb r

/-- Sum of the infinite products of a block (R30): none when there is no infinity; NaN for infinity × zero or mixed signs. -/
def infSum (ca cb : Nat) : List (Nat × Nat) → Option Num
  | [] => none
  | (a, b) :: r =>
    let p := (elemNum ca a).mul (elemNum cb b)
    let rest := infSum ca cb r
    match p with
    | .fin _ _ _ => rest
    | _ => some (match rest with | none => p | some q => p.add q)

/-- The value of a block, converted once to FP32 (R29, R30, R31), when its integer has changed by `d`. -/
def blockValueOff (ca cb : Nat) (sa sb : Byte) (d : Int) (ab : List (Nat × Nat)) : Word32 :=
  if sa = 0xFF || sb = 0xFF then nan32
  else if ab.any (fun p => elemNum ca p.1 = .nan || elemNum cb p.2 = .nan) then nan32
  else match infSum ca cb ab with
    | some n => toF32 n
    | none =>
      let bi := d + blockInt ca cb ab
      if bi = 0 then 0
      else toF32 (.fin (decide (bi < 0)) bi.natAbs
        (((sa.toNat : Int) - 127 + unitExp ca) + ((sb.toNat : Int) - 127 + unitExp cb)))

/-- The value of a block (R29, R30, R31). -/
def blockValue (ca cb : Nat) (sa sb : Byte) (ab : List (Nat × Nat)) : Word32 := blockValueOff ca cb sa sb 0 ab
/-- The sum of a group of BF16 or FP16 products when integer significand products changed by `d` that no residue shows (R51; log
entry 139). -/
def groupOff (d : Int) (v : Word32) : Word32 := if d = 0 then v else Config.groupError v d

/-- The group sum of 32 exact BF16 or FP16 products: level 1 rounds the sum of two exact products once (R36). -/
def groupPairs (code : Nat) : List (Nat × Nat) → List Word32
  | (a, b) :: (c, d) :: r =>
    toF32 (((elemNum code a).mul (elemNum code b)).add ((elemNum code c).mul (elemNum code d))) :: groupPairs code r
  | [(a, b)] => [toF32 (((elemNum code a).mul (elemNum code b)).add (.fin false 0 0))]
  | [] => []
def groupSum (code : Nat) (ab : List (Nat × Nat)) : Word32 := treeSum 4 (groupPairs code ab)

/-- ext_add (R33): the pair hi, lo after adding v. -/
def extAdd (hi lo v : Word32) : Word32 × Word32 :=
  let s := fadd hi v
  let z := fsub s hi
  let e := fadd (fsub hi (fsub s z)) (fsub v z)
  let t := fadd lo e
  let hi2 := fadd s t
  let lo2 := fsub t (fsub hi2 s)
  if isNan hi2 || isInf hi2 then (hi2, 0) else (hi2, lo2)

/-- Convert a value to a non-MX element, or to an MX element at scale 2^x (R37, R39): the product with 2^(-x) is exact. -/
def toElem (code : Nat) (n : Num) (x : Int) : Nat :=
  match n with
  | .fin neg m e =>
    if code = 5 then
      let sh : Int := e - x + 6
      let v := if 0 ≤ sh then m <<< sh.toNat else rneShift m (-sh).toNat
      let v := min v 127
      (if neg then (256 - v) % 256 else v)
    else (fmtOf code).round neg m (e - x)
  | .inf neg => if code = 5 then (if neg then 256 - 127 else 127) else (fmtOf code).encode (.inf neg)
  | .nan => (fmtOf code).nanBits

/-- Whether |a| < |b| for finite values. -/
def magLt (a b : Num) : Bool :=
  match a, b with
  | .fin _ m1 e1, .fin _ m2 e2 => Num.lt (.fin false m1 e1) (.fin false m2 e2)
  | _, _ => false

/-- mx_quantise over 32 exact values (R39): scale byte and element encodings. -/
def mxQuantise (code : Nat) (v : List Num) : Byte × List Nat :=
  if v.any (fun n => match n with | .fin _ _ _ => false | _ => true) then (0xFF, v.map (fun _ => 0))
  else
    let big := v.foldl (fun a b => if magLt a b then b else a) (.fin false 0 0)
    match big with
    | .fin _ m e =>
      if m = 0 then (0, v.map (fun n => if code = 5 then 0 else toElem code n 0))
      else
        let x0 : Int := e + Nat.log2 m - emax code
        let x : Int := min (max x0 (-127)) 127
        (BitVec.ofNat 8 (x + 127).toNat, v.map (fun n => toElem code n x))
    | _ => (0xFF, v.map (fun _ => 0))

/-- Widen an element with its scale byte to its exact value. -/
def withScale (code x : Nat) (sc : Byte) : Num :=
  if isMx code then
    (if sc = 0xFF then .nan else match elemNum code x with
      | .fin neg m e => .fin neg m (e + sc.toNat - 127)
      | n => n)
  else elemNum code x

/-- Activations (R101). -/
def relu (x : Word32) : Word32 := if isNan x then nan32 else if flt 0 x then x else 0
def silu (x : Word32) : Word32 :=
  if x = ninf32 then 0x80000000
  else
    let t := fmul x 0xBFB8AA3B
    fdiv x (fadd one32 (exp2Ref t))
def geluT (x : Word32) : Word32 :=
  if x = ninf32 then 0x80000000
  else
    let u := fmul (fmul (fmul x x) x) 0x3D372713
    let u := fmul (fadd u x) 0x3F4C422A
    fdiv x (fadd one32 (exp2Ref (fmul u 0xC038AA3B)))
def activation : Nat → Word32 → Word32
  | 1, x => relu x
  | 2, x => fmul (relu x) (relu x)
  | 3, x => silu x
  | 4, x => geluT x
  | _, x => x

/-- CRC-32C, reflected, byte by byte (R327). -/
def crcBits : Nat → BitVec 32 → BitVec 32
  | 0, c => c
  | n + 1, c => crcBits n (if c.getLsbD 0 then (c >>> 1) ^^^ 0x82F63B78 else c >>> 1)
def crcRun (c : BitVec 32) : List Byte → BitVec 32
  | [] => c
  | b :: r => crcRun (crcBits 8 (c ^^^ b.setWidth 32)) r
def crc32c (l : List Byte) : BitVec 32 := crcRun 0xFFFFFFFF l ^^^ 0xFFFFFFFF

/-- score_lp (R234). -/
def fmaxList (l : List Word32) : Word32 := l.foldl fmax ninf32
def scoreLp (logits : List Word32) (y : Nat) : Word32 :=
  let l0 := logits.map (fun x => if isNan x then ninf32 else x)
  let l := if l0.any (fun x => x = pinf32) then l0.map (fun x => if x = pinf32 then (0 : Word32) else ninf32) else l0
  let m := fmaxList l
  if m = ninf32 then nan32
  else
    let s := l.foldl (fun a x => fadd a (exp2Ref (fmul (fsub x m) log2e32))) 0
    let u := fmul (fsub (l.getD y ninf32) m) log2e32
    fmul (fsub u (log2Ref s)) 0x3F317218

/-- One element of a collective in FP32 (R361): the tree over the members' values by rank, which the tile programs of the image add. -/
def collectiveF32 (v : List Word32) : Word32 := treeSum v.length v
/-- One element in BF16 (R362): widened, summed, and converted once at rank 0. -/
def collectiveBf16 (v : List (BitVec 16)) : BitVec 16 := BitVec.ofNat 16 (fBF16.encode (ofF32 (collectiveF32 (v.map (fun x => x ++ (0 : BitVec 16))))))
/-- One element in INT32 (R362): each addition modulo 2^32. -/
def collectiveInt (v : List Word32) : Word32 := v.foldl (· + ·) 0

end Sys2Proof.Machine
end

