-- ==== Sys2Proof/Machine/Ops.lean ====
section
/-! DEFINITION. Ops.lean: the shared operations over the state: accessors, counters, completions, error and fault logs. -/

namespace Sys2Proof

/-- Packet fields: `n` bytes of the parameters from packet byte `off` (R307, R5). -/
def Packet.le (p : Packet) (off n : Nat) : Nat := (p.params.toNat >>> (8 * (off - 16))) % 2 ^ (8 * n)
def Packet.tenant (p : Packet) : Nat := p.tenantClass.toNat % 4096
def Packet.cls (p : Packet) : Nat := p.tenantClass.toNat / 4096
def Packet.events (p : Packet) : Bool := p.flags.getLsbD 0
def Packet.int (p : Packet) : Bool := p.flags.getLsbD 1
/-- Whether all parameter bytes outside the listed ranges (packet byte, length) are zero (R6, R307). -/
def Packet.onlyBytes (p : Packet) (used : List (Nat × Nat)) : Bool :=
  (List.range 48).all (fun i => used.any (fun u => decide (u.1 ≤ i + 16) && decide (i + 16 < u.1 + u.2)) || p.le (i + 16) 1 = 0)
/-- The first reserved parameter byte that is not zero. -/
def Packet.badByte (p : Packet) (used : List (Nat × Nat)) : Option Nat :=
  ((List.range 48).find? (fun i => !(used.any (fun u => decide (u.1 ≤ i + 16) && decide (i + 16 < u.1 + u.2)) || p.le (i + 16) 1 = 0))).map (· + 16)

end Sys2Proof

namespace Sys2Proof.Machine

open Sys2Proof

/-- An outcome that always goes on. -/
abbrev Res := Host.Outcome State Fault Refusal

/-- Tiles. -/
def getTile (s : State) (t : Nat) : Tile := tabGetD s.tiles t {}
def setTile (s : State) (t : Nat) (x : Tile) : State := { s with tiles := tabInsert t x s.tiles }
def modTile (s : State) (t : Nat) (f : Tile → Tile) : State := setTile s t (f (getTile s t))

/-- Task contexts. -/
def getCtx (x : Tile) (c : Nat) : Ctx := tabGetD x.ctx c {}
def setCtx (x : Tile) (c : Nat) (k : Ctx) : Tile := { x with ctx := tabInsert c k x.ctx }
def modCtx (x : Tile) (c : Nat) (f : Ctx → Ctx) : Tile := setCtx x c (f (getCtx x c))

/-- Scalar register; s0 reads 0 (R124). -/
def readS (k : Ctx) (i : Nat) : Word64 := if i = 0 then 0 else smGet k.s i
/-- Write a scalar register; a write to s0 is discarded (R124). -/
def writeS (k : Ctx) (i : Nat) (v : Word64) : Ctx := if i = 0 then k else { k with s := smSet k.s i v }
/-- Bounds register; b0 reads 0xFFFFFFFF, which is also the state at steep release (R123, R124). -/
def readB (k : Ctx) (i : Nat) : Word32 := if i = 0 then 0xFFFFFFFF else tabGetD k.b i 0xFFFFFFFF
def writeB (k : Ctx) (i : Nat) (v : Word32) : Ctx := if i = 0 then k else { k with b := tabInsert i v k.b }
/-- Mask register; m0 reads all ones (R123, R124). -/
def readM (k : Ctx) (i : Nat) : BitVec 512 := if i = 0 then BitVec.allOnes 512 else tabGetD k.m i (BitVec.allOnes 512)
def writeM (k : Ctx) (i : Nat) (v : BitVec 512) : Ctx := if i = 0 then k else { k with m := tabInsert i v k.m }

/-- Accumulator slots. -/
def getSlot (x : Tile) (i : Nat) : Slot := tabGetD x.slots i {}
def setSlot (x : Tile) (i : Nat) (v : Slot) : Tile := { x with slots := tabInsert i v x.slots }
def modSlot (x : Tile) (i : Nat) (f : Slot → Slot) : Tile := setSlot x i (f (getSlot x i))

/-- Address-program handles. -/
def getHandle (x : Tile) (i : Nat) : Handle := tabGetD x.handles i {}
def setHandle (x : Tile) (i : Nat) (v : Handle) : Tile := { x with handles := tabInsert i v x.handles }

/-- Flags of a tile. -/
def getFlag (x : Tile) (f : Nat) : Word32 := smGet x.flags f
def setFlag (x : Tile) (f : Nat) (v : Word32) : Tile := { x with flags := smSet x.flags f v }
/-- An ADD to a flag, modulo 2^32 (R146). -/
def addFlag (x : Tile) (f : Nat) (v : Word32) : Tile := setFlag x f (getFlag x f + v)
/-- A DONE increment, where the instruction names a flag (R137, R139, R141, R144). -/
def doneFlag (x : Tile) : Option Nat → Tile
  | none => x
  | some f => addFlag x f 1

/-- Add to a tile counter at its offset in the tile block (R284). -/
def tileCtr (x : Tile) (off n : Nat) : Tile := { x with ctrs := smSet x.ctrs off (smGet x.ctrs off + BitVec.ofNat 64 n) }

/-- Partitions. -/
def getPart? (s : State) (p : Nat) : Option Part := tabGet? p s.parts
def setPart (s : State) (p : Nat) (x : Part) : State := { s with parts := tabInsert p x s.parts }
def modPart (s : State) (p : Nat) (f : Part → Part) : State :=
  match getPart? s p with
  | none => s
  | some x => setPart s p (f x)
def partCtrOf (x : Part) (off n : Nat) : Part := { x with ctrs := smSet x.ctrs off (smGet x.ctrs off + BitVec.ofNat 64 n) }
def partCtr (s : State) (p off n : Nat) : State := modPart s p (fun x => partCtrOf x off n)

/-- Logical tiles of a mask, ascending. -/
def maskTiles (m : BitVec 64) : List Nat := (List.range 64).filter (fun i => m.getLsbD i)
/-- The partition a tile belongs to. -/
def partOfTile (s : State) (t : Nat) : Option Nat := (s.parts.find? (fun q => q.2.tileMask.getLsbD t)).map Prod.fst
/-- A tile's index within its partition (R125). -/
def tileIndex (x : Part) (t : Nat) : Nat := ((maskTiles x.tileMask).filter (fun i => decide (i < t))).length
/-- Apply a change to every tile of a partition. -/
def modTiles (s : State) (ts : List Nat) (f : Tile → Tile) : State := ts.foldl (fun s t => modTile s t f) s

/-- Functions: 0 the PF, k the VF k (R283). -/
def getFunc (s : State) (f : Nat) : Func := tabGetD s.funcs f {}
def modFunc (s : State) (f : Nat) (g : Func → Func) : State := { s with funcs := tabModify s.funcs f {} g }

/-- Log an access error of a function in ERR_ACCESS (R292); OVERFLOW is cleared by the host alone. -/
def errAccess (s : State) (fn kind bar off : Nat) : State :=
  modFunc s fn (fun x =>
    if bit x.errAccess 63 then { x with errAccess := setBit x.errAccess 62 true }
    else { x with errAccess :=
      BitVec.ofNat 64 (2 ^ 63 + (if bit x.errAccess 62 then 2 ^ 62 else 0) + kind * 2 ^ 52 + bar * 2 ^ 50 + off % 2 ^ 40) })

/-- Ones among the low `n` bits. -/
def onesOf {w : Nat} (b : BitVec w) : Nat := ((List.range w).filter (fun i => b.getLsbD i)).length

/-- `n` little-endian 32-bit words from byte `a` on. -/
def memWords (m : SMap 8) (a n : Nat) : List Word32 := (List.range n).map (fun i => BitVec.ofNat 32 (bytesToNat (readBytes m (a + 4 * i) 4)))
/-- Add to a device counter at its offset in the global status block. -/
def iodCtr (s : State) (off n : Nat) : State := { s with iod := { s.iod with ctrs := smSet s.iod.ctrs off (smGet s.iod.ctrs off + BitVec.ofNat 64 n) } }

/-- Something sent out. -/
def emit (s : State) (o : Out) : State := { s with out := s.out ++ [o] }
def emits (s : State) (l : List Out) : State := { s with out := s.out ++ l }

/-- Take a free value (log entry 3). -/
def takeFree (s : State) : BitVec 64 × State := (Config.freeValue s.free, { s with free := s.free + 1 })

/-- TIMEBASE as a number. -/
def now (s : State) : Nat := s.pwr.timebase.toNat

/-- Physical die and position of a logical tile (R54, R400 PHYSICAL). -/
def physOf (s : State) (t : Nat) : BitVec 16 :=
  BitVec.ofNat 16 ((t / 16) * 256 + (if (getTile s t).onSpare then 16 else t % 16))

/-- Write a fault-log record (R400); the log keeps 65 536 records and overwrites the oldest, which LOG_READ counts (R316). -/
def faultLog (s : State) (cls code part action unit : Nat) (phys : BitVec 16) (detail : BitVec 128) : State :=
  let steep : Nat := match getPart? s part with
    | some x => (smGet x.ctrs 0x138).toNat
    | none => 0
  let r : LogRec := { seq := s.logNext, time := s.pwr.timebase, cls := BitVec.ofNat 8 cls, code := BitVec.ofNat 8 code, part := BitVec.ofNat 8 part, action := BitVec.ofNat 8 action, unit := BitVec.ofNat 16 unit, physical := phys, interruption := 0, steep := BitVec.ofNat 32 (if part = 0xFF then 0 else steep), detail := detail }
  let s := { s with logNext := s.logNext + 1 }
  if s.log.length < 65536 then { s with log := s.log ++ [r] }
  else match s.log with
    | [] => { s with log := [r] }
    | o :: rest => { s with log := rest ++ [r], logLost := s.logLost ++ [(o.part.toNat, o.seq)] }

/-- Status codes (R317). -/
def stOK : BitVec 16 := 0x0000
def stACCEPTED : BitVec 16 := 0x0001
def stBUSY : BitVec 16 := 0x0100
def stNO_ENTRY : BitVec 16 := 0x0101
def stNO_PAGES : BitVec 16 := 0x0102
def stBAD_OPCODE : BitVec 16 := 0x0200
def stBAD_PARAM : BitVec 16 := 0x0201
def stNOT_PERMITTED : BitVec 16 := 0x0202
def stCANCELLED : BitVec 16 := 0x0300
def stPREEMPTED : BitVec 16 := 0x0301
def stDEADLINE : BitVec 16 := 0x0302
def stTOO_LATE : BitVec 16 := 0x0303
def stRETRYING : BitVec 16 := 0x0400
def stFAULT : BitVec 16 := 0x0401
def stCONFLICT : BitVec 16 := 0x0500
def stDEGRADED : BitVec 16 := 0x0501
def stTAKEN : BitVec 16 := 0x0502

/-- Rings by global number; 8192 + n is the partner's ring n, adopted (R386). LEVEL is fixed by the ring's number or index
(R295). -/
def getRing (s : State) (r : Nat) : Ring := if r < 8192 then tabGetD s.rings r {} else tabGetD s.pair.adopted (r - 8192) {}
def modRing (s : State) (r : Nat) (f : Ring → Ring) : State :=
  if r < 8192 then { s with rings := tabModify s.rings r {} f }
  else { s with pair := { s.pair with adopted := tabModify s.pair.adopted (r - 8192) {} f } }
def ringEnabled (x : Ring) : Bool := bit x.cfg 63
def ringIsCpl (x : Ring) : Bool := bit x.cfg 62
def ringSize (x : Ring) : Nat := 32 * 2 ^ bits x.cfg 58 56
/-- The partition that owns a ring, none for the PF's rings and for rings given to no partition. -/
def ringPart (s : State) (r : Nat) : Option Nat :=
  let r := r % 8192
  if r < 2 then none
  else (s.parts.find? (fun q => decide (q.2.ringBase ≤ r) && decide (r < q.2.ringBase + q.2.ringQuota))).map Prod.fst
/-- First ring of the function that owns ring `r`. -/
def ringOrigin (s : State) (r : Nat) : Nat :=
  match ringPart s r with
  | none => 0
  | some p => match getPart? s p with | some x => x.ringBase | none => 0
/-- 2 global, 1 partition, 0 tenant (R295). -/
def ringLevel (s : State) (r : Nat) : Nat := if r % 8192 < 2 then 2 else if r % 8192 - ringOrigin s r < 2 then 1 else 0
/-- The function a ring belongs to. -/
def ringFunc (s : State) (r : Nat) : Nat := match ringPart s r with | none => 0 | some p => p + 1
/-- The completion ring of a command (R303). -/
def cplRing (s : State) (r cls : Nat) : Nat :=
  let x := getRing s r
  (if r < 8192 then ringOrigin s r else 8192 + ringOrigin s (r - 8192)) + bits x.cfg 39 27 + cls % (bits x.cfg 43 40 + 1)

/-- The pair mirrors (R375), or exchanges its control state after solo (R382). -/
def mirroring (s : State) : Bool := s.pair.st = 2 || (s.pair.st = 3 && s.pair.frozen)
/-- Solo or STRANGER: completions carry DEGRADED (R374, R381). -/
def degraded (s : State) : Bool := s.pair.st = 3 || s.pair.st = 4

/-- Send a mirror delta when the pair mirrors; answers its number (R375). -/
def sendDelta (s : State) (d : Delta) : State × Option Nat :=
  if mirroring s then
    let n := s.pair.nextDelta
    (emit { s with pair := { s.pair with nextDelta := n + 1, sent := s.pair.sent ++ [(n, d)] } } (.delta n d), some n)
  else (s, none)
def mirror (s : State) (d : Delta) : State := (sendDelta s d).1

/-- Put a completion on a completion ring's waiting list, mirrored first on a bound pair (R303, R305, R376). -/
def enqueueCpl (s : State) (r : Nat) (c : Completion) : State :=
  let count := (getRing s r).tail + BitVec.ofNat 16 (getRing s r).waiting.length
  let (s, n) := sendDelta s (.completion r count c)
  modRing s r (fun x => { x with waiting := x.waiting ++ [(c, n)] })

/-- Post a completion of a command of ring `r` (R303, R309). -/
def postCpl (s : State) (r : Nat) (p : Packet) (status : BitVec 16) (final event : Bool) (detail : BitVec 4) (result : BitVec 128) : State :=
  enqueueCpl s (cplRing s r p.cls)
    { seq := p.seq, status := status, final := final, event := event, degraded := degraded s, detail := detail,
      handle := p.handle, result := result, int := p.int && final }

/-- NOPs of a ring that wait for nothing any more complete with OK (R321). -/
def settleNops (s : State) (r : Nat) : State :=
  let done := (getRing s r).nops.filter (fun q => q.2 = [])
  let s := modRing s r (fun x => { x with nops := x.nops.filter (fun q => q.2 ≠ []) })
  done.foldl (fun s q => postCpl s r q.1 stOK true false 0 0) s
/-- The command's firmware outstanding mark is removed when its final completion is posted (R321). -/
def commandDone (s : State) (r : Nat) (seq : BitVec 32) : State :=
  settleNops (modRing s r (fun x => { x with outstanding := x.outstanding.erase seq, nops := x.nops.map (fun q => (q.1, q.2.erase seq)) })) r

/-- Final completion. -/
def finish (s : State) (r : Nat) (p : Packet) (status : BitVec 16) (result : BitVec 128) : State :=
  commandDone (postCpl s r p status true false 0 result) r p.seq

/-- BAD_PARAM names the first failing field in RESULT byte 16 (R309). -/
def badParam (s : State) (r : Nat) (p : Packet) (field : Nat) : State := finish s r p stBAD_PARAM (BitVec.ofNat 128 field)
def notPermitted (s : State) (r : Nat) (p : Packet) : State := finish s r p stNOT_PERMITTED 0

/-- Bytes of RESULT: value `v` at packet byte `off` (16-31). -/
def resAt (off v : Nat) : Nat := v <<< (8 * (off - 16))

/-- Request table. -/
def getEntry? (s : State) (i : Nat) : Option Entry := tabGet? i s.table
def setEntry (s : State) (i : Nat) (e : Entry) : State := { s with table := tabInsert i e s.table }
def modEntry (s : State) (i : Nat) (f : Entry → Entry) : State :=
  match getEntry? s i with
  | none => s
  | some e => setEntry s i (f e)
/-- An entry changes and the change is mirrored (R375). -/
def setEntryM (s : State) (i : Nat) (e : Entry) : State := mirror (setEntry s i e) (.request i e.st e.f)
def modEntryM (s : State) (i : Nat) (f : Entry → Entry) : State :=
  match getEntry? s i with
  | none => s
  | some e => setEntryM s i (f e)
def entryPart (e : Entry) : Nat := e.f.partition.toNat
/-- Table index of a handle in a partition (R232). -/
def findHandle (s : State) (p : Nat) (h : BitVec 64) : Option Nat :=
  (s.table.find? (fun q => decide (entryPart q.2 = p) && decide (q.2.f.handle = h))).map Prod.fst
/-- A handle in use: an entry, or an adopted request still waiting for one (R232, R384). -/
def handleInUse (s : State) (p : Nat) (h : BitVec 64) : Bool :=
  (findHandle s p h).isSome || s.pair.waitingEntries.any (fun q => decide (q.2.partition.toNat = p) && decide (q.2.handle = h))
def entriesOf (s : State) (p : Nat) : List (Nat × Entry) := s.table.filter (fun q => decide (entryPart q.2 = p))
/-- The lowest FREE table entry (R230). -/
def firstGap {α : Type} : Nat → List (Nat × α) → Nat
  | i, [] => i
  | i, (j, _) :: r => if i < j then i else firstGap (i + 1) r
def freeEntry (s : State) : Option Nat :=
  let i := firstGap 0 s.table
  if i < Config.tableEntries then some i else none

/-- An entry for fields alone (R384). -/
def entryFrom (st : ReqState) (f : ReqFields) (adopted confirmed : Bool) : Entry :=
  { st := st, f := f, pages := [], statePages := 0, confirmed := confirmed, pauseAsked := [], preempted := false, tokens := [], block := none,
    emitted := [], base := 0, d := 0, rounds := 0, stop := 0, roundOut := false, newt := none, proposals := [], samples := [], computed := f.nextPos.toNat,
    late := none, gathered := [], outBytes := [], resultDue := false, finalPosted := false, adopted := adopted }

/-- Packet of a request's own completions: SEQ, HANDLE, FLAGS and CLASS of the submission (R309). -/
def reqPacket (f : ReqFields) : Packet :=
  { flags := f.cmdFlags, tenantClass := BitVec.ofNat 16 (f.cls.toNat * 4096 + f.tenant.toNat), seq := f.seq, handle := f.handle, params := 0 }
/-- The submission ring of a request, by the model's number. -/
def reqRing (e : Entry) : Nat := if e.adopted then 8192 + e.f.ring.toNat else e.f.ring.toNat
/-- Post a completion of a request. -/
def postReq (s : State) (e : Entry) (status : BitVec 16) (final event : Bool) (detail : BitVec 4) (result : BitVec 128) : State :=
  let s := postCpl s (reqRing e) (reqPacket e.f) status final event detail result
  if final then commandDone s (reqRing e) e.f.seq else s
/-- Event completions are posted only where FLAGS.EVENTS asked for them (R310). -/
def postEvent (s : State) (e : Entry) (status : BitVec 16) : State :=
  if e.f.cmdFlags.getLsbD 0 then postReq s e status false true 0 0 else s
/-- Record a delay cause (R248). -/
def delayed (e : Entry) (code : BitVec 4) : Entry := { e with f := { e.f with delay := code } }

/-- The pin a request names, in the partition. -/
def pinOf (x : Part) (f : ReqFields) : Option Pin := if f.pin.getLsbD 14 then tabGet? (f.pin.toNat % 2 ^ 14) x.pins else none
/-- Where a run starts: the end of its pinned prefix, or 0 (R251, R253; an adopted request whose pin is lacking runs
from 0, R384). -/
def startPos (x : Part) (f : ReqFields) : Nat := match pinOf x f with | some q => q.length | none => 0

/-- Tiles in service of a partition, P (R10). -/
def tileCount (x : Part) : Nat := (maskTiles x.tileMask).length
/-- ROWS of a partition whose composition or run is bound to a group that is not ACTIVE (R360). -/
def groupsOf (s : State) (p : Nat) : List (Nat × Group) := s.fab.groups.filter (fun g => decide (g.2.part = p))
/-- Whether the image's groups allow a steep to be released (R360). -/
def groupsReady (s : State) (p : Nat) : Bool :=
  match (getPart? s p).bind (·.image) with
  | some img => img.collMembers.isNone || ((groupsOf s p) ≠ [] && (groupsOf s p).all (fun g => g.2.st = .active))
  | none => true
/-- Rank of a partition whose image declares groups; none otherwise. -/
def groupRank (s : State) (p : Nat) : Option Nat := match groupsOf s p with | (_, g) :: _ => some g.rank | [] => none

/-- A power-state level of the device: not asleep (R408). -/
def deviceUp (s : State) : Bool := s.ready && s.pwr.dev = 0

end Sys2Proof.Machine
end

