-- ==== Sys2Proof/Machine/Newt.lean ====
section
/-! DEFINITION. Newt.lean: the generator, distributions, sampling, the acceptance rule and stop detection
(R266-R274). -/

namespace Sys2Proof.Machine

open Sys2Proof

/-- Fields of a parameter block (R266): `n` bytes at byte `off`. -/
def blkLE (b : BitVec 2048) (off n : Nat) : Nat := (b.toNat >>> (8 * off)) % 2 ^ (8 * n)
def blkTemp (b : BitVec 2048) : Word32 := BitVec.ofNat 32 (blkLE b 0 4)
def blkTopP (b : BitVec 2048) : Word32 := BitVec.ofNat 32 (blkLE b 4 4)
def blkTopK (b : BitVec 2048) : Nat := blkLE b 8 2
def blkNTok (b : BitVec 2048) : Nat := blkLE b 10 1
def blkNSeq (b : BitVec 2048) : Nat := blkLE b 11 1
def blkSeqLen (b : BitVec 2048) (i : Nat) : Nat := blkLE b (12 + i) 1
def blkStopTok (b : BitVec 2048) (i : Nat) : Nat := blkLE b (16 + 4 * i) 4
def blkSeqTok (b : BitVec 2048) (i j : Nat) : Nat := blkLE b (80 + 32 * i + 4 * j) 4

/-- A parameter block obeys R266. -/
def blockOk (b : BitVec 2048) (vocab : Nat) : Bool :=
  let t := blkTemp b
  let p := blkTopP b
  (t.setWidth 31 = (0 : BitVec 31) || (!isNan t && !isInf t && !signBit t)) &&
  (flt 0 p && !flt one32 p && !isNan p) && decide (blkTopK b ≤ 1024) && decide (blkNTok b ≤ 16) && decide (blkNSeq b ≤ 4) &&
  (List.range 4).all (fun i => if i < blkNSeq b then decide (1 ≤ blkSeqLen b i) && decide (blkSeqLen b i ≤ 8) else blkSeqLen b i = 0) &&
  (List.range (blkNTok b)).all (fun i => decide (blkStopTok b i < vocab)) &&
  (List.range (blkNSeq b)).all (fun i => (List.range (blkSeqLen b i)).all (fun j => decide (blkSeqTok b i j < vocab))) &&
  decide (blkLE b 208 1 ≤ 8) && blkLE b 209 47 = 0

/-- One of the four rounds of the generator (R268). -/
def drawMix (c : BitVec 64) (x : BitVec 64) (i : Nat) : BitVec 64 :=
  let x := x + c + BitVec.ofNat 64 i * 0x9E3779B97F4A7C15
  let x := (x ^^^ (x >>> 30)) * 0xBF58476D1CE4E5B9
  let x := (x ^^^ (x >>> 27)) * 0x94D049BB133111EB
  x ^^^ (x >>> 31)
/-- draw: the 24-bit value U (R268). -/
def draw (seed : BitVec 64) (pos didx purpose : Nat) : Nat :=
  let c := BitVec.ofNat 64 (pos + didx * 2 ^ 21 + purpose * 2 ^ 25)
  let x := [1, 2, 3, 4].foldl (drawMix c) (seed ^^^ 0x6A09E667F3BCC909)
  (x >>> 40).toNat
/-- u = U × 2^-24 as FP32, exactly (R268). -/
def uOf (u : Nat) : Word32 := toF32 (.fin false u (-24))

/-- A distribution: kept tokens in C order, weights by token, their sum (R269). -/
structure Distr where
  c : List Nat
  w : List Word32
  sum : Word32
  deriving DecidableEq, Repr
/-- Weight of a token. -/
def Distr.weight (d : Distr) (i : Nat) : Word32 := d.w.getD i 0

/-- NaN logits are taken as −∞ (R234, R269). -/
def cleanLogits (l : List Word32) : List Word32 := l.map (fun x => if isNan x then ninf32 else x)
/-- Sequential sum from +0. -/
def seqSum (l : List Word32) : Word32 := l.foldl fadd 0
/-- The shortest prefix of C whose weights reach t, all of C if none does (R269 TOP_P). -/
def nucleus (w : List Word32) (t : Word32) : Word32 → List Nat → List Nat
  | _, [] => []
  | acc, j :: r => let a := fadd acc (w.getD j 0); if fge a t then [j] else j :: nucleus w t a r
/-- prepare (R269). -/
def prepare (temp topP : Word32) (topK : Nat) (logits : List Word32) : Distr :=
  let z := (cleanLogits logits).map (fun x => fdiv x temp)
  let key := fun (i : Nat) => z.getD i ninf32
  let order := sortBy (fun a b => flt (key b) (key a) || (!flt (key a) (key b) && decide (a ≤ b))) (List.range z.length)
  let c := if 0 < topK then order.take topK else order
  let m := key (c.headD 0)
  let w := if m = pinf32 then z.map (fun x => if x = pinf32 then one32 else 0)
    else if m = ninf32 then (List.range z.length).map (fun i => if i = c.headD 0 then one32 else 0)
    else z.map (fun x => exp2Ref (fmul (fsub x m) log2e32))
  let c := if m = ninf32 then c.take 1 else c
  let c := if flt topP one32 then nucleus w (fmul topP (seqSum (c.map (fun i => w.getD i 0)))) 0 c else c
  { c := c, w := (List.range z.length).map (fun i => if c.contains i then w.getD i 0 else 0), sum := seqSum (c.map (fun i => w.getD i 0)) }

/-- The first token whose running weight exceeds t; the last one if none does. -/
def pickOver (w : Nat → Word32) (t : Word32) : Word32 → List Nat → Nat → Nat
  | _, [], last => last
  | acc, j :: r, _ => let a := fadd acc (w j); if flt t a then j else pickOver w t a r j
/-- sample (R269). -/
def sampleOf (d : Distr) (u : Nat) : Nat := pickOver d.weight (fmul (uOf u) d.sum) 0 d.c 0
/-- The largest logit, ties to the lower token, NaN as −∞ (R269, TEMP of zero). -/
def greedy (logits : List Word32) : Nat :=
  let l := cleanLogits logits
  (List.range l.length).foldl (fun b i => if flt (l.getD b ninf32) (l.getD i ninf32) then i else b) 0

/-- The acceptance rule (R271): the token, and whether the proposal was accepted. -/
def decideAt (p q : Distr) (seed : BitVec 64) (x y : Nat) : Nat × Bool :=
  let a := fmul (p.weight y) q.sum
  let b := fmul (q.weight y) p.sum
  if flt (fmul (uOf (draw seed x 0 3)) b) a then (y, true)
  else
    let asc := sortBy (fun a b => decide (a ≤ b)) p.c
    let r := fun (i : Nat) => fmax 0 (fsub (fmul (p.weight i) q.sum) (fmul (q.weight i) p.sum))
    let sum := seqSum (asc.map r)
    if sum = 0 then (sampleOf p (draw seed x 0 4), false)
    else
      let last := ((asc.filter (fun i => flt 0 (r i))).getLast?).getD 0
      (match asc.find? (fun i => flt (fmul (uOf (draw seed x 0 4)) sum) (seqSum ((asc.filter (fun j => decide (j ≤ i))).map r))) with
       | some i => i
       | none => last, false)

/-- Zero temperature, +0 or −0 (R266). -/
def coldTemp (b : BitVec 2048) : Bool := (blkTemp b).setWidth 31 = (0 : BitVec 31)
/-- A token from one distribution with a purpose's draw (R269). -/
def sampleLogits (b : BitVec 2048) (seed : BitVec 64) (x didx purpose : Nat) (l : List Word32) : Nat :=
  if coldTemp b then greedy l else sampleOf (prepare (blkTemp b) (blkTopP b) (blkTopK b) l) (draw seed x didx purpose)
/-- The draft model's logits for the position after these tokens: its window is W_d tokens (R265). -/
def draftAt (img : Image) (toks : List Word32) : List Word32 :=
  Config.draftLogits img.measurement (toks.drop (toks.length - (match img.draft with | some d => d.window | none => 0)))
/-- The draft's proposal for the position after these tokens (R270). -/
def propose (img : Image) (b : BitVec 2048) (seed : BitVec 64) (toks : List Word32) : Nat :=
  sampleLogits b seed toks.length 1 2 (draftAt img toks)
/-- `d` proposals one after another (R270). -/
def proposals (img : Image) (b : BitVec 2048) (seed : BitVec 64) : Nat → List Word32 → List Word32
  | 0, _ => []
  | d + 1, toks =>
    let y := BitVec.ofNat 32 (propose img b seed toks)
    y :: proposals img b seed d (toks ++ [y])

/-- The token decided at a position, and whether its proposal was accepted (R271). `toks` is every token before it. -/
def decideTok (img : Image) (b : BitVec 2048) (seed : BitVec 64) (toks : List Word32) (y : Nat) (l : List Word32) : Nat × Bool :=
  let x := toks.length
  if img.draft.isNone then (sampleLogits b seed x 0 1 l, false)
  else if coldTemp b then (greedy l, decide (greedy l = y))
  else decideAt (prepare (blkTemp b) (blkTopP b) (blkTopK b) l) (prepare (blkTemp b) (blkTopP b) (blkTopK b) (draftAt img toks)) seed x y

/-- Stop detection after an emitted token (R274): 0 goes on. -/
def stopCode (img : Image) (f : ReqFields) (b : BitVec 2048) (emitted : List Word32) : BitVec 8 :=
  let tok := (emitted.getLastD 0).toNat
  if (List.range (blkNTok b)).any (fun i => blkStopTok b i = tok) then 2
  else match (List.range (blkNSeq b)).find? (fun i =>
      let n := blkSeqLen b i
      decide (n ≤ emitted.length) && (emitted.drop (emitted.length - n)).map (·.toNat) = (List.range n).map (blkSeqTok b i)) with
    | some i => BitVec.ofNat 8 (3 + i)
    | none =>
      if emitted.length = f.maxNew.toNat then 1
      else if img.contextMax ≤ f.length.toNat + emitted.length then 7 else 0

/-- A round's decisions (R270, R273): emitted tokens, the stop code, proposals accepted. -/
def decideRound (img : Image) (f : ReqFields) (b : BitVec 2048) (prompt : List Word32) :
    List (List Word32) → List Word32 → List Word32 → Nat → List Word32 × BitVec 8 × Nat
  | [], _, emitted, k => (emitted, 0, k)
  | l :: rest, props, emitted, k =>
    let toks := prompt ++ emitted
    let y := match props with | y :: _ => y.toNat | [] => if img.draft.isSome then propose img b f.seed toks else 0
    let (tok, ok) := decideTok img b f.seed toks y l
    let emitted := emitted ++ [BitVec.ofNat 32 tok]
    let k := k + b2n ok
    let stop := stopCode img f b emitted
    if stop ≠ 0 then (emitted, stop, k)
    else if !ok then (emitted, 0, k)
    else decideRound img f b prompt rest (props.drop 1) emitted k

/-- Mean pooling divides the ascending sum once (R233; DESIGN CHOICE, log entry 29). -/
def poolAdd (acc v : List Word32) : List Word32 := if acc = [] then v else (acc.zip v).map (fun q => fadd q.1 q.2)
/-- The pooled vector's bytes in the image's format (R342). -/
def packBits (w : Nat) (l : List Nat) : List Byte :=
  natToBytes ((l.length * w + 7) / 8) (l.foldr (fun x a => x % 2 ^ w + a * 2 ^ w) 0)
def blocksOf32 : Nat → List Word32 → List (List Word32)
  | 0, _ => []
  | n + 1, l => (l.take 32 ++ List.replicate (32 - (l.take 32).length) 0) :: blocksOf32 n (l.drop 32)
def vectorBytes (fmt : Nat) (v : List Word32) : List Byte :=
  if fmt = 8 then v.flatMap (fun x => natToBytes 4 x.toNat)
  else if isMx fmt then
    let q := (blocksOf32 ((v.length + 31) / 32) v).map (fun b => mxQuantise fmt (b.map ofF32))
    let el := (q.flatMap (·.2))
    packBits (elemBits fmt) (el.mapIdx (fun i x => if i < v.length then x else 0)) ++ q.map (·.1)
  else v.flatMap (fun x => natToBytes 2 ((fmtOf fmt).encode (ofF32 x)))

end Sys2Proof.Machine
end

