-- ==== Sys2Proof/Machine/Compose.lean ====
section
/-! DEFINITION. Compose.lean: promotion, composition of a steep, pages, preemption and idle composition
(R8-R12, R241-R250, R275, R360). -/

namespace Sys2Proof.Machine

open Sys2Proof

/-- Pages that hold `n` positions (R245). -/
def kvPages (img : Image) (n : Nat) : Nat := ceilDiv (n * img.kvBytes) 262144
/-- State pages of a request (R245). -/
def statePagesOf (img : Image) : Nat := ceilDiv img.stateBytes 262144
/-- Pages one request of a length needs in all (R235 check 7, R472). -/
def totalPages (img : Image) (len : Nat) : Nat := ceilDiv (len * img.kvBytes + img.stateBytes) 262144

/-- Priority, deadline (0 last), admission, index (R241, R247). -/
def orderLe (a b : Nat × Entry) (prio : Bool) : Bool :=
  let dl := fun (e : Entry) => if e.f.deadline = 0 then 2 ^ 64 else e.f.deadline.toNat
  let key := fun (q : Nat × Entry) => (((if prio then q.2.f.effPrio.toNat else 0) * 2 ^ 65 + dl q.2) * 2 ^ 64 + q.2.f.admitAt.toNat) * 2 ^ 16 + q.1
  decide (key a ≤ key b)

/-- Prompt positions left to place (R241). -/
def wantOf (e : Entry) : Nat := e.f.length.toNat - e.f.nextPos.toNat

/-- A PAUSE accepted before the composition point of steep `n` is out (R9). -/
def pausing (e : Entry) (n : Nat) : Bool := e.pauseAsked.any (fun q => decide (q.2.2 ≤ n))

/-- A request whose head start is due rows at a composition (R17, R237): in HEADSTART, or its last prompt row rides the
running steep and MAX_NEW ≥ 2. -/
def headDue (e : Entry) : Bool :=
  e.st = .headstart || (e.st = .steeping && e.f.nextPos = e.f.length && e.f.kind = 0 && decide (2 ≤ e.f.maxNew.toNat) && !e.f.isPin)

/-- The prompt rows of a request are eligible for a composition (R8). -/
def promptDue (e : Entry) : Bool := (e.st = .queued || e.st = .steeping) && e.confirmed && !e.preempted

/-- DRAFT_MAX of a parameter block (R266). -/
def blockDraftMax (b : BitVec 2048) : Nat := (b.toNat >>> (8 * 208)) % 256

/-- Base position of the next round as far as it is known at a composition: while a round runs, the furthest it can end
(log entry 16). -/
def headBase (e : Entry) : Nat :=
  if e.emitted = [] then e.f.length.toNat
  else if e.roundOut then e.base + e.d + 1 else e.base

/-- Draft length at a composition (R275), with N and the base known then (log entry 16). -/
def draftLen (s : State) (img : Image) (e : Entry) : Nat :=
  match img.draft with
  | none => 0
  | some dm =>
    let n := max 1 e.emitted.length
    let b := if e.emitted = [] then e.f.length.toNat else e.base
    min (min (min (blockDraftMax (e.block.getD 0)) dm.draftMax) s.iod.draftLimit)
      (min (e.f.maxNew.toNat - n - 1) (img.contextMax - 1 - b))

/-- Promotion of one request at a composition point (R249): new fields, and the steps taken. -/
def promote (nowNs promoUs rows lastT : Nat) (f : ReqFields) : ReqFields × Nat :=
  let eff := fun (st : Nat) => BitVec.ofNat 3 (max 1 (f.basePrio.toNat - st))
  if f.deadline = 0 then ({ f with effPrio := eff 0 }, 0)
  else if promoUs = 0 then ({ f with effPrio := eff f.steps }, 0)
  else
    let slack : Int := (f.deadline.toNat : Int) - nowNs - (ceilDiv (f.length.toNat - f.nextPos.toNat) rows * lastT : Nat)
    let start := if f.promoStart ≠ 0 then f.promoStart.toNat
      else if slack < (promoUs * 1000 : Nat) then max nowNs 1 else 0
    if start = 0 then ({ f with effPrio := eff 0 }, 0)
    else
      let st := max f.steps (1 + (nowNs - start) / (promoUs * 1000))
      ({ f with promoStart := BitVec.ofNat 64 start, steps := st, effPrio := eff st }, st - f.steps)

/-- Promotion of every QUEUED and STEEPING request of a partition (R249); PART_PROMOTIONS counts the steps (R261). -/
def promoteAll (s : State) (p : Nat) (x : Part) : State :=
  (entriesOf s p).foldl (fun s q =>
    if q.2.st = .queued || q.2.st = .steeping then
      let (f, k) := promote (now s) (bits x.schedCfg 31 0) (tileCount x * x.lastRpt) x.lastT q.2.f
      let s := if f = q.2.f then s else setEntryM s q.1 { q.2 with f := f }
      partCtr s p 0x158 k
    else s) s

/-- RPT values of a 4-bit mask, ascending (R241, R259). -/
def rptChoices (m : Nat) : List Nat := [128, 256, 384, 512].filter (fun r => decide ((m >>> (r / 128 - 1)) % 2 = 1))
/-- The RPT a composition takes (R241), PART_SCHED_CFG as the composition point found it (R259). -/
def pickRpt (x : Part) (cfg : Word64) (img : Image) (wants : Nat) : Nat :=
  let both := img.rptMask.toNat &&& bits cfg 39 36
  let l := rptChoices (if both = 0 then img.rptMask.toNat else both)
  match l.find? (fun r => decide (wants ≤ tileCount x * r)) with
  | some r => r
  | none => l.getLastD 128

/-- What a composition has built so far. -/
structure Comp where
  s : State
  used : Nat
  rows : List Placement
  pool : List Nat
  undo : List Undo
  short : List (Nat × Nat)

/-- Pages beyond those held that positions below `hi` need (R245). -/
def pagesShort (img : Image) (e : Entry) (hi : Nat) : Nat :=
  kvPages img hi + statePagesOf img - e.pages.length

/-- Free pages as the lockstep counts of a group limit them (R360). -/
def poolLimit (x : Part) (free : Nat) : Nat := x.counts.foldl (fun a q => min a q.2) free

/-- The largest j ≤ k whose positions the pages cover (R241, R245). -/
def largestFit (img : Image) (e : Entry) (free : Nat) : Nat → Nat
  | 0 => 0
  | k + 1 => if pagesShort img e (e.f.nextPos.toNat + (k + 1)) ≤ free then k + 1 else largestFit img e free k

/-- Give an entry the pages that positions below `hi` need, lowest page numbers first (log entry 18). -/
def takePages (img : Image) (e : Entry) (hi : Nat) (pool : List Nat) : Entry × List Nat :=
  let k := pagesShort img e hi
  ({ e with pages := e.pages ++ pool.take k, statePages := statePagesOf img }, pool.drop k)

/-- An entry as it stands before a placement. -/
def undoOf (i : Nat) (e : Entry) (head : Bool) : Undo :=
  { entry := i, head := head, nextPos := e.f.nextPos.toNat, pages := e.pages.length, statePages := e.statePages, queued := e.st = .queued, newt := e.newt, delay := e.f.delay }

/-- Place the head-start rows of one request, of the base and draft length frozen for it (R17, R241). -/
def placeHead (img : Image) (cap : Nat) (x : Part) (c : Comp) (q : Nat × Nat × Nat) : Comp :=
  match getEntry? c.s q.1 with
  | none => c
  | some e =>
    let want := 1 + q.2.2
    let hi := min (q.2.1 + want) img.contextMax
    if want ≤ cap - c.used ∧ pagesShort img e hi ≤ poolLimit x c.pool.length then
      let (e', pool) := takePages img e hi c.pool
      { c with s := setEntryM c.s q.1 e', used := c.used + want, pool := pool, undo := c.undo ++ [undoOf q.1 e true]
               rows := c.rows ++ [{ entry := q.1, first := c.used, count := want, pos := q.2.1, head := true, d := q.2.2, dead := false, filled := false, tokens := [] }] }
    else c

/-- The newt with the fewest assigned requests among the live ones, the lower number on a tie (R264). -/
def pickNewt (s : State) : Option Nat :=
  let live := (List.range 8).filter (fun n => !s.iod.newtsLost.getLsbD n)
  let load := fun n => (s.table.filter (fun q => q.2.newt = some n)).length
  live.foldl (fun a n => match a with | none => some n | some b => if load n < load b then some n else a) none

/-- Place prompt rows of one request (R241), with the delay causes 0x2 and 0x3 (R248) and its shortfall. -/
def placePrompt (img : Image) (cap : Nat) (x : Part) (c : Comp) (i : Nat) : Comp :=
  match getEntry? c.s i with
  | none => c
  | some e =>
    let want := wantOf e
    let k := min want (cap - c.used)
    let free := poolLimit x c.pool.length
    let j := largestFit img e free k
    let u := undoOf i e false
    let short := if j < k then c.short ++ [(i, pagesShort img e (e.f.nextPos.toNat + k) - free)] else c.short
    let e := if j < k then delayed e 3 else if k < want ∧ 0 < c.used then delayed e 2 else e
    if j = 0 then { c with s := if want = 0 then c.s else setEntryM c.s i e, short := short, undo := if want = 0 then c.undo else c.undo ++ [u] }
    else
      let old := e.f.nextPos.toNat
      let (e, pool) := takePages img e (old + j) c.pool
      let newt := if old + j = e.f.length.toNat ∧ e.f.kind = 0 ∧ 1 ≤ e.f.maxNew.toNat ∧ e.f.isPin = false then pickNewt c.s else e.newt
      let e := { e with st := .steeping, newt := newt, f := { e.f with nextPos := BitVec.ofNat 21 (old + j) } }
      { c with s := setEntryM c.s i e, used := c.used + j, pool := pool, short := short, undo := c.undo ++ [u]
               rows := c.rows ++ [{ entry := i, first := c.used, count := j, pos := old, head := false, d := 0, dead := false, filled := true, tokens := [] }] }

/-- Requests that may be preempted for one short request (R246), in reverse composition order. -/
def preemptable (s : State) (p : Nat) (cfg : Word64) (rows : List Placement) (marks : List Nat) (prio : Nat) : List (Nat × Entry) :=
  (sortBy (fun a b => orderLe b a true) (entriesOf s p)).filter (fun q =>
    q.2.st = .steeping && decide (prio < q.2.f.effPrio.toNat) && !(rows.any (fun r => decide (r.entry = q.1)))
    && decide (q.2.f.nextPos ≠ q.2.f.length) && decide (q.2.f.pauses.toNat < bits cfg 47 40) && !(marks.contains q.1))

/-- Take candidates until their pages cover a shortfall; none when all together cannot (R246). -/
def coverShort : List (Nat × Entry) → Nat → List Nat → Option (List Nat)
  | _, 0, acc => some acc
  | [], _ + 1, _ => none
  | (i, e) :: r, n + 1, acc => coverShort r (n + 1 - e.pages.length) (acc ++ [i])

/-- Marks for the recorded shortfalls, in composition order (R246). -/
def marksFor (s : State) (p : Nat) (cfg : Word64) (rows : List Placement) (short : List (Nat × Nat)) : List Nat :=
  short.foldl (fun marks q =>
    match getEntry? s q.1 with
    | none => marks
    | some e =>
      match coverShort (preemptable s p cfg rows marks e.f.effPrio.toNat) q.2 [] with
      | none => marks
      | some l => marks ++ l) []

/-- A pour that is still due reads these pages (R245). -/
def poursRead (x : Part) (pages : List Nat) : Bool :=
  x.targets.any (fun q => q.2.queue.any (fun j => decide (j.pages ≠ []) && j.pages.head? = pages.head?))
/-- Something a composition waited for has come (R12, R242). -/
def stirPart (s : State) (p : Nat) : State := modPart s p (fun x => { x with stir := true })
/-- Pages go back to a partition, free from the next composition point, once the last pour has read them (R245). -/
def returnList (x : Part) (l : List Nat) : Part :=
  if l = [] then x
  else if poursRead x l then { x with lent := x.lent ++ [l] } else { x with returned := x.returned ++ l, stir := true }
def returnPages (s : State) (p : Nat) (e : Entry) : State := modPart s p (fun x => returnList x e.pages)
/-- Pages whose last pour has read them are returned (R245). -/
def settleLent (s : State) (p : Nat) : State :=
  modPart s p (fun x => { x with returned := x.returned ++ ((x.lent.filter (fun l => !poursRead x l)).flatMap id), lent := x.lent.filter (poursRead x),
                                 stir := x.stir || x.lent.any (fun l => !poursRead x l) })

/-- Chunks of a request's prompt (R235). -/
def chunkLen (f : ReqFields) : Nat := f.chunk.toNat * 128
def promptChunks (f : ReqFields) : Nat := ceilDiv f.length.toNat (chunkLen f)
/-- Change the chunks of an entry that wait for sampling (R15). -/
def modWaiting (s : State) (p i : Nat) (g : PourJob → PourJob) : State :=
  modPart s p (fun x => { x with targets := x.targets.map (fun q => (q.1, { q.2 with queue := q.2.queue.map (fun j => if j.entry = i ∧ j.wait then g j else j) })) })
/-- The first token of a run from its row of logits, and its stop code (R269, R274). -/
def firstToken (img : Image) (f : ReqFields) (b : BitVec 2048) (logits : List Word32) : Word32 × BitVec 8 :=
  let tok := BitVec.ofNat 32 (sampleLogits b f.seed f.length.toNat 0 1 logits)
  (tok, stopCode img f b [tok])
/-- A request leaves a run whose first token is not sampled yet: the newt still samples it for the chunks of the steep that stands,
which pour (R15, R18). -/
def sampleLeft (s : State) (p i : Nat) : State :=
  match getEntry? s i, getPart? s p with
  | some e, some x => match x.image, e.samples, e.block with
    | some img, .first buf :: _, some b =>
      let (tok, stop) := firstToken img e.f b (memWords x.mem buf img.vocab)
      modWaiting s p i (fun j => { j with wait := false, final := if stop ≠ 0 ∧ j.chunk + 1 = promptChunks e.f then some ([tok], stop) else none })
    | _, _, _ => s
  | _, _ => s

/-- Back to QUEUED for a new run (R237, R251). -/
def requeue (x : Part) (e : Entry) : Entry :=
  { e with st := .queued, pages := [], statePages := 0, preempted := false, tokens := [], block := none, emitted := [], base := 0, d := 0, rounds := 0, stop := 0, newt := none, proposals := [], samples := [], gathered := [], roundOut := false, computed := startPos x e.f, outBytes := [], resultDue := false, f := { e.f with nextPos := BitVec.ofNat 21 (startPos x e.f) } }

/-- A marked request is preempted (R237, R246). -/
def preemptNow (s : State) (p i : Nat) : State :=
  match getEntry? s i, getPart? s p with
  | some e, some x =>
    let s := stirPart (returnPages s p e) p
    let e := delayed { requeue x e with f := { (requeue x e).f with pauses := if e.f.pauses = 255 then 255 else e.f.pauses + 1, lastEvent := stPREEMPTED } } 4
    partCtr (postEvent (setEntryM s i e) e stPREEMPTED) p 0x150 1
  | _, _ => s

/-- Release one PAUSE's completions (R237, R310). -/
def finishPauses (s : State) (e : Entry) (status : BitVec 16) : State :=
  e.pauseAsked.foldl (fun s q => finish s q.1 q.2.1 status 0) s

/-- A request becomes PAUSED (R237, R251): pages back, NEXT_POS to the start, its PAUSE completes. -/
def pauseNow (s : State) (p i : Nat) : State :=
  match getEntry? s i, getPart? s p with
  | some e, some x =>
    let s := returnPages (sampleLeft s p i) p e
    let e' := delayed { requeue x e with st := .paused, pauseAsked := [] } 5
    finishPauses (setEntryM s i e') e stOK
  | _, _ => s

/-- QUEUED requests whose PAUSE is out become PAUSED at the composition point (R237). -/
def pauseQueued (s : State) (p n : Nat) : State :=
  (entriesOf s p).foldl (fun s q => if q.2.st = .queued && pausing q.2 n then pauseNow s p q.1 else s) s

/-- What a composition point freezes (R9, R241): the eligible requests in their order, the base and draft length of each head start,
and PART_SCHED_CFG (R259). -/
def frozenSet (s : State) (p n : Nat) (x : Part) (img : Image) : Frozen :=
  let live := (entriesOf s p).filter (fun q => !pausing q.2 n)
  { heads := (sortBy (fun a b => orderLe a b false) (live.filter (fun q => headDue q.2))).map (fun q => (q.1, headBase q.2, draftLen s img q.2))
    prompts := (sortBy (fun a b => orderLe a b true) (live.filter (fun q => promptDue q.2))).map Prod.fst
    cfg := x.schedCfg }
/-- A frozen set without an entry. -/
def Frozen.without (z : Frozen) (i : Nat) : Frozen :=
  { z with heads := z.heads.filter (fun q => decide (q.1 ≠ i)), prompts := z.prompts.filter (fun j => decide (j ≠ i)) }

/-- The placements of a composition of steep n + 1 over a frozen set (R241). Marks take effect at once where nothing is placed and no
steep runs, else once the composition is done, or at B(n) (R237, R246). -/
def composeOver (s : State) (p n : Nat) (x : Part) (img : Image) (z : Frozen) (at_ : Nat) : State :=
  let wants := (z.heads.map (fun q => 1 + q.2.2)).sum + (z.prompts.map (fun i => match getEntry? s i with | some e => wantOf e | none => 0)).sum
  let rpt := pickRpt x z.cfg img wants
  let cap := tileCount x * rpt
  let c0 : Comp := { s := s, used := 0, rows := [], pool := x.pool, undo := [], short := [] }
  let c1 := z.heads.foldl (placeHead img cap x) c0
  let c2 := z.prompts.foldl (placePrompt img cap x) c1
  let marks := marksFor c2.s p z.cfg c2.rows c2.short
  let s := modPart c2.s p (fun y => { y with pool := c2.pool, freePages := BitVec.ofNat 32 c2.pool.length, counts := [], frozen := none, awaitCounts := false })
  let s := marks.foldl (fun s i => modEntry s i (fun e => { e with preempted := true })) s
  if c2.used = 0 then
    let s := partCtr (modPart s p (fun y => { y with next := none })) p 0x160 1
    if x.phase = .none then marks.foldl (fun s i => preemptNow s p i) s else s
  else modPart s p (fun y => { y with next := some { n := n + 1, rpt := rpt, tiles := maskTiles x.tileMask, rows := c2.rows, frozen := z, marks := marks, undo := c2.undo, frozenAt := at_, composed := false, released := 0 } })

/-- Whether anything is eligible for a composition (R12). -/
def anythingDue (s : State) (p n : Nat) : Bool :=
  (entriesOf s p).any (fun q => !pausing q.2 n && ((headDue q.2) || (promptDue q.2 && decide (0 < wantOf q.2))))

/-- The partition composes here: its image's groups are ready, and it is no member that follows its group's leader (R360). -/
def composesHere (s : State) (p : Nat) : Bool := (groupRank s p).getD 0 = 0 && groupsReady s p
/-- A composition point: returned pages become free (R245), EFF_PRIO is computed (R249), and the eligible set is frozen (R9). -/
def freeze (s : State) (p : Nat) : State :=
  match getPart? s p with
  | none => s
  | some x =>
    let s := pauseQueued s p x.steepNo
    let s := modPart s p (fun y => { y with pool := sortBy (fun a b => decide (a ≤ b)) (y.pool ++ y.returned), returned := [] })
    let s := promoteAll s p x
    match x.image, getPart? s p with
    | some img, some x => if composesHere s p then setPart s p { x with frozen := some (frozenSet s p x.steepNo x img), stir := false } else s
    | _, _ => s
/-- Compose over what the composition point froze (R241). -/
def composeFrozen (s : State) (p : Nat) : State :=
  match getPart? s p with
  | none => s
  | some x => match x.image, x.frozen with
    | some img, some z => composeOver s p x.steepNo x img z (now s)
    | _, _ => s
/-- Compose steep n + 1 of a partition at its composition point (R241). Rows of a member that is not its group's leader come from
the leader (R360). -/
def compose (s : State) (p : Nat) : State := composeFrozen (freeze s p) p

/-- With no steep running or composed, and something eligible that came since the last composition or pages that were freed since, the
engine composes at once (R12, R242); again, where a composition placed nothing and freed pages. -/
def idleLoop : Nat → State → Nat → State
  | 0, s, _ => s
  | k + 1, s, p =>
    match getPart? s p with
    | none => s
    | some x =>
      if x.phase = .none && x.next.isNone && x.frozen.isNone && x.stir && x.image.isSome && s.ready && composesHere s p && anythingDue s p x.steepNo then
        idleLoop k (compose s p) p
      else s
/-- Each pass but the last preempts a request, and a request at most 255 times (R250). -/
def idleCompose (s : State) (p : Nat) : State := idleLoop ((entriesOf s p).length * 256 + 1) s p

/-- One entry's part of a composition is undone: placement, NEXT_POS, newt. With `full` it also returns to QUEUED where it came from
there, and the pages it took go back to the pool. -/
def undoOne (full : Bool) (p : Nat) (s : State) (u : Undo) : State :=
  match getEntry? s u.entry with
  | none => s
  | some e =>
    let e := if u.head ∨ e.f.nextPos.toNat ≤ u.nextPos then e
      else { e with tokens := e.tokens.take u.nextPos, block := none, newt := u.newt, f := { e.f with nextPos := BitVec.ofNat 21 u.nextPos } }
    if !full then setEntryM s u.entry e
    else
      let e' := { e with pages := e.pages.take u.pages, statePages := if e.pages.length ≤ u.pages then e.statePages else u.statePages,
                         st := if u.queued && e.st = .steeping then .queued else e.st,
                         f := if e.f.delay = 2 ∨ e.f.delay = 3 then { e.f with delay := u.delay } else e.f }
      setEntryM (modPart s p (fun y => { y with pool := sortBy (fun a b => decide (a ≤ b)) (y.pool ++ e.pages.drop u.pages) })) u.entry e'
/-- Undo a composition: placements, NEXT_POS advances and preemption marks; the requests keep their state and pages
(R239, R474). With `full`, for a composition that goes on without a failed request (R241), nothing of it is left. -/
def undoNext (s : State) (p : Nat) (full : Bool) : State :=
  match (getPart? s p).bind (·.next) with
  | none => modPart s p (fun y => { y with frozen := none, awaitCounts := false })
  | some st =>
    let s := st.undo.foldl (undoOne full p) s
    let s := st.marks.foldl (fun s i => modEntry s i (fun e => { e with preempted := false })) s
    modPart s p (fun y => { y with next := none, frozen := none, awaitCounts := false })

/-- Discard the composition made at CP(n) (R239, R474). -/
def discardNext (s : State) (p : Nat) : State := undoNext s p false
/-- A composed steep that no live row is left in is not released (R12): while no steep runs it is dropped. -/
def dropDead (s : State) (p : Nat) : State :=
  match getPart? s p with
  | some x => match x.next with
    | some st => if x.phase = .none ∧ !st.rows.any (fun r => !r.dead) then stirPart (discardNext s p) p else s
    | none => s
  | none => s

/-- Compose again over the set that was frozen, less an entry that failed a check, whose state `fail` sets first (R241). -/
def recomposeWithout (s : State) (p i : Nat) (fail : State → State) : State :=
  match (getPart? s p).bind (·.next) with
  | none => fail s
  | some st =>
    let s := fail (undoNext s p true)
    match getPart? s p with
    | some x => match x.image with
      | some img => idleCompose (composeOver s p x.steepNo x img (st.frozen.without i) st.frozenAt) p
      | none => s
    | none => s

end Sys2Proof.Machine
end

