-- ==== Sys2Proof/Machine/Rowmap.lean ====
section
/-! DEFINITION. Rowmap.lean: compute domains; row-map entries and their windows (R10, R91, R162, R165, R243, R244, R407). -/

namespace Sys2Proof.Machine

open Sys2Proof

/-- The compute domain of a logical tile (R407): a tile on its die's spare lies in PD(4d + 3). -/
def domainOf (s : State) (t : Nat) : Nat := t / 16 * 4 + (if (getTile s t).onSpare then 3 else t % 16 / 4)
/-- Domains a partition keeps on or gated in a state (R407). -/
def partDomains (s : State) (x : Part) (st : Nat) : List Nat :=
  (List.range 16).filter (fun d => (maskTiles x.tileMask).any (fun t =>
    (decide (st ≤ 1) && decide (domainOf s t = d)) || (decide (st = 0) && decide (d % 4 = 3) && decide (d / 4 = t / 16))))
/-- Domains that stay on or gated when each partition takes the state `f` gives it (R407). -/
def domainsKept (s : State) (f : Nat → Part → Nat) : List Nat := (s.parts.flatMap (fun q => partDomains s q.2 (f q.1 q.2))).dedup
/-- Domains power up: CORR_COUNT of their tiles is 0 (R162). -/
def domainsUp (s : State) (l : List Nat) : State :=
  if l = [] then s
  else modTiles s ((List.range 64).filter (fun t => l.contains (domainOf s t))) (fun x => { x with spadStatus := setBits x.spadStatus 55 32 0 })
/-- Domains follow the states of the partitions; those a waking partition needs stay as they are (R91, R407, R413). -/
def settleDomains (s : State) : State :=
  let kept := domainsKept s (fun _ x => x.pstate)
  let waking := (s.parts.flatMap (fun q => match q.2.waking with | some w => partDomains s q.2 w | none => [])).filter (fun d => s.pwr.domains.getLsbD d)
  let s := domainsUp s (kept.filter (fun d => !s.pwr.domains.getLsbD d))
  { s with pwr := { s.pwr with domains := (kept ++ waking).foldl (fun b d => setBit b d true) 0 } }

/-- Word addresses that [a, a + n) covers whole. -/
def wholeWord (a n w : Nat) : Bool := decide (a ≤ w * 4) && decide (w * 4 + 4 ≤ a + n)
/-- Words of [a, a + n) lose poison and errors: they are written whole (R161). -/
def wordsClean (x : Tile) (a n : Nat) : Tile :=
  { x with poison := x.poison.filter (fun w => !wholeWord a n w), oneBit := x.oneBit.filter (fun w => !wholeWord a n w),
           twoBit := x.twoBit.filter (fun w => !wholeWord a n w) }
/-- Write bytes into the scratchpad (R161). -/
def spadPut (x : Tile) (a : Nat) (l : List Byte) : Tile := wordsClean { x with spad := writeBytes x.spad a l } a l.length
def spadPuts (x : Tile) (l : List (Nat × List Byte)) : Tile := l.foldl (fun x q => spadPut x q.1 q.2) x
/-- Fill a range with bytes and zeros after them. -/
def spadFill (x : Tile) (a n : Nat) (l : List Byte) : Tile := wordsClean { x with spad := writeBytes (clearRange x.spad a n) a l } a n

/-- The 16 bytes of a row-map entry (R243). -/
def mapBytes (r : RowEntry) : List Byte :=
  natToBytes 4 r.position.toNat ++ natToBytes 2 (r.entry.toNat + b2n r.valid * 32768)
    ++ [BitVec.ofNat 8 (b2n r.segStart + 2 * b2n r.head + 4 * b2n r.sample + 8 * b2n r.last + 16 * b2n r.output), r.draft]
    ++ natToBytes 4 r.token.toNat ++ natToBytes 2 r.variant.toNat ++ natToBytes 2 0

/-- A prompt row of a SCORE request whose logits are needed (R233). -/
def scoreRow (f : ReqFields) (pos : Nat) : Bool :=
  f.kind = 2 && decide (f.length.toNat ≤ pos + f.contLen.toNat + 1) && decide (pos + 2 ≤ f.length.toNat)
/-- The request samples a first token (R233). -/
def samplesFirst (f : ReqFields) : Bool := f.kind = 0 && decide (1 ≤ f.maxNew.toNat) && !f.isPin

/-- The entry of row `k` of a placement (R243, R244). -/
def rowEntryOf (f : ReqFields) (rpt : Nat) (r : Placement) (k : Nat) : RowEntry :=
  let pos := r.pos + k
  let last := !r.head && decide (pos + 1 = f.length.toNat)
  { position := BitVec.ofNat 20 pos, entry := BitVec.ofNat 15 r.entry, valid := true,
    segStart := decide (k = 0) || decide ((r.first + k) % rpt = 0), head := r.head,
    sample := r.head || (last && samplesFirst f), last := last, output := !r.head && scoreRow f pos,
    draft := BitVec.ofNat 8 (if r.head then k else 0), token := (r.tokens.getD k 0).setWidth 18, variant := f.variant }

/-- Valid rows of a steep: steep row and entry. -/
def rowsOfSteep (s : State) (st : Steep) : List (Nat × RowEntry) :=
  (st.rows.filter (fun r => !r.dead)).flatMap (fun r =>
    match getEntry? s r.entry with
    | none => []
    | some e => (List.range r.count).map (fun k => (r.first + k, rowEntryOf e.f st.rpt r k)))

/-- Base of a tile's row-map half for a steep: even steeps the first, odd ones the second (R165). -/
def rowHalf (x : Tile) (n : Nat) : Option Nat := (x.map.find? (fun e => decide (e.kind = 2))).map (fun e => e.base.toNat * 512 + n % 2 * 8192)

/-- Write a half of one tile's row map: zero but for the given tile rows (R10). -/
def writeHalf (x : Tile) (n : Nat) (l : List (Nat × RowEntry)) : Tile :=
  match rowHalf x n with
  | none => x
  | some b => l.foldl (fun x q => spadPut x (b + q.1 * 16) (mapBytes q.2)) (spadFill x b 8192 [])

/-- Write row maps: steep row r lies in tile r div RPT at tile row r mod RPT (R241). -/
def writeRows (s : State) (st : Steep) (l : List (Nat × RowEntry)) : State :=
  (List.range st.tiles.length).foldl (fun s i =>
    modTile s (st.tiles.getD i 0) (fun x => writeHalf x st.n
      ((l.filter (fun q => decide (q.1 / st.rpt = i))).map (fun q => (q.1 % st.rpt, q.2))))) s
/-- The row maps of a steep of this partition's own requests. -/
def writeRowMaps (s : State) (_p : Nat) (st : Steep) : State := writeRows s st (rowsOfSteep s st)

/-- Tiles that hold reserved head-start rows of a steep. -/
def reservedTiles (st : Steep) : List Nat :=
  ((st.rows.filter (fun r => r.head)).flatMap (fun r => (List.range r.count).map (fun k => st.tiles.getD ((r.first + k) / st.rpt) 0))).dedup
/-- Reserved rows that are neither filled nor given up. -/
def rowsWanted (st : Steep) : Bool := st.rows.any (fun r => r.head && !r.filled && !r.dead)
/-- f255 becomes non-zero once every reserved row is filled or given up (R17, R209): by the request engine, or by a signal of the newt
that filled the last, which carries the steep's number (R211). -/
def headFlags (s : State) (p : Nat) (st : Steep) (src : SigSrc) : State :=
  if rowsWanted st then s
  else match src with
    | .newt n => { s with sigs := s.sigs ++ (reservedTiles st).map (fun t =>
        { src := .newt n, toNewt := false, target := t, flag := 255, set := true, value := 1, part := p, steep := st.n }) }
    | _ => modTiles s (reservedTiles st) (fun x => setFlag x 255 1)
/-- Write single rows of a running steep's maps: steep row and its 16 bytes. -/
def putRows (s : State) (st : Steep) (l : List (Nat × List Byte)) : State :=
  l.foldl (fun s q => modTile s (st.tiles.getD (q.1 / st.rpt) 0) (fun x =>
    match rowHalf x st.n with
    | some b => spadPut x (b + q.1 % st.rpt * 16) q.2
    | none => x)) s
/-- An invalid row's entry (R243). -/
def noRow : List Byte := List.replicate 16 0
/-- Reserved rows in the running steep become invalid (R17, R278). -/
def giveUpRows (s : State) (p i : Nat) : State :=
  match getPart? s p with
  | none => s
  | some x => match x.running with
    | none => s
    | some st =>
      let mine := fun (r : Placement) => decide (r.entry = i) && r.head && !r.filled && !r.dead
      if x.phase ≠ .none ∧ st.rows.any mine then
        let gone := (st.rows.filter mine).flatMap (fun r => (List.range r.count).map (fun k => (r.first + k, noRow)))
        let st := { st with rows := st.rows.map (fun r => if mine r then { r with dead := true } else r) }
        headFlags (putRows (setPart s p { x with running := some st }) st gone) p st .engine
      else s

end Sys2Proof.Machine
end

