-- ==== Sys2Proof/Machine/Tags.lean ====
section
/-! DEFINITION. Tags.lean: the scratchpad map, tagged slots, circular regions and claims (R163-R173). -/

namespace Sys2Proof.Machine

open Sys2Proof

/-- First byte, record or slot size, and length in bytes of a map entry (R163). -/
def entBase (e : MapEntry) : Nat := e.base.toNat * 512
def entRec (e : MapEntry) : Nat := 512 * 2 ^ e.sizeLog.toNat
def entLen (e : MapEntry) : Nat := e.count.toNat * (if e.kind = 3 ∨ e.kind = 4 then entRec e else 512)

/-- Region of a non-empty range [lo, hi) within one map entry; `none` where they do not meet. A range in a circular region that
its operand's BASE does not lie in is out of its record (R172; log entry 141). -/
def regionIn (i : Nat) (e : MapEntry) (lo hi : Nat) : Option Region :=
  if hi ≤ entBase e ∨ entBase e + entLen e ≤ lo then none
  else if e.kind = 3 then
    let k := (lo - entBase e) / entRec e
    if entBase e ≤ lo ∧ hi ≤ entBase e + (k + 1) * entRec e then some (.slot i k) else some .straddle
  else if e.kind = 4 then some .outRecord
  else none

/-- Region of a range under a map. -/
def regionFrom (i : Nat) : List MapEntry → Nat → Nat → Region
  | [], _, _ => .plain
  | e :: r, lo, hi => match regionIn i e lo hi with | some x => x | none => regionFrom (i + 1) r lo hi
def regionOf (m : List MapEntry) (lo hi : Nat) : Region := regionFrom 0 m lo hi

/-- Region of ranges outside circular regions: every one must lie in the same (R166). -/
def rangesRegion (m : List MapEntry) : List (Nat × Nat) → Region
  | [] => .plain
  | [(a, n)] => regionOf m a (a + n)
  | (a, n) :: r =>
    let x := regionOf m a (a + n)
    let y := rangesRegion m r
    if x = y then x else if x = .outRecord ∨ y = .outRecord then .outRecord else .straddle
/-- The circular region that an address lies in. -/
def circAt (m : List MapEntry) (a : Nat) : Option (MapEntry × Nat) :=
  m.zipIdx.find? (fun q => q.1.kind = 4 && decide (entBase q.1 ≤ a) && decide (a < entBase q.1 + entLen q.1))
/-- Region of a whole footprint with its BASE: an operand whose BASE lies in a circular region addresses one record, BASE in the
region's first record and the footprint ending within the record (R172); else R166. -/
def footRegion (m : List MapEntry) (base : Nat) (l : List (Nat × Nat)) : Region :=
  match circAt m base with
  | some (e, i) => if base < entBase e + entRec e ∧ l.all (fun r => decide (entBase e ≤ r.1) && decide (r.1 + r.2 ≤ entBase e + entRec e)) then .circ i else .outRecord
  | none => rangesRegion m l

/-- A range touches the program region or the row-map window (R165). -/
def touchesLocked (m : List MapEntry) (lo hi : Nat) : Bool :=
  m.any (fun e => (e.kind = 1 || e.kind = 2) && decide (lo < entBase e + entLen e) && decide (entBase e < hi))

/-- The program region, and the row-map window (R163). -/
def progRegion (x : Tile) : Option MapEntry := x.map.find? (fun e => decide (e.kind = 1))
def rowWindow (x : Tile) : Option MapEntry := x.map.find? (fun e => decide (e.kind = 2))

/-- Key of a slot's tag. -/
def tagKey (e i : Nat) : Nat := e * 65536 + i
/-- A slot's tag; an unlisted one is at INIT with REM = READS (R168). -/
def tagOf (x : Tile) (e i : Nat) : Tag :=
  match tabGet? (tagKey e i) x.tags with
  | some g => g
  | none => match x.map[e]? with
    | some m => { st := if m.init = 1 then .full else .empty, act := 0, rem := m.reads.toNat }
    | none => {}
def setTag (x : Tile) (e i : Nat) (g : Tag) : Tile := { x with tags := tabInsert (tagKey e i) g x.tags }
def circOf (x : Tile) (e : Nat) : Circ := tabGetD x.circs e {}
def setCirc (x : Tile) (e : Nat) (c : Circ) : Tile := { x with circs := tabInsert e c x.circs }
def readsOf (x : Tile) (e : Nat) : Nat := match x.map[e]? with | some m => m.reads.toNat | none => 0
def recsOf (x : Tile) (e : Nat) : Nat := match x.map[e]? with | some m => m.count.toNat | none => 0

/-- A tag after a writer's claim, a writer's completion, a reader's claim, a reader's completion (R168). -/
def tagWriteClaim (g : Tag) : Tag := { g with st := .filling }
def tagWriteDone (reads : Nat) (g : Tag) : Tag := { g with st := .full, rem := reads, act := 0 }
def tagReadClaim (reads : Nat) (g : Tag) : Tag :=
  if reads = 0 then { g with act := g.act + 1 }
  else { st := if g.rem - 1 = 0 then .closing else .full, act := g.act + 1, rem := g.rem - 1 }
def tagReadDone (g : Tag) : Tag :=
  if g.st = .closing ∧ g.act - 1 = 0 then { g with st := .empty, act := 0 } else { g with act := g.act - 1 }

/-- Whether a claim can be taken now (R168, R172). -/
def canClaim (x : Tile) (q : Claim) : Bool :=
  if q.circ then
    let c := circOf x q.entry
    if q.writer then decide ((c.tailC - c.head).toNat < recsOf x q.entry) else decide (c.headC ≠ c.tail)
  else
    let g := tagOf x q.entry q.index
    if q.writer then g.st = .empty else g.st = .full

/-- Take a claim: the tile after it, and the claim with the record it got (R168, R172). -/
def takeClaim (x : Tile) (q : Claim) : Tile × Claim :=
  if q.circ then
    let c := circOf x q.entry
    if q.writer then (setCirc x q.entry { c with tailC := c.tailC + 1 }, { q with index := c.tailC.toNat, taken := true })
    else (setCirc x q.entry { c with headC := c.headC + 1 }, { q with index := c.headC.toNat, taken := true })
  else
    let g := tagOf x q.entry q.index
    (setTag x q.entry q.index (if q.writer then tagWriteClaim g else tagReadClaim (readsOf x q.entry) g), { q with taken := true })

/-- Move a completed-record count over the records completed so far: new count, what is left, records advanced. -/
def advanceCount : Nat → Word32 → List Nat → Nat → Word32 × List Nat × Nat
  | 0, c, l, k => (c, l, k)
  | n + 1, c, l, k => if l.contains c.toNat then advanceCount n (c + 1) (l.erase c.toNat) (k + 1) else (c, l, k)

/-- Complete a taken claim (R168, R172, R173: the region's flags follow its counts). -/
def completeClaim (x : Tile) (q : Claim) : Tile :=
  if q.circ then
    let c := circOf x q.entry
    let m := x.map[q.entry]?
    if q.writer then
      let (t, l, k) := advanceCount (c.doneW.length + 1) c.tail (q.index :: c.doneW) 0
      let x := setCirc x q.entry { c with tail := t, doneW := l }
      match m with
      | some e => if bit e.flagEn 0 then addFlag x e.tailFlag.toNat (BitVec.ofNat 32 k) else x
      | none => x
    else
      let (h, l, k) := advanceCount (c.doneR.length + 1) c.head (q.index :: c.doneR) 0
      let x := setCirc x q.entry { c with head := h, doneR := l }
      match m with
      | some e => if bit e.flagEn 1 then addFlag x e.headFlag.toNat (BitVec.ofNat 32 k) else x
      | none => x
  else
    let g := tagOf x q.entry q.index
    setTag x q.entry q.index (if q.writer then tagWriteDone (readsOf x q.entry) g else tagReadDone g)

/-- One operand of an operation as far as tags are concerned: number, destination or not, its BASE, the ranges it touches. -/
structure Opnd where
  num : Nat
  write : Bool
  base : Nat
  ranges : List (Nat × Nat)
  deriving DecidableEq, Repr

/-- The claim an operand makes, if it lies in a slot or a region (R166). -/
def claimOf (x : Tile) (op who : Nat) (remote : Bool) (o : Opnd) : Option Claim :=
  if o.ranges = [] then none
  else match footRegion x.map o.base o.ranges with
    | .slot e i => some { entry := e, index := i, opnd := o.num, circ := false, writer := o.write, remote := remote, who := who, op := op, taken := false }
    | .circ e => some { entry := e, index := 0, opnd := o.num, circ := true, writer := o.write, remote := remote, who := who, op := op, taken := false }
    | _ => none

/-- Order of claims on one object (R169): local contexts 0 to 3, then remote tiles. -/
def claimRank (q : Claim) : Nat := (if q.remote then 64 else 0) + q.who
/-- Claims of one kind, writer or reader, on one slot or region. -/
def sameObject (k q : Claim) : Bool := decide (k.entry = q.entry) && (q.circ || decide (k.index = q.index)) && k.writer = q.writer
/-- Whether a claim already waiting goes before a new one (R169). -/
def claimBefore (x : Tile) (q : Claim) : Bool := x.claims.any (fun k => !k.taken && sameObject k q && decide (claimRank k ≤ claimRank q))
/-- Whether another waiting claim goes before the one at index `i` (R169). -/
def claimAhead (x : Tile) (i : Nat) (q : Claim) : Bool :=
  (x.claims.zipIdx).any (fun (k, j) => !k.taken && decide (j ≠ i) && sameObject k q &&
    (decide (claimRank k < claimRank q) || (decide (claimRank k = claimRank q) && decide (j < i))))
/-- Make a claim: taken at once where it can be and no other goes first, else it waits (R167, R169). -/
def addClaim (x : Tile) (q : Claim) : Tile :=
  if canClaim x q && !claimBefore x q then
    let (y, q') := takeClaim x q
    { y with claims := y.claims ++ [q'] }
  else { x with claims := x.claims ++ [q] }
/-- A waiting claim is taken where it can be and no other goes first (R168, R169, R172). -/
def tryClaim (x : Tile) (i : Nat) : Tile :=
  match x.claims[i]? with
  | none => x
  | some q => if q.taken || !canClaim x q || claimAhead x i q then x
    else
      let (y, q') := takeClaim x q
      { y with claims := y.claims.set i q' }
/-- The claims of an operation's operands, each made once, at the operand's first access (R167). -/
def makeClaims (x : Tile) (op who : Nat) (remote : Bool) (l : List Opnd) : Tile :=
  l.foldl (fun x o =>
    if x.claims.any (fun k => decide (k.op = op) && decide (k.opnd = o.num)) then x
    else match claimOf x op who remote o with | some q => addClaim x q | none => x) x
/-- The operation's waiting claims are tried again. -/
def retryClaims (x : Tile) (op : Nat) : Tile :=
  (List.range x.claims.length).foldl (fun x i => match x.claims[i]? with
    | some q => if q.op = op then tryClaim x i else x
    | none => x) x

/-- Number of the operation that the head of a context's queue is or will be: the one its claims already name, else the next. -/
def headOp (x : Tile) (c : Nat) : Nat := ((x.claims.find? (fun q => q.head && !q.remote && decide (q.who = c))).map (·.op)).getD x.nextOp
/-- The head claims what it reads or writes at acceptance: lists, descriptors, the word of a scalar access (R166, R167). -/
def headClaims (x : Tile) (c : Nat) (l : List Opnd) : Tile :=
  let op := headOp x c
  let y := retryClaims (makeClaims x op c false l) op
  { y with claims := y.claims.map (fun q => if q.op = op ∧ q.remote = false then { q with head := true } else q), nextOp := max y.nextOp (op + 1) }
/-- The head is accepted: its claims are its operation's. -/
def headTaken (x : Tile) (c : Nat) : Tile :=
  { x with claims := x.claims.map (fun q => if q.head ∧ q.remote = false ∧ q.who = c then { q with head := false } else q) }

/-- Every claim of an operation has been taken. -/
def claimsTaken (x : Tile) (op : Nat) : Bool := x.claims.all (fun q => decide (q.op ≠ op) || q.taken)
/-- Complete an operation: its claims complete, the ranges it was writing are no longer tracked (R130, R167). -/
def completeOp (x : Tile) (op : Nat) : Tile :=
  let y := (x.claims.filter (fun q => decide (q.op = op) && q.taken)).foldl completeClaim x
  { y with claims := y.claims.filter (fun q => decide (q.op ≠ op)), tracks := y.tracks.filter (fun k => decide (k.op ≠ op)) }

/-- Complete the claims of some operands of an operation (R167). -/
def completeOpnds (x : Tile) (op : Nat) (nums : List Nat) : Tile :=
  let mine := fun (q : Claim) => decide (q.op = op) && nums.contains q.opnd
  let y := (x.claims.filter (fun q => mine q && q.taken)).foldl completeClaim x
  { y with claims := y.claims.filter (fun q => !mine q) }

/-- How far the record an operand claimed lies behind the region's first (R172). -/
def claimShift (x : Tile) (op num : Nat) : Nat :=
  match x.claims.find? (fun q => decide (q.op = op) && decide (q.opnd = num) && q.circ) with
  | some q => match x.map[q.entry]? with
    | some e => (q.index % max 1 e.count.toNat) * entRec e
    | none => 0
  | none => 0

/-- A transfer's side in another tile, as an operand there (R166, R172, R175). -/
def farOpnd (write : Bool) (base a len : Nat) : Opnd := { num := if write then 16 else 17, write := write, base := base, ranges := [(a, len)] }
/-- A remote transfer at its target: the tile with its claim made, or tried again (R167, R169, R175). A drain's claim stands already. -/
def farClaim (y : Tile) (r : Remote) : Tile :=
  match r.op, r.handle with
  | some op, some _ => retryClaims (makeClaims y op r.src true [farOpnd (!r.read) r.base r.addr r.len]) op
  | _, _ => y
def farReady (y : Tile) (r : Remote) : Bool := match r.op with | some op => claimsTaken y op | none => true
/-- How far the record a remote transfer claimed lies behind the first (R172). -/
def farShift (y : Tile) (r : Remote) : Nat :=
  match r.op with | some op => claimShift y op (if r.handle.isNone then 5 else if r.read then 17 else 16) | none => 0

end Sys2Proof.Machine
end

