-- ==== Sys2Proof/Machine/Abort.lean ====
section
/-! DEFINITION. Abort.lean: failing, cancelling and charging requests; the steep abort; exceptions, tile faults and
module faults (R18, R19, R69, R89-R93, R111, R113, R149-R155, R168, R173, R189, R237, R239, R395, R474). -/

namespace Sys2Proof.Machine

open Sys2Proof

/-- Drop a request's chunks from its target's queue; records already on the wire stay in flight (R18, R19). -/
def dropPours (s : State) (p i : Nat) : State :=
  modPart s p (fun x => { x with targets := x.targets.map (fun q =>
    let t := q.2
    let front := match t.queue with | j :: _ => decide (j.entry = i) | [] => false
    (q.1, { t with queue := t.queue.filter (fun u => decide (u.entry ≠ i)), recIdx := if front then 0 else t.recIdx, crcs := if front then [] else t.crcs })) })

/-- Marker of the chunks and flights of a request that has left its entry. -/
def goneMarker (e : Entry) : Nat := 65536 + e.f.handle.toNat
/-- Chunks and flights of entry `i` now belong to no entry; answers whether there were flights. -/
def orphanFlights (s : State) (p i : Nat) (e : Entry) : State × Bool :=
  match getPart? s p with
  | none => (s, false)
  | some x =>
    (setPart s p { x with targets := x.targets.map (fun q => (q.1, { q.2 with
        flights := q.2.flights.map (fun u => if u.entry = i then { u with entry := goneMarker e } else u),
        queue := q.2.queue.map (fun u => if u.entry = i then { u with entry := goneMarker e } else u) })) },
     x.targets.any (fun q => q.2.flights.any (fun u => decide (u.entry = i))))

/-- An adopted request that waited takes a FREE entry (R384); where the pair mirrors again, its mirror is still to be confirmed (R8). -/
def seatWaiting (s : State) : State :=
  match s.pair.waitingEntries, freeEntry s with
  | (st, f) :: r, some i => stirPart (setEntryM { s with pair := { s.pair with waitingEntries := r } } i (entryFrom st f true (!mirroring s))) f.partition.toNat
  | _, _ => s
/-- Retiring pins that no request names any more give their pages back (R254). -/
def settlePins (s : State) (n : Nat) : State :=
  match getPart? s n with
  | none => s
  | some x =>
    let used := fun (k : Nat) => (entriesOf s n).any (fun q => q.2.f.pin.getLsbD 14 && q.2.f.pin.toNat % 2 ^ 14 = k)
      || s.pair.waitingEntries.any (fun q => q.2.partition.toNat = n && q.2.pin.getLsbD 14 && q.2.pin.toNat % 2 ^ 14 = k)
    let gone := x.pins.filter (fun q => q.2.retiring && !used q.1)
    let s := setPart s n { gone.foldl (fun y q => returnList y q.2.pages) x with pins := x.pins.filter (fun q => !(q.2.retiring && !used q.1)) }
    gone.foldl (fun s q => mirror s (.pin n q.1 0 0)) s
/-- An entry becomes FREE (R237). -/
def freeEntryAt (s : State) (i : Nat) : State :=
  match getEntry? s i with
  | none => s
  | some e => settlePins (seatWaiting (mirror { s with table := tabErase i s.table } (.requestFreed i))) (entryPart e)
/-- Every partition composes that has waited for it. -/
def idleAll (s : State) : State := s.parts.foldl (fun s q => idleCompose s q.1) s

/-- Rows of entry `i` in a steep become invalid (R10, R19). -/
def deadRows (i : Nat) (st : Steep) : Steep := { st with rows := st.rows.map (fun r => if r.entry = i then { r with dead := true } else r) }
/-- An entry leaves the steep being composed: its rows are invalid, and it is no longer of the frozen set. -/
def leaveNext (i : Nat) (st : Steep) : Steep := { deadRows i st with frozen := st.frozen.without i, undo := st.undo.filter (fun u => decide (u.entry ≠ i)) }
/-- The row maps of the composed steep, already written, follow a row's death (R19 step 6). -/
def killNext (s : State) (p i : Nat) : State :=
  let s := modPart s p (fun x => { x with next := x.next.map (leaveNext i), frozen := x.frozen.map (fun z => z.without i) })
  match getPart? s p with
  | some x => match x.next with
    | some st => dropDead (if st.composed then writeRowMaps s p st else s) p
    | none => s
  | none => s

/-- CANCELLED is posted, but for a request that a function-level or host-link reset cancelled (R344, R461). -/
def postCancelled (s : State) (e : Entry) : State := if e.finalPosted then s else postReq s e stCANCELLED true false 0 0

/-- A CANCELLING request is freed (R19 step 6): rows in the composed steep become invalid, pages return, and CANCELLED is
posted now or once its records in flight have completed. -/
def applyCancel (s : State) (p i : Nat) : State :=
  match getEntry? s i with
  | none => s
  | some e =>
    let s := dropPours s p i
    let s := returnPages s p e
    let (s, flying) := orphanFlights s p i e
    let s := finishPauses s e stTOO_LATE
    let s := killNext s p i
    let s := modPart s p (fun x => { x with running := x.running.map (deadRows i) })
    let s := settleLent (freeEntryAt s i) p
    if flying then modPart s p (fun x => { x with cancelled := x.cancelled ++ [(goneMarker e, e)] })
    else postCancelled s e

/-- A live request goes to FAILED with its final completion (R237); its pages return no earlier than the boundary of the running steep
(R245). With `pours`, the chunks of its committed steeps still pour (R18); else nothing further is poured (R240, R338). -/
def failRequest (s : State) (i : Nat) (status : BitVec 16) (pours : Bool) : State :=
  match getEntry? s i with
  | none => s
  | some e =>
    let p := entryPart e
    let s := if pours then sampleLeft s p i else dropPours s p i
    let s := modPart s p (fun x => if x.phase = .none then returnList x e.pages else { x with atBoundary := x.atBoundary ++ [e.pages] })
    let s := (orphanFlights s p i e).1
    let s := finishPauses s e stTOO_LATE
    let s := killNext s p i
    let s := setEntryM s i { e with st := .failed, pages := [], statePages := 0, pauseAsked := [], newt := none, samples := [], finalPosted := true }
    postReq s e status true false 0 0

/-- What an abort charges (R93, R152). -/
inductive Charge where
  | none
  | image
  | entries (l : List Nat)
  deriving DecidableEq, Repr

/-- One charge to a request; the second consecutive one fails it (R152). -/
def chargeEntry (s : State) (i : Nat) : State :=
  match getEntry? s i with
  | none => s
  | some e =>
    if e.f.charges.toNat + 1 ≥ 2 then failRequest (setEntryM s i { e with f := { e.f with charges := 2 } }) i stFAULT true
    else setEntryM s i { e with f := { e.f with charges := e.f.charges + 1 } }

/-- One charge to the image; the second consecutive one fails every request bound to it (R152). -/
def chargeImage (s : State) (p : Nat) : State :=
  match getPart? s p with
  | none => s
  | some x =>
    if x.imageCharges + 1 ≥ 2 then
      let s := setPart s p { x with imageCharges := 2, imageCharged := true }
      (entriesOf s p).foldl (fun s q =>
        if q.2.st = .queued ∨ q.2.st = .steeping ∨ q.2.st = .headstart ∨ q.2.st = .paused then failRequest s q.1 stFAULT true else s) s
    else setPart s p { x with imageCharges := x.imageCharges + 1 }

def applyCharge (s : State) (p : Nat) : Charge → State
  | .none => s
  | .image => chargeImage s p
  | .entries l => l.foldl chargeEntry s

/-- Row-state file with every bank at m = −∞, l = +0 (R113). -/
def rowStateInit : SMap 32 := (List.range 2048).map (fun i => (2 * i, (0xFF800000 : Word32)))

/-- What a steep abort does in one tile (R69, R111, R113, R168, R173, R189, R205, R207): contexts IDLE, slots FREE,
handles idle, tags and region counts reset, reads and unwritten merge entries discarded. -/
def tileAbort (x : Tile) : Tile :=
  { x with ctx := x.ctx.map (fun q => (q.1, { q.2 with st := .idle, cause := 0, object := 0, held := none })),
           slots := [], handles := [], tags := [], circs := [], claims := [], merge := [], xlate := [], mats := [], drains := [], vecs := [],
           rescales := [], tracks := [], rowState := rowStateInit,
           arr := {}, ringRound := 0, ringPos := 0, forwarded := false }

/-- A remote write of an aborted steep: one that its target takes completes there, in the record it claims; one that waits for a claim,
or stands behind such a one, is still at its source, and is dropped (R172, R176, R189; log entry 155). -/
def settleRemote (q : State × List (Nat × Nat)) (r : Remote) : State × List (Nat × Nat) :=
  if q.2.contains (r.src, r.dst) then q
  else
    let s := modTile q.1 r.dst (fun y => farClaim y r)
    let y := getTile s r.dst
    if !farReady y r then (s, (r.src, r.dst) :: q.2)
    else (setTile s r.dst (spadPuts y (r.runs.map (fun k => (k.1 + farShift y r, k.2)))), q.2)
/-- Remote writes already issued complete; reads are discarded (R189). -/
def settleRemotes (s : State) (p : Nat) : State :=
  let s := ((s.remotes.filter (fun r => decide (r.part = p) && !r.read)).foldl settleRemote (s, [])).1
  { s with remotes := s.remotes.filter (fun r => decide (r.part ≠ p)) }

/-- Requests with a live row in a steep. -/
def ridersOf (st : Steep) : List Nat := ((st.rows.filter (fun r => !r.dead)).map (·.entry)).dedup

/-- A request of the aborted steep returns to QUEUED (R237, R251). Where the abort does not charge it, it has ridden a steep without a
charge (R152). -/
def abortRider (charged : List Nat) (s : State) (p i : Nat) : State :=
  match getEntry? s i, getPart? s p with
  | some e, some x =>
    if e.st = .steeping ∨ e.st = .headstart then
      let s := stirPart (returnPages (sampleLeft s p i) p e) p
      let e' := delayed { requeue x e with f := { (requeue x e).f with lastEvent := stRETRYING, charges := if charged.contains i then e.f.charges else 0 } } 6
      postEvent (setEntryM s i e') e' stRETRYING
    else s
  | _, _ => s

/-- CANCELLING requests of a partition are freed (R19, R237), and QUEUED ones with a PAUSE out become PAUSED, when no
steep runs. -/
def settleIdle (s : State) (p : Nat) : State :=
  (entriesOf s p).foldl (fun s q =>
    if q.2.st = .cancelling then applyCancel s p q.1
    else if q.2.st = .queued ∧ q.2.pauseAsked ≠ [] then pauseNow s p q.1
    else s) s

/-- A group is freed (R358, R359): its GROUP_CREATE, if it still waits, completes with FAULT_FAILED, its GROUP_DESTROY
with OK. -/
def freeGroup (s : State) (g : Nat) (q : Group) : State :=
  let s := emit { s with fab := { s.fab with groups := tabErase g s.fab.groups } } (.groupMsg g 4 0)
  let s := match q.cmd with | some c => finish s c.1 c.2 stFAULT (BitVec.ofNat 128 (resAt 20 q.joined)) | none => s
  match q.endCmd with | some c => finish s c.1 c.2 stOK 0 | none => s
/-- Groups whose destruction waits for a boundary are freed (R359). -/
def settleGroups (s : State) (p : Nat) : State :=
  (s.fab.groups.filter (fun g => decide (g.2.part = p) && g.2.destroying)).foldl (fun s g => freeGroup s g.1 g.2) s

/-- Requests an abort charges. -/
def Charge.rows : Charge → List Nat
  | .entries l => l
  | _ => []
/-- Pages that waited for the end of the steep return (R245). -/
def settleBoundary (x : Part) : Part := { x.atBoundary.foldl returnList x with atBoundary := [] }
/-- The steep abort in this module (R90, R151, R221): every tile of the partition stops, the steep's requests return to
QUEUED, the composition is discarded, the charges are made, cancels follow the abort (R19), and a new composition starts.
Detected between B(n) and the release of steep n + 1 it only discards the composition (R474), and what is detected there is
charged as one abort. -/
def abortHere (s : State) (p : Nat) (ch : Charge) : State :=
  match getPart? s p with
  | none => s
  | some x =>
    if x.phase = .none then
      let s := setPart s p { x with idleCharged := x.idleCharged || ch ≠ .none, stir := x.stir || x.next.isSome }
      idleCompose (applyCharge (discardNext s p) p (if x.idleCharged then .none else ch)) p
    else
      let s := settleRemotes s p
      let s := { s with sigs := s.sigs.filter (fun g => !(decide (g.part = p) && match g.src with | .ctx _ _ => true | _ => false)) }
      let s := modTiles s (maskTiles x.tileMask) tileAbort
      let s := discardNext s p
      let riders := (x.running.map ridersOf).getD []
      let s := riders.foldl (fun s i => abortRider ch.rows s p i) s
      let s := modPart s p (fun y => settleBoundary { y with phase := .none, running := none, next := none, arrived := [], uses := [], counts := [], stir := true, throttled := false,
                                                             imageCharges := if ch = .image then y.imageCharges else if y.imageCharged then y.imageCharges else 0 })
      let s := (entriesOf s p).foldl (fun s q => modEntry s q.1 (fun e => { e with preempted := false })) s
      let s := applyCharge s p ch
      let s := settleGroups (settleIdle s p) p
      idleCompose s p

/-- An abort travels to the other members of the partition's groups, with what it charges (R360). -/
def tellAbort (s : State) (p : Nat) (ch : Charge) : State :=
  if groupsOf s p = [] then s
  else match ch with
    | .none => emit s (.lockstep p 4 0)
    | .image => emit s (.lockstep p 5 0)
    | .entries l => emits (emit s (.lockstep p 5 0)) (l.map (fun i => .lockstep p 6 i))
/-- The steep abort; the charges of a group's steep are made at its leader (R152, R360). -/
def abortSteep (s : State) (p : Nat) (ch : Charge) : State :=
  abortHere (tellAbort s p ch) p (if (groupRank s p).getD 0 ≠ 0 then .none else ch)

/-- Requests with a live row in tile rows [lo, hi) of a tile, in the running steep or, after B(n), in the last one
(R152, R474). -/
def chargedRows (x : Part) (t lo hi : Nat) : List Nat :=
  match x.running with
  | none => []
  | some st =>
    let base := (st.tiles.idxOf t) * st.rpt
    ((st.rows.filter (fun r => !r.dead && decide (r.first < base + hi) && decide (base + lo < r.first + r.count))).map (·.entry)).dedup

/-- The TILE_EXC_STATUS record of an exception (R153, R154): FIXED_NAN is kept, OVERRUN set where VALID was still 1. -/
def excRecord (old : Word64) (c code opcode pc : Nat) (rows : Rows) : Word64 :=
  let (rv, lo, hi) := match rows with | some (a, b) => (1, a, b) | none => (0, 0, 0)
  BitVec.ofNat 64 (2 ^ 63 + (if bit old 63 ∨ bit old 62 then 2 ^ 62 else 0) + c * 2 ^ 60 + rv * 2 ^ 59 + (if bit old 58 then 2 ^ 58 else 0)
    + code * 2 ^ 48 + opcode * 2 ^ 40 + (hi % 1024) * 2 ^ 30 + (lo % 1024) * 2 ^ 20 + (pc / 16) % 2 ^ 20)

/-- Take a tile exception (R150-R155): the record and its detail are written, the context stops, the steep is aborted and
the charge made. -/
def takeException (s : State) (t c code opcode pc kind value : Nat) (rows : Rows) : State :=
  let s := modTile s t (fun x =>
    modCtx { x with excStatus := excRecord x.excStatus c code opcode pc rows, excInfo := BitVec.ofNat 64 (kind * 2 ^ 56 + value % 2 ^ 56) } c
      (fun k => { k with st := .idle, cause := 0, object := 0, held := none }))
  match partOfTile s t with
  | none => s
  | some p =>
    match getPart? s p with
    | none => s
    | some x =>
      abortSteep s p (match rows with | some (lo, hi) => .entries (chargedRows x t lo hi) | none => .image)

/-- Load the program region and the scratchpad map of one tile (R149). -/
def loadTile (img : Image) (idx : Nat) (x : Tile) : Tile :=
  let map := (img.maps.getD idx (img.maps.getLastD []))
  let prog := (img.programs.getD idx (img.programs.getLastD []))
  match map.find? (fun e => decide (e.kind = 1)) with
  | some e => spadFill { x with map := map, tags := [], circs := [] } (e.base.toNat * 512) (e.count.toNat * 512) prog
  | none => { x with map := map, tags := [], circs := [] }

/-- Load every tile of a partition (R149). -/
def loadPrograms (s : State) (p : Nat) : State :=
  match getPart? s p with
  | none => s
  | some x => match x.image with
    | none => s
    | some img => (maskTiles x.tileMask).foldl (fun s t => modTile s t (loadTile img (tileIndex x t))) s

/-- Stores of a tile at zero (R434), also what a spare holds when it takes a logical number; registers and counters of the
logical tile stay. -/
def tileClear (x : Tile) : Tile :=
  { x with ctx := [], slots := [], acc := [], cur := {}, arr := {}, ringRound := 0, ringPos := 0, forwarded := false, spad := [], oneBit := [], twoBit := [], poison := [], flags := [], rowState := [], handles := [], merge := [], xlate := [], map := [], tags := [], circs := [], claims := [], mats := [], drains := [], vecs := [], rescales := [], tracks := [], lending := false }

/-- A spare of the tile's die is unused, and start-up found it working (R54, R92). -/
def spareFree (s : State) (t : Nat) : Bool := !s.iod.sparesUsed.getLsbD (t / 16) && !(s.iod.badPhys.contains ((t / 16) * 17 + 16))

/-- Whether the spare of the tile's die passes its self-test at remapping (R90 step 6), which the manual leaves to the silicon: a
free value (log entry 3). A spare that fails is found bad. -/
def spareTest (s : State) (t : Nat) : Bool × State :=
  if !spareFree s t then (false, s)
  else
    let (v, s) := takeFree s
    if v.getLsbD 0 then (true, s) else (false, { s with iod := { s.iod with badPhys := s.iod.badPhys ++ [(t / 16) * 17 + 16] } })

/-- The spare takes the logical number, with the program region and map (R90 steps 5 and 6). -/
def mapSpare (s : State) (t : Nat) : State :=
  let s := { s with iod := { s.iod with sparesUsed := setBit s.iod.sparesUsed (t / 16) true } }
  let s := modTile s t (fun x => { tileClear x with onSpare := true, errStatus := x.errStatus &&& 0xE0 })
  match partOfTile s t with
  | none => s
  | some p => match getPart? s p with
    | none => s
    | some x => match x.image with
      | none => s
      | some img => modTile s t (loadTile img (tileIndex x t))

/-- TILE_ERR_STATUS of a fault (R88). -/
def errRecord (old : Word64) (cause : BitVec 8) (loc : Option (BitVec 8 × BitVec 12)) (shape : Nat) : Word64 :=
  let l : Nat := match loc with | some (r, c) => 2 ^ 47 + r.toNat * 2 ^ 32 + c.toNat * 2 ^ 20 | none => 0
  (BitVec.ofNat 64 (2 ^ 63 + cause.toNat * 2 ^ 48 + l + shape * 2 ^ 16)) ||| (old &&& 0xE0)

/-- A tile fault (R88-R93): status, log, abort without charge, and the spare mapped or the tile retired. The class 2 record of a
retirement carries TILE_ERR_STATUS as the class 1 record does, and above it the tiles the partition has left (R92; log entry 138). -/
def tileFault (s : State) (t : Nat) (cause : BitVec 8) (loc : Option (BitVec 8 × BitVec 12)) (shape : Nat) : State :=
  let s := modTile s t (fun x => { x with errStatus := errRecord x.errStatus cause loc shape })
  let part := (partOfTile s t).getD 0xFF
  let detail : BitVec 128 := (getTile s t).errStatus.setWidth 128
  let left : Nat := match getPart? s part with | some x => tileCount x - 1 | none => 0
  let (spare, s) := spareTest s t
  let s := faultLog s 1 cause.toNat part (if spare then 2 else 3) t (physOf s t) detail
  let s := if spare then s else faultLog s 2 cause.toNat part 3 t (physOf s t) (detail ||| BitVec.ofNat 128 (left * 2 ^ 64))
  let before := s
  let s := if spare then mapSpare s t
    else
      let s := modTile s t (fun x => { tileAbort x with retired := true })
      match partOfTile s t with
      | none => s
      | some p => modPart s p (fun x => { x with tileMask := x.tileMask &&& ~~~((1 : BitVec 64) <<< t) })
  match partOfTile before t with
  | none => s
  | some p => abortSteep s p .none

def haltPart (x : Part) : Part :=
  { x with phase := .none, running := none, next := none, targets := x.targets.map (fun r => (r.1, { r.2 with queue := [], flights := [] })) }
/-- What a module that stops no longer does (R391): tasks, steeps, pours, remote transfers, firmware work. -/
def haltWork (s : State) : State :=
  { s with fwQueue := [], sigs := [], remotes := [], tiles := s.tiles.map (fun q => (q.1, tileAbort q.2)),
           parts := s.parts.map (fun q => (q.1, haltPart q.2)),
           pair := { s.pair with held := [], configs := [], pairWrites := [] } }
/-- A module fault (R391, R395, R466): the module stops, READY falls, PAIR_ALIVE_OUT goes static, one class 11 record. -/
def moduleStop (s : State) (code : BitVec 8) : State :=
  let s := haltWork (faultLog s 11 code.toNat 0xFF 7 0 0xFFFF 0)
  { s with ready := false, mod := { s.mod with stopped := some code, restartOk := code ≠ 0x08 && code ≠ 0x09 && code ≠ 0x0B }, pair := { s.pair with aliveOut := .static } }

/-- A fault stops a module that has started and has not stopped (R395, R466). -/
def tripModule (s : State) (code : BitVec 8) : State := if s.mod.stopped.isSome ∨ !s.mod.lifeStarted then s else moduleStop s code

/-- What the check column and the check row find in a block (R51): a row of a sub-array, or a column, whose cells and whose check
cell changed by amounts that differ modulo 65 535. The sums agree where nothing changed, since both are formed of the same
products. Columns 0x800 to 0x803 are the check columns of the sub-arrays. -/
def errGroup (sh : Shape) (col : Nat) : Nat := if sh = .quadrant then (if 0x800 ≤ col then col - 0x800 else col / 128) else 0
def rowDiff (sh : Shape) (l : List CellError) (row group : Nat) : Int :=
  ((l.filter (fun e => decide (e.row = row) && decide (errGroup sh e.col = group))).map (fun e => if 0x800 ≤ e.col then -e.amount else e.amount)).sum
def colDiff (l : List CellError) (col : Nat) : Int :=
  ((l.filter (fun e => decide (e.col = col))).map (fun e => if e.row = 128 then -e.amount else e.amount)).sum
def rowsOff (sh : Shape) (l : List CellError) : List (Nat × Nat) :=
  (((l.filter (fun e => decide (e.row < 128))).map (fun e => (e.row, errGroup sh e.col))).dedup).filter (fun q => rowDiff sh l q.1 q.2 % 65535 ≠ 0)
def colsOff (l : List CellError) : List Nat :=
  (((l.filter (fun e => decide (e.col < 0x800))).map (·.col)).dedup).filter (fun c => colDiff l c % 65535 ≠ 0)
/-- The first block in which residues disagree, from block `j` on. -/
def firstOff (sh : Shape) (l : List CellError) (j : Nat) : Option Nat :=
  ((l.map (·.block)).filter (fun b => decide (j ≤ b) && (rowsOff sh (l.filter (fun e => decide (e.block = b))) ≠ [] || colsOff (l.filter (fun e => decide (e.block = b))) ≠ []))).min?
/-- Where the mismatch of a block lies: the cell of one row and one column, or a check cell where only one direction disagrees
(R51, R88). -/
def offLoc (sh : Shape) (l : List CellError) (b : Nat) : Option (BitVec 8 × BitVec 12) :=
  let k := l.filter (fun e => decide (e.block = b))
  match rowsOff sh k, colsOff k with
  | [(r, _)], [c] => some (BitVec.ofNat 8 r, BitVec.ofNat 12 c)
  | [(r, _)], [] => some (BitVec.ofNat 8 r, 0x800)
  | [], [c] => some (0x80, BitVec.ofNat 12 c)
  | _, _ => none

/-- What an array operation's check comes to (R51, R52, R85-R87, R89): the tile faults, or the operation completes, with whether it
was replayed and the errors no residue shows. -/
inductive ArrayCheck where
  | fault (cause : BitVec 8) (loc : Option (BitVec 8 × BitVec 12))
  | done (replayed : Bool) (left : List CellError)
  deriving DecidableEq, Repr
/-- A matrix instruction has one replay (R86), which starts again at the block that disagreed (R85): errors of earlier blocks stay. -/
def arrayCheck (sh : Shape) : Check → ArrayCheck
  | .pass => .done false []
  | .corrected => .done false []
  | .retryPass => .done true []
  | .fail .second loc => .fault 2 loc
  | .fail .accFile loc => .fault 4 loc
  | .fail .leafBuffer loc => .fault 5 loc
  | .cells first replay =>
    match firstOff sh first 0 with
    | none => .done false first
    | some j =>
      match firstOff sh replay 0 with
      | some k => .fault 1 (offLoc sh replay k)
      | none => .done true (first.filter (fun e => decide (e.block < j)) ++ replay.filter (fun e => decide (j ≤ e.block)))
/-- The check of a drain or a vector operation (R87, R89): the cause of its fault, none where it passed. -/
def unitCheck (second : BitVec 8) : Check → Option (BitVec 8 × Option (BitVec 8 × BitVec 12))
  | .fail .accFile loc => some (4, loc)
  | .fail _ loc => some (second, loc)
  | _ => none

/-- A replay or re-drain that passed (R86, R88). -/
def noteRetry (x : Tile) : Tile := { x with errStatus := setBit x.errStatus 5 true }
/-- A single-bit error corrected in the accumulator file or leaf buffer shows, and counts (R87, R88). -/
def noteEcc (x : Tile) : Check → Tile
  | .corrected => { x with errStatus := setBit x.errStatus 6 true, eccCount := x.eccCount + 1 }
  | _ => x
/-- What a passed check of a drain leaves (R87, R88); a vector instruction that was reissued leaves nothing. -/
def noteDrain (x : Tile) : Check → Tile
  | .retryPass => noteRetry x
  | c => noteEcc x c

end Sys2Proof.Machine
end

