-- ==== Sys2Proof/Machine/Operands.lean ====
section
/-! DEFINITION. Operands.lean: operand words and footprints, scratchpad accesses with their error checks, elements in
memory, validity of rows and columns, and the row map (R22, R77-R84, R126, R156-R165, R243). -/

namespace Sys2Proof.Machine

open Sys2Proof

/-- What the checks of an instruction at the head of its queue answer. -/
inductive Verdict where
  /-- it can be accepted -/
  | go
  /-- its head is held: cause code and object (R208, R224) -/
  | hold (cause object : Nat)
  /-- its head waits at the claims of these operands, which it reads or writes at acceptance (R167, R208 cause 4) -/
  | wait (l : List Opnd)
  /-- it raises an exception: code, and KIND and VALUE of TILE_EXC_INFO (R150, R155) -/
  | exc (code kind value : Nat)
  /-- a word it reads (address ÷ 4) is uncorrectable: the tile faults with cause 0x06 (R161) -/
  | poison (word : Nat)
  /-- it is not accepted yet, for a reason that is no condition of R208 (END, R148) -/
  | stay
  deriving DecidableEq, Repr

/-- The first verdict that is not `go`. -/
def firstOf : List Verdict → Verdict
  | [] => .go
  | .go :: r => firstOf r
  | v :: _ => v

/-- Illegal operand, reserved field: STRUCT, and bits [hi:lo] of the offending field (R155 KIND 0x05). -/
def fieldInfo (struct hi lo : Nat) : Nat := struct * 2 ^ 24 + (hi + 1 - lo) * 2 ^ 16 + lo
def illegalIf (b : Bool) (struct hi lo : Nat) : Verdict := if b then .exc 3 5 (fieldInfo struct hi lo) else .go
def holdIf (b : Bool) (cause object : Nat) : Verdict := if b then .hold cause object else .go
/-- Address exceptions: OPERAND and ADDRESS (R155 KIND 0x01). -/
def addrInfo (opnd addr : Nat) : Nat := opnd * 2 ^ 48 + addr % 2 ^ 32
def excIf (b : Bool) (code opnd addr : Nat) : Verdict := if b then .exc code 1 (addrInfo opnd addr) else .go

/-- The first reserved field, lowest bits first, that holds a one. -/
def badReserved (w : BitVec 128) : List (Nat × Nat) → Option (Nat × Nat)
  | [] => none
  | (hi, lo) :: r => if bits w hi lo = 0 then badReserved w r else some (hi, lo)

/-- Fields of an operand word (R126). -/
def opBase (w : Word64) : Nat := bits w 23 0
def opPitch (w : Word64) : Nat := bits w 35 24 * 512
def opSoff (w : Word64) : Nat := bits w 59 36
def opSpitch (w : Word64) : Nat := 64 * 2 ^ bits w 63 60
/-- Misaligned operand words (R126). -/
def wordVerdict (w : Word64) (mx : Bool) (opnd : Nat) : Verdict :=
  excIf (bits w 35 24 = 0 || bits w 5 0 ≠ 0 || (!mx && bits w 63 60 ≠ 0)) 6 opnd (opBase w)

/-- Ranges a surface touches: bytes [off, off + n) of each listed row. -/
def rowRanges (base pitch off n : Nat) (rows : List Nat) : List (Nat × Nat) :=
  if n = 0 then [] else rows.map (fun m => (base + m * pitch + off, n))
/-- Runs of ascending columns: first column and how many. -/
def colRuns : List Nat → List (Nat × Nat)
  | [] => []
  | c :: r => match colRuns r with
    | (a, n) :: q => if a = c + 1 then (c, n + 1) :: q else (c, 1) :: (a, n) :: q
    | [] => [(c, 1)]
/-- Ranges of the elements, of `w` bits each, that lie in the listed rows and columns: columns between them that are not valid are
neither checked nor claimed (R81, R161). -/
def runRanges (base pitch w : Nat) (rows cols : List Nat) : List (Nat × Nat) :=
  (colRuns cols).flatMap (fun q => rowRanges base pitch (q.1 * w / 8) (((q.1 + q.2) * w + 7) / 8 - q.1 * w / 8) rows)
/-- The lowest address past a limit that some range reaches. -/
def pastLimit (limit : Nat) : List (Nat × Nat) → Option Nat
  | [] => none
  | (a, n) :: r =>
    let rest := pastLimit limit r
    if a + n ≤ limit then rest
    else match rest with | some b => some (min b (max a limit)) | none => some (max a limit)

/-- The first byte of an operand outside the record it addresses (R172, R155). -/
def outOfRecord (m : List MapEntry) (o : Opnd) : Nat :=
  match circAt m o.base with
  | some (e, _) => if entBase e + entRec e ≤ o.base then o.base else (pastLimit (entBase e + entRec e) o.ranges).getD o.base
  | none => (o.ranges.headD (0, 0)).1
/-- Footprint checks of one scratchpad operand: 16 MiB (R126), slots and records (R166, R172), locked regions (R165). -/
def spadVerdict (x : Tile) (o : Opnd) (opnd : Nat) : Verdict :=
  match pastLimit 0x1000000 o.ranges with
  | some a => .exc 5 1 (addrInfo opnd a)
  | none =>
    match (if o.write then o.ranges.find? (fun r => touchesLocked x.map r.1 (r.1 + r.2)) else none) with
    | some r => .exc 5 1 (addrInfo opnd r.1)
    | none =>
      if o.ranges = [] then .go
      else match footRegion x.map o.base o.ranges with
        | .straddle => .exc 3 5 (fieldInfo 3 23 0)
        | .outRecord => .exc 5 1 (addrInfo opnd (outOfRecord x.map o))
        | _ => .go
/-- An operation that both reads and writes one slot (R166). -/
def sameSlot (x : Tile) (l : List Opnd) : Verdict :=
  let slots := fun (w : Bool) => (l.filter (fun o => decide (o.write = w) && decide (o.ranges ≠ []))).filterMap (fun o =>
    match footRegion x.map o.base o.ranges with | .slot e i => some (e, i) | _ => none)
  illegalIf ((slots true).any (fun q => (slots false).contains q)) 3 23 0

/-- Overlap of two ranges given as (address, length). -/
def meets (a b : Nat × Nat) : Bool := decide (a.1 < b.1 + b.2) && decide (b.1 < a.1 + a.2)
/-- In-context tracking (R130): an operand overlaps a write in flight, or 16 are tracked already. -/
def trackVerdict (x : Tile) (c : Nat) (l : List Opnd) : Verdict :=
  let mine := x.tracks.filter (fun k => decide (k.ctx = c))
  firstOf [holdIf (l.any (fun o => o.ranges.any (fun r => mine.any (fun k => meets r (k.lo, k.hi - k.lo))))) 10 0,
    holdIf (l.any (fun o => o.write) && decide (16 ≤ mine.length)) 10 0]
/-- The smallest range that covers a list of ranges. -/
def hull : List (Nat × Nat) → Nat × Nat
  | [] => (0, 0)
  | [(a, n)] => (a, a + n)
  | (a, n) :: r => let (lo, hi) := hull r; (min a lo, max (a + n) hi)
/-- Track the destinations of an operation of a context (R130). -/
def addTracks (x : Tile) (c op : Nat) (l : List Opnd) : Tile :=
  { x with tracks := x.tracks ++ (l.filter (fun o => o.write && decide (o.ranges ≠ []))).map (fun o =>
      { ctx := c, op := op, lo := (hull o.ranges).1, hi := (hull o.ranges).2 }) }

/-- Word addresses (address ÷ 4) that lie in ranges. -/
def inRanges (w : Nat) (l : List (Nat × Nat)) : Bool := l.any (fun r => meets (w * 4, 4) r)
/-- An uncorrectable word lies in what is read (R161). -/
def poisoned (x : Tile) (l : List (Nat × Nat)) : Option Nat := (x.poison ++ x.twoBit).find? (fun w => inRanges w l)
/-- TILE_SPAD_STATUS after `n` corrected words, the last at word address `w` (R162). -/
def spadCorr (st : Word64) (n w : Nat) : Word64 :=
  if n = 0 then st
  else setBits (setBits (setBit st 62 true) 55 32 (min (bits st 55 32 + n) 0xFFFFFF)) 21 0 w
/-- Single-bit errors in what is read are corrected and written back (R161). -/
def correctReads (x : Tile) (l : List (Nat × Nat)) : Tile :=
  let hit := x.oneBit.filter (fun w => inRanges w l)
  { x with oneBit := x.oneBit.filter (fun w => !inRanges w l), spadStatus := spadCorr x.spadStatus hit.length (hit.getLastD 0) }

/-- Join bytes at rising addresses into runs, as one access writes them. -/
def joinRuns : List (Nat × Byte) → List (Nat × List Byte)
  | [] => []
  | (a, b) :: r => match joinRuns r with
    | (a', l) :: q => if a' = a + 1 then (a, b :: l) :: q else (a, [b]) :: (a', l) :: q
    | [] => [(a, [b])]

/-- A tile's uncorrectable scratchpad word, found by a read of an instruction of a shape (0 where it has none): TILE_SPAD_STATUS and
the fault (R88, R161, R162). -/
def spadFault (s : State) (t w shape : Nat) : State :=
  tileFault (modTile s t (fun x => { x with spadStatus := setBits (setBit x.spadStatus 63 true) 21 0 w })) t 6 none shape

/-- `w` bits at bit offset `o` of a bit string read little-endian from address `a` (R22). -/
def elemAt (m : SMap 8) (a o w : Nat) : Nat :=
  let v := bytesToNat (readBytes m (a + o / 8) ((o % 8 + w + 7) / 8))
  (v >>> (o % 8)) % 2 ^ w
/-- Bytes that `n` packed elements take. -/
def packedLen (code n : Nat) : Nat := (n * elemBits code + 7) / 8

/-- Source of an array operand: scratchpad bytes or CUR. -/
structure Surf where
  mem : SMap 8
  word : Word64
  /-- record shift of a circular region (R172) -/
  shift : Nat
  code : Nat

/-- Element i of row r of a surface, and the scale byte of its block: scales by row and byte (log entry 17). -/
def Surf.elem (f : Surf) (r i : Nat) : Nat := elemAt f.mem (opBase f.word + f.shift + r * opPitch f.word) (i * elemBits f.code) (elemBits f.code)
def Surf.scale (f : Surf) (r j : Nat) : Byte := smGet f.mem (opBase f.word + f.shift + opSoff f.word + r * opSpitch f.word + j)

/-- Little-endian FP32 and BF16 values in a store. -/
def f32At (m : SMap 8) (a : Nat) : Word32 := readLE m a 4 32
def bf16At (m : SMap 8) (a : Nat) : Word32 := BitVec.ofNat 32 (bytesToNat (readBytes m a 2) * 65536)

/-- Rows and columns of a shape as the drain reads them (R60, R62). -/
def shapeRows : Shape → Nat
  | .wide => 32
  | _ => 128
def shapeCols : Shape → Nat
  | .wide => 2048
  | _ => 512
/-- Columns of one operand B: a sub-array of the quadrant shape has 128. -/
def subCols : Shape → Nat
  | .quadrant => 128
  | .wide => 2048
  | _ => 512
/-- Sub-arrays of a shape. -/
def subArrays : Shape → Nat
  | .quadrant => 4
  | _ => 1

/-- Row validity of row m of sub-array q (R78). -/
def rowOk (sh : Shape) (bound : Nat) (mask : BitVec 512) (q m : Nat) : Bool :=
  decide (m < bound) && decide (m < shapeRows sh) && mask.getLsbD (if sh = .quadrant then 128 * q + m else m)
/-- Column validity of column n of sub-array q; wide-shallow takes its mask from four registers (R78). -/
def colOk (sh : Shape) (bound : Nat) (masks : List (BitVec 512)) (q n : Nat) : Bool :=
  decide (n < bound) && decide (n < subCols sh) &&
    (match sh with
     | .quadrant => (masks.headD 0).getLsbD (128 * q + n)
     | .wide => (masks.getD (n / 512) 0).getLsbD (n % 512)
     | _ => (masks.headD 0).getLsbD n)

/-- Slot row and column that hold cell (q, m, n) of a shape (R61, R62). -/
def cellPos (sh : Shape) (q m n : Nat) : Nat × Nat :=
  match sh with
  | .quadrant => (m, 128 * q + n)
  | .wide => (4 * m + n / 512, n % 512)
  | _ => (m, n)
/-- Key of an accumulator word. -/
def accKey (word row col : Nat) : Nat := (word * 128 + row) * 512 + col
/-- High word of a slot in a mode: EXT keeps hi above lo (R67). -/
def hiWord (mode : AccMode) (slot : Nat) : Nat := if mode = .ext then slot + 1 else slot
/-- A slot's word at a row and column: a cell the manual leaves undefined reads a free value (R84, log entry 3). -/
def accRead (x : Tile) (slot word row col : Nat) : Word32 :=
  let z := getSlot x slot
  if (tabGetD z.undef row 0).getLsbD col then (Config.freeValue (z.undefBase + accKey word row col)).setWidth 32
  else smGet x.acc (accKey word row col)
def accWrite (x : Tile) (word row col : Nat) (v : Word32) : Tile := { x with acc := smSet x.acc (accKey word row col) v }

/-- The row map of a running steep (R165, R243): address of the entry of a tile row. -/
def rowEntryAddr (x : Tile) (part : Part) (row : Nat) : Nat :=
  match rowWindow x with
  | some e => entBase e + ((part.running.map (·.n)).getD 0 % 2) * 8192 + row * 16
  | none => 0
def rowWord (x : Tile) (part : Part) (row : Nat) : Word64 := if row < 512 then readLE x.spad (rowEntryAddr x part row) 8 64 else 0
def rowPosition (w : Word64) : Nat := bits w 19 0
def rowValidBit (w : Word64) : Bool := bit w 47
def rowSegStart (w : Word64) : Bool := bit w 48

/-- The logical tile of a number used by tile programs: the index within the partition (log entry 20). -/
def tileOfIndex (part : Part) (i : Nat) : Option Nat := (maskTiles part.tileMask)[i]?

/-- Tile rows of an instruction's valid rows, offset by s31 (R124, R152). -/
def attributed (org : Nat) (l : List Nat) : Rows :=
  match l with
  | [] => none
  | a :: r => some ((org + r.foldl min a) % 1024, (org + r.foldl max a + 1) % 1024)

end Sys2Proof.Machine
end

