-- ==== Sys2Proof/Machine/Flags.lean ====
section
/-! DEFINITION. Flags.lean: flag conditions, flag names an instruction may use, signals and what a FENCE waits for
(R137, R145, R146, R209-R217). -/

namespace Sys2Proof.Machine

open Sys2Proof

/-- COND of a WAIT: 0 unsigned ≥, 1 =, 2 ≠ (R145). -/
def condHolds (cond : Nat) (flag value : Word32) : Bool :=
  if cond = 0 then decide (value ≤ flag) else if cond = 1 then decide (flag = value) else decide (flag ≠ value)

/-- A satisfied WAIT: CONSUME subtracts VALUE with COND 0 (R145, R146). -/
def consumeFlag (x : Tile) (flag cond : Nat) (consume : Bool) (value : Word32) : Tile :=
  if consume ∧ cond = 0 then setFlag x flag (getFlag x flag - value) else x

/-- The DONE flag of an instruction, none when DONE_EN is 0. -/
def doneOf (en : Bool) (flag : Nat) : Option Nat := if en then some flag else none
/-- A DONE_FLAG that names f255 is an illegal operand (R209), at its field's bits. -/
def doneVerdict (d : Option Nat) (hi lo : Nat) : Verdict := illegalIf (d = some 255) 0 hi lo

/-- Sync-target exception: TKIND, TARGET, FLAG (R155 KIND 0x04). -/
def syncInfo (tkind target flag : Nat) : Nat := tkind * 2 ^ 48 + target * 2 ^ 40 + flag * 2 ^ 32

/-- A DONE increment is an ADD of the context that issued the instruction, and follows the updates of that context to the flag that
are still on their way (R137, R210). -/
def addDone (s : State) (t c : Nat) : Option Nat → State
  | none => s
  | some f =>
    if s.sigs.any (fun q => decide (q.src = .ctx t c) && !q.toNewt && decide (q.target = t) && decide (q.flag = f)) then
      { s with sigs := s.sigs ++ [{ src := .ctx t c, toNewt := false, target := t, flag := f, set := false, value := 1,
                                    part := (partOfTile s t).getD 0, steep := 0 }] }
    else modTile s t (fun x => addFlag x f 1)

/-- A signal applied to a tile's flag (R146). -/
def applySig (x : Tile) (g : Sig) : Tile := if g.set then setFlag x g.flag g.value else addFlag x g.flag g.value

/-- Destination of a drain, by its stage descriptor (R140): 0 scratchpad, 1 stream, 2 remote tile, 3 chain. -/
def DrainOp.dest (d : DrainOp) : Nat := bits d.desc 29 28
/-- Scratchpad work of a context that a FENCE of scope 0 covers is done (R215): drains that stay in the tile or write statistics there,
vector results, landings of its memory reads. -/
def localDone (x : Tile) (c : Nat) : Bool :=
  x.drains.all (fun d => !(decide (d.ctx = c) && (d.dest = 0 || d.dest = 3 || bit d.desc 44))) && x.vecs.all (fun v => decide (v.ctx ≠ c)) &&
  x.handles.all (fun h => !(h.2.busy && h.2.ctx = c && (h.2.dir = 0 || h.2.dir = 2)))
/-- Remote drains and transfers of a context have been acknowledged. -/
def remoteDone (s : State) (t c : Nat) : Bool :=
  s.remotes.all (fun r => !(decide (r.src = t) && decide (r.ctx = c) && !r.read)) &&
  (getTile s t).drains.all (fun d => !(decide (d.ctx = c) && d.dest = 2)) &&
  (getTile s t).handles.all (fun h => !(h.2.busy && h.2.ctx = c && h.2.dir = 3))
/-- Writes of a context to memory are visible: its own transfers, and what its drains have delivered to a drain-fed program of any
context, down to the merge-buffer entries that hold their bytes (R185, R215). -/
def memoryDone (x : Tile) (c : Nat) : Bool :=
  x.drains.all (fun d => !(decide (d.ctx = c) && d.dest = 1)) &&
  x.handles.all (fun h => !(h.2.busy && h.2.dir = 1 &&
    ((decide (h.2.ctx = c) && !h.2.drainFed) || h.2.fedRuns.any (fun q => decide (q.1 = c)) ||
     ((decide (h.2.ctx = c) || h.2.fedBy.getLsbD c) && x.merge.any (fun m => m.handles.getLsbD h.1)))))
/-- Signals of a context still on their way: to this tile, to any tile, to newts too, by scope. -/
def signalsDone (s : State) (t c scope : Nat) : Bool :=
  s.sigs.all (fun g => !(g.src = .ctx t c && (scope = 2 || (!g.toNewt && (scope = 1 || g.target = t)))))
/-- Everything a FENCE of a scope covers has taken effect (R215). -/
def fenceDone (s : State) (t c scope : Nat) : Bool :=
  localDone (getTile s t) c && signalsDone s t c scope &&
  (scope = 0 || remoteDone s t c) && (scope ≠ 2 || memoryDone (getTile s t) c)

end Sys2Proof.Machine
end

