-- ==== Sys2Proof/Machine/Issue.lean ====
section
/-! DEFINITION. Issue.lean: taking an instruction from the head of a context's queue (R122, R127-R130, R148-R151,
R207, R208). The command carries the instruction; the context's pc says where it stands in the program region. -/

namespace Sys2Proof.Machine

open Sys2Proof

/-- An instruction at issue. -/
structure Iss where
  s : State
  t : Nat
  c : Nat
  op : Nat
  w : BitVec 128
  x : Tile
  k : Ctx
  p : Nat
  part : Part

/-- The instruction word: bits 127:8 of the command with the opcode (R121). -/
def wordOf (w : BitVec 120) (op : Nat) : BitVec 128 := w ++ BitVec.ofNat 8 op
def Iss.bits (i : Iss) (hi lo : Nat) : Nat := Sys2Proof.Machine.bits i.w hi lo
def Iss.bit (i : Iss) (b : Nat) : Bool := i.w.getLsbD b
def Iss.reg (i : Iss) (r : Nat) : Word64 := readS i.k r
/-- Row origin (R124). -/
def Iss.org (i : Iss) : Nat := (readS i.k 31).toNat

/-- Shape of the instruction as TILE_ERR_STATUS gives it (R88): a matrix instruction's own, a drain's slot's. -/
def issShape (i : Iss) : Nat :=
  if i.op = 0x40 ∨ i.op = 0x41 ∨ i.op = 0x42 then i.bits 9 8
  else if i.op = 0x48 then (match (getSlot i.x (i.bits 11 10)).shape with | .normal => 0 | .quadrant => 1 | .wide => 2 | .shift => 3)
  else 0

/-- The program counter after an instruction that does not jump: a loop whose body ends here runs again or closes (R148). -/
def nextPc (pc : Nat) : List LoopFrame → Nat × List LoopFrame
  | [] => (pc, [])
  | f :: r => if f.after = pc then (if 1 < f.left then (f.first, { f with left := f.left - 1 } :: r) else nextPc pc r) else (pc, f :: r)
/-- A jump ends the loops whose bodies it leaves (R148). -/
def leaveLoops (target : Nat) : List LoopFrame → List LoopFrame
  | [] => []
  | f :: r => if f.first ≤ target ∧ target < f.after then f :: r else leaveLoops target r

/-- The unit that accepts an instruction, one in each ACLK (R128). -/
def unitOf (op : Nat) : Nat :=
  if op = 0x40 ∨ op = 0x41 ∨ op = 0x42 then 1 else if op = 0x44 then 2 else if op = 0x45 then 3 else if op = 0x48 then 4
  else if 0x80 ≤ op ∧ op < 0xA0 then 5 else if 0xA0 ≤ op ∧ op < 0xC0 then 6 else if 0xC0 ≤ op then 7 else 8
/-- Another context's head waits for the same unit, and has waited longer, or as long in a lower context: it is taken first (R128). -/
def Iss.older (i : Iss) : Bool :=
  let mine := if i.k.st = .waiting then i.k.since else now i.s
  (List.range 4).any (fun d =>
    let k := getCtx i.x d
    decide (d ≠ i.c) && k.st = .waiting && decide (k.cause = 9) && k.held.isNone && decide (k.unit = unitOf i.op) &&
    (decide (k.since < mine) || (decide (k.since = mine) && decide (d < i.c))))
/-- The unit is busy, or taken by an older head (R208 cause 9). -/
def Iss.unitHold (i : Iss) (busy : Bool) : Verdict := holdIf (busy || i.older) 9 0

/-- The context after its head was accepted: RUNNING, at the next instruction. -/
def acceptCtx (k : Ctx) : Ctx :=
  let (pc, l) := nextPc (k.pc + 16) k.loops
  { k with st := .running, cause := 0, object := 0, held := none, pc := pc, loops := l }
/-- The context continues elsewhere. -/
def jumpCtx (k : Ctx) (target : Nat) : Ctx :=
  { k with st := .running, cause := 0, object := 0, held := none, pc := target, loops := leaveLoops target k.loops }
/-- The context's head is held (R208); the time it began to wait is kept for the longest-waiting rules. -/
def holdCtx (nowNs : Nat) (k : Ctx) (cause object : Nat) : Ctx :=
  { k with st := .waiting, cause := cause, object := object, since := if k.st = .waiting then k.since else nowNs }
/-- The tile once the head of a context is held. -/
def holdHead (nowNs : Nat) (x : Tile) (c op cause object : Nat) : Tile :=
  modCtx x c (fun k => { holdCtx nowNs k cause object with unit := unitOf op })

/-- The state once the fetch has corrected a single-bit error of the instruction's words (R161). -/
def fetched (s : State) (t c : Nat) : State :=
  let l := [((getCtx (getTile s t) c).pc, 16)]
  if (getTile s t).oneBit.any (fun w => inRanges w l) then modTile s t (fun x => correctReads x l) else s

/-- The tile takes an instruction: registers as `f` leaves them, the rest as `g` does; a lent power share is reclaimed
(R223). -/
def Iss.accept (i : Iss) (f : Ctx → Ctx) (g : Tile → Tile) : State :=
  setTile i.s i.t (g (modCtx { i.x with lending := false } i.c (fun k => f (acceptCtx k))))

/-- A fetch address within the program region (R149). -/
def fetchOk (x : Tile) (pc : Nat) : Bool :=
  match progRegion x with
  | some e => decide (entBase e ≤ pc) && decide (pc + 16 ≤ entBase e + entLen e) && pc % 16 = 0
  | none => false

/-- Issue of one instruction: the context must be RUNNING or held by a condition of R208 that is tried again; the fetch,
reserved-field and operand checks come first, in that order. An instruction that no context can take changes nothing
(log entry 1). -/
def issue (s : State) (t c op : Nat) (w : BitVec 120) (rsv : List (Nat × Nat)) (check : Iss → Verdict) (rows : Iss → Rows)
    (go : Iss → State) : Res :=
  match partOfTile s t with
  | none => .next s
  | some p =>
    match getPart? s p with
    | none => .next s
    | some part =>
      let before := s
      let s := fetched s t c
      let x := getTile s t
      let k := getCtx x c
      let i : Iss := { s := s, t := t, c := c, op := op, w := wordOf w op, x := x, k := k, p := p, part := part }
      if ¬ (k.st = .running ∨ k.st = .waiting) ∨ k.held.isSome then .next before
      else if fetchOk x k.pc = false then .next (takeException before t c 0x0A op k.pc 1 (addrInfo 5 k.pc) none)
      else match poisoned x [(k.pc, 16)] with
        | some q => .next (spadFault before t q 0)
        | none =>
          match badReserved i.w rsv with
          | some (hi, lo) => .next (takeException s t c 2 op k.pc 5 (fieldInfo 0 hi lo) none)
          | none =>
            match check i with
            | .go => .next (go i)
            | .hold cause obj => .next (modTile s t (fun x => holdHead (now s) x c op cause obj))
            | .wait l => .next (modTile s t (fun x => holdHead (now s) (headClaims x c l) c op 4 0))
            | .exc code kind v => .next (takeException s t c code op k.pc kind v (rows i))
            | .poison q => .next (spadFault s t q (issShape i))
            | .stay => .next (modTile s t (fun x => modCtx x c (fun k => { k with st := .running, cause := 0, object := 0, atEnd := true })))

/-- No tile rows are attributed to the instruction (R152). -/
def noRows (_ : Iss) : Rows := none

end Sys2Proof.Machine
end

