-- ==== Sys2Proof/Machine/Scalar.lean ====
section
/-! DEFINITION. Scalar.lean: the scalar and register class (R124, R147, R161, R165-R172, R243). -/

namespace Sys2Proof.Machine

open Sys2Proof

/-- Reserved bits of every scalar instruction (R147). -/
def scalarRsv : List (Nat × Nat) := [(63, 24)]
def Iss.rd (i : Iss) : Nat := i.bits 12 8
def Iss.ra (i : Iss) : Word64 := i.reg (i.bits 17 13)
def Iss.imm (i : Iss) : Word64 := i.w.extractLsb' 64 64
/-- The second operand: B, or the immediate with IMM (R147). -/
def Iss.rb (i : Iss) : Word64 := if i.bit 23 then i.imm else i.reg (i.bits 22 18)
def Iss.immNat (i : Iss) : Nat := i.imm.toNat

/-- An instruction that writes a scalar register from its two operands. -/
def scalarOp (s : State) (t : Fin 64) (c : Fin 4) (op : Nat) (w : BitVec 120) (f : Iss → Word64) : Res :=
  issue s t c op w scalarRsv (fun _ => .go) noRows (fun i => i.accept (fun k => writeS k i.rd (f i)) id)

/-- Signed order of 64-bit values. -/
def sle (a b : Word64) : Bool := decide (a.toInt ≤ b.toInt)

def execSli (t : Fin 64) (c : Fin 4) (w : BitVec 120) (s : State) : Res := scalarOp s t c 0x20 w (fun i => i.imm)
def execSadd (t : Fin 64) (c : Fin 4) (w : BitVec 120) (s : State) : Res := scalarOp s t c 0x21 w (fun i => i.ra + i.rb)
def execSsub (t : Fin 64) (c : Fin 4) (w : BitVec 120) (s : State) : Res := scalarOp s t c 0x22 w (fun i => i.ra - i.rb)
def execSmul (t : Fin 64) (c : Fin 4) (w : BitVec 120) (s : State) : Res := scalarOp s t c 0x23 w (fun i => i.ra * i.rb)
def execSand (t : Fin 64) (c : Fin 4) (w : BitVec 120) (s : State) : Res := scalarOp s t c 0x24 w (fun i => i.ra &&& i.rb)
def execSor (t : Fin 64) (c : Fin 4) (w : BitVec 120) (s : State) : Res := scalarOp s t c 0x25 w (fun i => i.ra ||| i.rb)
def execSxor (t : Fin 64) (c : Fin 4) (w : BitVec 120) (s : State) : Res := scalarOp s t c 0x26 w (fun i => i.ra ^^^ i.rb)
def execSshl (t : Fin 64) (c : Fin 4) (w : BitVec 120) (s : State) : Res := scalarOp s t c 0x27 w (fun i => i.ra <<< (i.rb.toNat % 64))
def execSshr (t : Fin 64) (c : Fin 4) (w : BitVec 120) (s : State) : Res := scalarOp s t c 0x28 w (fun i => i.ra.sshiftRight (i.rb.toNat % 64))
def execSshrl (t : Fin 64) (c : Fin 4) (w : BitVec 120) (s : State) : Res := scalarOp s t c 0x29 w (fun i => i.ra >>> (i.rb.toNat % 64))
def execSmin (t : Fin 64) (c : Fin 4) (w : BitVec 120) (s : State) : Res := scalarOp s t c 0x2A w (fun i => if sle i.ra i.rb then i.ra else i.rb)
def execSmax (t : Fin 64) (c : Fin 4) (w : BitVec 120) (s : State) : Res := scalarOp s t c 0x2B w (fun i => if sle i.ra i.rb then i.rb else i.ra)

/-- A word access as an operation: its one operand (R166, R167). -/
def wordOpnd (a n : Nat) (write : Bool) : Opnd := { num := 0, write := write, base := a, ranges := [(a, n)] }
/-- The tile once the access has claimed, and where the access falls (R172). -/
def wordClaim (i : Iss) (a n : Nat) (write : Bool) : Tile := headClaims i.x i.c [wordOpnd a n write]
def wordAddr (i : Iss) (a n : Nat) (write : Bool) : Nat := a + claimShift (wordClaim i a n write) (headOp i.x i.c) 0
/-- Checks of SLD, SST, MLD, MST: alignment, range, slot rules, in-context tracking, the claim (R147, R165-R172). -/
def wordCheck (i : Iss) (a n : Nat) (align : Nat) (write : Bool) : Verdict :=
  firstOf [excIf (a % align ≠ 0) 6 6 a, spadVerdict i.x (wordOpnd a n write) 6,
    holdIf (i.x.tracks.any (fun k => decide (k.ctx = i.c) && meets (a, n) (k.lo, k.hi - k.lo))) 10 0,
    (if claimsTaken (wordClaim i a n write) (headOp i.x i.c) then .go else .wait [wordOpnd a n write]),
    (if write then .go else match poisoned i.x [(wordAddr i a n write, n)] with | some q => .poison q | none => .go)]
/-- The tile after the access: claims completed, errors read corrected (R161, R167). -/
def wordRead (i : Iss) (a n : Nat) (x : Tile) : Tile :=
  correctReads (completeOp (headClaims x i.c [wordOpnd a n false]) (headOp x i.c)) [(wordAddr i a n false, n)]
def wordWrite (i : Iss) (a : Nat) (l : List Byte) (x : Tile) : Tile :=
  spadPut (completeOp (headClaims x i.c [wordOpnd a l.length true]) (headOp x i.c)) (wordAddr i a l.length true) l

/-- Address of SLD and SST: s[A] plus the immediate, modulo 2^64. -/
def memAddr (i : Iss) : Nat := (i.ra + i.imm).toNat

def execSld (t : Fin 64) (c : Fin 4) (w : BitVec 120) (s : State) : Res :=
  issue s t c 0x2C w scalarRsv (fun i => wordCheck i (memAddr i) 8 8 false) noRows
    (fun i => i.accept (fun k => writeS k i.rd (readLE i.x.spad (wordAddr i (memAddr i) 8 false) 8 64)) (wordRead i (memAddr i) 8))
/-- SST stores s[D] (log entry 21). -/
def execSst (t : Fin 64) (c : Fin 4) (w : BitVec 120) (s : State) : Res :=
  issue s t c 0x2D w scalarRsv (fun i => wordCheck i (memAddr i) 8 8 true) noRows
    (fun i => i.accept id (wordWrite i (memAddr i) (natToBytes 8 (i.reg i.rd).toNat)))
/-- BSET clamps the exact sum (R147). -/
def execBset (t : Fin 64) (c : Fin 4) (w : BitVec 120) (s : State) : Res :=
  issue s t c 0x2E w scalarRsv (fun _ => .go) noRows
    (fun i => i.accept (fun k => writeB k (i.bits 11 8)
      (BitVec.ofNat 32 (min (max (i.ra.toInt + i.imm.toInt) 0) 0xFFFFFFFF).toNat)) id)
def execMld (t : Fin 64) (c : Fin 4) (w : BitVec 120) (s : State) : Res :=
  issue s t c 0x2F w scalarRsv (fun i => wordCheck i i.ra.toNat 64 1 false) noRows
    (fun i => i.accept (fun k => writeM k (i.bits 10 8) (readLE i.x.spad (wordAddr i i.ra.toNat 64 false) 64 512)) (wordRead i i.ra.toNat 64))
def execMst (t : Fin 64) (c : Fin 4) (w : BitVec 120) (s : State) : Res :=
  issue s t c 0x30 w scalarRsv (fun i => wordCheck i i.ra.toNat 64 1 true) noRows
    (fun i => i.accept id (wordWrite i i.ra.toNat (natToBytes 64 (readM i.k (i.bits 10 8)).toNat)))

/-- A mask from a test of its 512 bits. -/
def maskOf (f : Nat → Bool) : BitVec 512 := BitVec.ofNat 512 ((List.range 512).foldl (fun a i => a + (if f i then 2 ^ i else 0)) 0)
/-- MRNG takes its limits as signed numbers (log entry 21). -/
def execMrng (t : Fin 64) (c : Fin 4) (w : BitVec 120) (s : State) : Res :=
  issue s t c 0x31 w scalarRsv (fun _ => .go) noRows
    (fun i => i.accept (fun k => writeM k (i.bits 10 8) (maskOf (fun n => decide (i.ra.toInt ≤ n) && decide ((n : Int) < i.rb.toInt)))) id)
/-- A test of the row-map entry of tile row s[A] + n; false at or beyond RPT (R147). -/
def rowTest (i : Iss) (f : Word64 → Bool) (n : Nat) : Bool :=
  let r : Int := i.ra.toInt + n
  decide (0 ≤ r) && decide (r < ((i.part.running.map (·.rpt)).getD 0 : Nat)) && f (rowWord i.x i.part r.toNat)
/-- Row-map bytes that MVALID and MSEG read. -/
def mapRanges (i : Iss) : List (Nat × Nat) :=
  (List.range 512).filterMap (fun (n : Nat) =>
    let r : Int := i.ra.toInt + n
    if 0 ≤ r ∧ r < 512 then some (rowEntryAddr i.x i.part r.toNat + 4, 3) else none)
def mapCheck (i : Iss) (l : List (Nat × Nat)) : Verdict := match poisoned i.x l with | some q => .poison q | none => .go
def execMvalid (t : Fin 64) (c : Fin 4) (w : BitVec 120) (s : State) : Res :=
  issue s t c 0x34 w scalarRsv (fun i => mapCheck i (mapRanges i)) noRows
    (fun i => i.accept (fun k => writeM k (i.bits 10 8) (maskOf (rowTest i rowValidBit))) (fun x => correctReads x (mapRanges i)))
def execMseg (t : Fin 64) (c : Fin 4) (w : BitVec 120) (s : State) : Res :=
  issue s t c 0x35 w scalarRsv (fun i => mapCheck i (mapRanges i)) noRows
    (fun i => i.accept (fun k => writeM k (i.bits 10 8) (maskOf (rowTest i (fun e => rowValidBit e && rowSegStart e)))) (fun x => correctReads x (mapRanges i)))
/-- Row-map bytes RMAP reads: none beyond the window, where it reads 0 (log entry 21). -/
def rmapRanges (i : Iss) : List (Nat × Nat) := if i.ra.toNat < 512 then [(rowEntryAddr i.x i.part i.ra.toNat, 8)] else []
def execRmap (t : Fin 64) (c : Fin 4) (w : BitVec 120) (s : State) : Res :=
  issue s t c 0x32 w scalarRsv (fun i => mapCheck i (rmapRanges i)) noRows
    (fun i => i.accept (fun k => writeS k i.rd (rowWord i.x i.part i.ra.toNat)) (fun x => correctReads x (rmapRanges i)))
def execFrd (t : Fin 64) (c : Fin 4) (w : BitVec 120) (s : State) : Res :=
  scalarOp s t c 0x33 w (fun i => (getFlag i.x (i.immNat % 256)).setWidth 64)

end Sys2Proof.Machine
end

