-- ==== Sys2Proof/Machine/Control.lean ====
section
/-! DEFINITION. Control.lean: the control class and instructions of no listed opcode (R122, R148-R150, R207, R221). -/

namespace Sys2Proof.Machine

open Sys2Proof

def execNopInstruction (t : Fin 64) (c : Fin 4) (w : BitVec 120) (s : State) : Res :=
  issue s t c 0x00 w [(127, 8)] (fun _ => .go) noRows (fun i => i.accept id id)

/-- Everything the context accepted earlier has completed (R148). -/
def earlierDone (x : Tile) (c : Nat) : Bool :=
  x.mats.all (fun m => decide (m.ctx ≠ c)) && x.drains.all (fun d => decide (d.ctx ≠ c)) && x.vecs.all (fun v => decide (v.ctx ≠ c)) &&
  x.rescales.all (fun r => decide (r.ctx ≠ c)) && x.handles.all (fun h => !(h.2.busy && h.2.ctx = c))
/-- Slots of a context that are not FREE, as a bit mask (R148, R155). -/
def openSlots (x : Tile) (c : Nat) : Nat :=
  ((List.range 4).map (fun i => if (getSlot x i).st ≠ .free ∧ (getSlot x i).owner = c then 2 ^ i else 0)).sum
/-- Every context of a partition's tiles has ended its task (R221). -/
def allEnded (s : State) (part : Part) : Bool :=
  (maskTiles part.tileMask).all (fun t => (List.range 4).all (fun c =>
    let k := getCtx (getTile s t) c
    k.st = .ended || k.st = .idle))
/-- The steep abort of R221: the register's flag, and the charge to the image. -/
def syncAbort (s : State) (p : Nat) (flag : Nat) : State :=
  abortSteep (modPart s p (fun x => { x with syncStatus := setBit x.syncStatus flag true })) p .image

/-- END completes once all earlier work has; a slot still open is an exception. The last END of a steep before B(n)
aborts it (R148, R221). -/
def execEndI (t : Fin 64) (c : Fin 4) (w : BitVec 120) (s : State) : Res :=
  issue s t c 0x01 w [(127, 8)]
    (fun i => if !earlierDone i.x i.c then .stay else if openSlots i.x i.c ≠ 0 then .exc 0x0B 0 (openSlots i.x i.c) else .go) noRows
    (fun i =>
      let s := i.accept (fun k => { k with st := .ended, loops := [], atEnd := false }) id
      if i.part.phase ≠ .none ∧ allEnded s i.part then syncAbort s i.p 62 else s)

/-- Target of a jump: the instruction's own address plus the offset in instructions (log entry 22). -/
def jumpTarget (i : Iss) (off : Int) : Int := (i.k.pc : Int) + 16 * off
/-- A branch target outside the program region is a control-flow exception (R149). -/
def targetCheck (i : Iss) (a : Int) : Verdict :=
  excIf (decide (a < 0) || !fetchOk i.x a.toNat) 0x0A 5 (BitVec.ofInt 32 a).toNat

def execJmp (t : Fin 64) (c : Fin 4) (w : BitVec 120) (s : State) : Res :=
  issue s t c 0x02 w [(127, 32)] (fun i => targetCheck i (jumpTarget i (signed 24 (i.bits 31 8)))) noRows
    (fun i => i.accept (fun _ => jumpCtx i.k (jumpTarget i (signed 24 (i.bits 31 8))).toNat) id)

/-- COND of BR (R148). -/
def brHolds (cond : Nat) (a b : Word64) : Bool :=
  match cond with
  | 0 => a = b
  | 1 => a ≠ b
  | 2 => decide (a.toInt < b.toInt)
  | 3 => decide (b.toInt ≤ a.toInt)
  | 4 => decide (a.toNat < b.toNat)
  | _ => decide (b.toNat ≤ a.toNat)
def brTaken (i : Iss) : Bool := brHolds (i.bits 20 18) (i.reg (i.bits 12 8)) (i.reg (i.bits 17 13))
def brTarget (i : Iss) : Int := jumpTarget i (signed 32 (i.bits 63 32))
def execBr (t : Fin 64) (c : Fin 4) (w : BitVec 120) (s : State) : Res :=
  issue s t c 0x03 w [(31, 21), (127, 64)]
    (fun i => firstOf [illegalIf (decide (5 < i.bits 20 18)) 0 20 18, if brTaken i then targetCheck i (brTarget i) else .go]) noRows
    (fun i => if brTaken i then i.accept (fun _ => jumpCtx i.k (brTarget i).toNat) id else i.accept id id)

/-- LOOP: body length, and the address after the body (R148). -/
def loopAfter (i : Iss) : Nat := i.k.pc + 16 + 16 * i.bits 31 16
def loopCtx (i : Iss) : Ctx :=
  let n := (i.reg (i.bits 12 8)).toNat
  if n = 0 then
    let (pc, l) := nextPc (loopAfter i) i.k.loops
    { i.k with st := .running, cause := 0, object := 0, pc := pc, loops := l }
  else { i.k with st := .running, cause := 0, object := 0, pc := i.k.pc + 16, loops := { first := i.k.pc + 16, after := loopAfter i, left := n } :: i.k.loops }
def execLoop (t : Fin 64) (c : Fin 4) (w : BitVec 120) (s : State) : Res :=
  issue s t c 0x04 w [(15, 13), (127, 32)]
    (fun i => firstOf [illegalIf (i.bits 31 16 = 0) 0 31 16,
      excIf (decide (4 ≤ i.k.loops.length) && (i.reg (i.bits 12 8)).toNat ≠ 0) 0x0A 5 i.k.pc]) noRows
    (fun i => i.accept (fun _ => loopCtx i) id)

/-- Opcodes the chapter lists (R122). -/
def listedOpcode (op : Nat) : Bool :=
  decide (op ≤ 0x04) || (decide (0x20 ≤ op) && decide (op ≤ 0x35)) || [0x40, 0x41, 0x42, 0x44, 0x45, 0x48].contains op ||
  (decide (0x80 ≤ op) && decide (op ≤ 0x86)) || (decide (0x89 ≤ op) && decide (op ≤ 0x8E)) || op = 0xA0 || op = 0xA1 ||
  (decide (0xC0 ≤ op) && decide (op ≤ 0xC4))
/-- An opcode that is not listed is an illegal-opcode exception (R122, R155 KIND 0x05). -/
def execIllegalOpcode (t : Fin 64) (c : Fin 4) (w : BitVec 128) (s : State) : Res :=
  if listedOpcode (bits w 7 0) then .next s
  else issue s t c (bits w 7 0) (w.extractLsb' 8 120) [] (fun _ => .exc 1 5 (fieldInfo 0 7 0)) noRows (fun i => i.s)

end Sys2Proof.Machine
end

