-- ==== Sys2Proof/Machine/Sync.lean ====
section
/-! DEFINITION. Sync.lean: the sync class, the events that complete its waits, the wait limit, the hang timeout, power
lending and the scrubber (R89, R145, R146, R161, R162, R209-R225). -/

namespace Sys2Proof.Machine

open Sys2Proof

/-- Number of the steep a partition runs. -/
def steepNow (part : Part) : Nat := (part.running.map (·.n)).getD 0

/-- SIGNAL: the tile or newt named (R145). -/
def sigTarget (i : Iss) : Nat := if i.bit 23 then bits (i.reg (i.bits 28 24)) 5 0 else i.bits 22 17
def sigCheck (i : Iss) : Verdict :=
  let tg := sigTarget i
  let flag := i.bits 15 8
  firstOf [illegalIf (decide (1 < i.bits 30 29)) 0 30 29,
    (if flag = 255 then .exc 9 4 (syncInfo 3 tg flag) else .go),
    (if i.bit 16 then (if 7 < tg then .exc 9 4 (syncInfo 1 tg flag) else .go)
     else if (tileOfIndex i.part tg).isNone then .exc 9 4 (syncInfo 0 tg flag) else .go)]
/-- The newt that has the work of a named one: itself, or, once it is lost, the one that takes over (R214, R264, R279). -/
def newtFor (s : State) (n : Nat) : Nat := if s.iod.newtsLost.getLsbD n then (pickNewt s).getD n else n
def sigOf (i : Iss) : Sig :=
  { src := .ctx i.t i.c, toNewt := i.bit 16, target := if i.bit 16 then newtFor i.s (sigTarget i) else (tileOfIndex i.part (sigTarget i)).getD 0,
    flag := i.bits 15 8, set := i.bits 30 29 = 1, value := BitVec.ofNat 32 (i.bits 63 32), part := i.p, steep := steepNow i.part }
/-- SIGNAL is posted: its context goes on at once (R145, R212). -/
def execSignal (t : Fin 64) (c : Fin 4) (w : BitVec 120) (s : State) : Res :=
  issue s t c 0xC0 w [(31, 31), (127, 64)] sigCheck noRows (fun i =>
    let s := i.accept id (fun x => tileCtr x 0xC0 1)
    { s with sigs := s.sigs ++ [sigOf i] })

/-- Another CONSUME waiter of a lower context is served first (R146). -/
def lowerConsumer (x : Tile) (c f : Nat) : Bool :=
  (List.range c).any (fun d => match (getCtx x d).held with
    | some (.wait g cond consume v) => g = f && consume && cond = 0 && condHolds cond (getFlag x g) v
    | _ => false)
/-- VALUE of a WAIT (R145). -/
def waitValue (i : Iss) : Word32 := if i.bit 19 then (i.reg (i.bits 24 20)).setWidth 32 else BitVec.ofNat 32 (i.bits 63 32)
def execWait (t : Fin 64) (c : Fin 4) (w : BitVec 120) (s : State) : Res :=
  issue s t c 0xC1 w [(31, 25), (127, 64)] (fun i => illegalIf (i.bits 17 16 = 3) 0 17 16) noRows (fun i =>
    let f := i.bits 15 8
    if condHolds (i.bits 17 16) (getFlag i.x f) (waitValue i) ∧ ¬ (i.bit 18 ∧ i.bits 17 16 = 0 ∧ lowerConsumer i.x i.c f) then
      i.accept id (fun x => consumeFlag x f (i.bits 17 16) (i.bit 18) (waitValue i))
    else modTile i.s i.t (fun x => modCtx x i.c (fun k =>
      { holdCtx (now i.s) k 1 f with held := some (.wait f (i.bits 17 16) (i.bit 18) (waitValue i)) })))

/-- A held WAIT whose condition holds is accepted (R146, R208). -/
def execWaitSatisfied (t : Fin 64) (c : Fin 4) (s : State) : Res :=
  let x := getTile s t
  match (getCtx x c).held with
  | some (.wait f cond consume v) =>
    if condHolds cond (getFlag x f) v ∧ ¬ (consume ∧ cond = 0 ∧ lowerConsumer x c f) then
      .next (setTile s t { consumeFlag (modCtx x c acceptCtx) f cond consume v with lending := false })
    else .next s
  | _ => .next s

def execFset (t : Fin 64) (c : Fin 4) (w : BitVec 120) (s : State) : Res :=
  issue s t c 0xC4 w [(31, 16), (127, 64)]
    (fun i => if i.bits 15 8 = 255 then .exc 9 4 (syncInfo 3 i.t 255) else .go) noRows (fun i =>
    let g : Sig := { src := .ctx i.t i.c, toNewt := false, target := i.t, flag := i.bits 15 8, set := true,
                     value := BitVec.ofNat 32 (i.bits 63 32), part := i.p, steep := steepNow i.part }
    if i.s.sigs.any (fun q => q.src = g.src && !q.toNewt && q.target = g.target && q.flag = g.flag) then
      let s := i.accept id id
      { s with sigs := s.sigs ++ [g] }
    else i.accept id (fun x => applySig x g))

def execFence (t : Fin 64) (c : Fin 4) (w : BitVec 120) (s : State) : Res :=
  issue s t c 0xC2 w [(127, 10)] (fun i => illegalIf (i.bits 9 8 = 3) 0 9 8) noRows (fun i =>
    if fenceDone i.s i.t i.c (i.bits 9 8) then i.accept id id
    else modTile i.s i.t (fun x => modCtx x i.c (fun k => { holdCtx (now i.s) k 2 0 with held := some (.fence (i.bits 9 8)) })))

/-- A context arrives at a numbered barrier (R218). -/
def arriveBarrier (s : State) (p t c num : Nat) : State :=
  let s := modTile s t (fun x => modCtx x c (fun k => { holdCtx (now s) k 3 num with held := some (.barrier num) }))
  modPart s p (fun x => { x with arrived := tabModify x.arrived num [] (fun l => l ++ [(t, c)]) })
/-- Context mask of a barrier number (R217). -/
def barrierMask (part : Part) (num : Nat) : BitVec 4 :=
  match part.image with | some img => img.barrierTable.getD num 0 | none => 0
def execBarrier (t : Fin 64) (c : Fin 4) (w : BitVec 120) (s : State) : Res :=
  issue s t c 0xC3 w [(127, 12)]
    (fun i => if (barrierMask i.part (i.bits 11 8)).getLsbD i.c then .go else .exc 9 4 (syncInfo 2 (i.bits 11 8) 0)) noRows (fun i =>
    if fenceDone i.s i.t i.c 2 then arriveBarrier i.s i.p i.t i.c (i.bits 11 8)
    else modTile i.s i.t (fun x => modCtx x i.c (fun k => { holdCtx (now i.s) k 2 0 with held := some (.barrier (i.bits 11 8)) })))

/-- A FENCE completes, or the fence of a BARRIER, whose context then arrives (R215, R218). -/
def execFenceComplete (t : Fin 64) (c : Fin 4) (s : State) : Res :=
  let k := getCtx (getTile s t) c
  match k.held with
  | some (.fence scope) =>
    if fenceDone s t c scope then .next (modTile s t (fun x => { modCtx x c acceptCtx with lending := false })) else .next s
  | some (.barrier num) =>
    match partOfTile s t with
    | some p => if k.cause = 2 ∧ fenceDone s t c 2 then .next (arriveBarrier s p t c num) else .next s
    | none => .next s
  | _ => .next s

/-- Signals of one source to one target are applied in issue order (R213). -/
def sigBlocked (l : List Sig) (i : Nat) (g : Sig) : Bool :=
  (l.take i).any (fun q => q.src = g.src && q.toNewt = g.toNewt && q.target = g.target)
/-- Whether a signal's source is another tile or a newt, as TILE_SIGNALS_IN counts (R226). -/
def sigForeign (g : Sig) : Bool := match g.src with | .ctx t _ => decide (t ≠ g.target) | .newt _ => true | .engine => false
/-- A newt signal of another steep is stale (R211). -/
def sigStale (s : State) (g : Sig) : Bool :=
  match g.src with
  | .newt _ => (match getPart? s g.part with | some x => x.phase = .none || decide (steepNow x ≠ g.steep) | none => true)
  | _ => false
/-- A signal reaches its target (R146, R211, R213, R214); at a newt it changes what the newt has been told under that number (log entry
157). -/
def execSignalArrive (i : Nat) (s : State) : Res :=
  match s.sigs[i]? with
  | none => .next s
  | some g =>
    if sigBlocked s.sigs i g then .next s
    else
      let s := { s with sigs := dropIdx s.sigs i }
      if g.toNewt then
        let k := g.target * 256 + g.flag
        .next { s with iod := { s.iod with newtFlags := smSet s.iod.newtFlags k (if g.set then g.value else smGet s.iod.newtFlags k + g.value) } }
      else if sigStale s g then .next (modTile s g.target (fun x => tileCtr x 0xD0 1))
      else .next (modTile s g.target (fun x => tileCtr (applySig x g) 0xC8 (b2n (sigForeign g))))

/-- A remote transfer that has reached its target waits for a claim there; it and those of its source and target behind it are held
(R176). -/
def remoteHeld (s : State) (r : Remote) : Bool := match r.op with | some op => !claimsTaken (getTile s r.dst) op | none => false
def remoteStuck (s : State) (r : Remote) : Bool := s.remotes.any (fun q => decide (q.src = r.src) && decide (q.dst = r.dst) && remoteHeld s q)
/-- A drain's row waits for a claim, in its own tile or at a remote target (R74). -/
def drainWaits (s : State) (x : Tile) (d : DrainOp) : Bool :=
  !claimsTaken x d.id || (match d.remoteOp with | some (u, op) => !claimsTaken (getTile s u) op | none => false)
/-- A stream handle has work that does not wait at a claim or for drain rows. -/
def handleMoves (s : State) (t : Nat) (x : Tile) (h : Nat × Handle) : Bool :=
  h.2.busy && h.2.loaded && claimsTaken x h.2.opId && !(h.2.drainFed && decide (h.2.fed = [])) &&
  !s.remotes.any (fun r => decide (r.src = t) && decide (r.handle = some h.1) && remoteStuck s r)
/-- Array, drain, rescale, vector or stream work of a tile is in progress; work that waits at a claim, or stands behind such work in
its unit, is a wait (R171, R221, R223). -/
def unitBusy (s : State) (t : Nat) : Bool :=
  let x := getTile s t
  (match x.mats with | m :: _ => m.loaded && claimsTaken x m.id | [] => false) ||
  (match x.drains with | d :: _ => !drainWaits s x d | [] => false) ||
  (match x.vecs with | v :: _ => claimsTaken x v.id | [] => false) || x.rescales ≠ [] || x.handles.any (handleMoves s t x)
/-- A context runs; one whose END waits for work of other units does not (R148, R171; log entry 143). -/
def anyRunning (x : Tile) : Bool := (List.range 4).any (fun c => (getCtx x c).st = .running && !(getCtx x c).atEnd)
/-- The partition is stalled (R221). -/
def stalled (s : State) (part : Part) : Bool :=
  (maskTiles part.tileMask).all (fun t => !anyRunning (getTile s t) && !unitBusy s t)
/-- Waiting contexts of a partition: tile, context, its state. -/
def waiters (s : State) (part : Part) : List (Nat × Nat × Ctx) :=
  (maskTiles part.tileMask).flatMap (fun t => (List.range 4).filterMap (fun c =>
    let k := getCtx (getTile s t) c
    if k.st = .waiting then some (t, c, k) else none))
/-- The context that has waited longest; ties to the lower tile, then the lower context (R225). -/
def longest : List (Nat × Nat × Ctx) → Option (Nat × Nat × Ctx)
  | [] => none
  | q :: r => match longest r with
    | some b => if b.2.2.since < q.2.2.since then some b else some q
    | none => some q
/-- PART_SYNC_STATUS with the recorded context (R225). -/
def recordWaiter (st : Word64) : Option (Nat × Nat × Ctx) → Word64
  | none => st
  | some (t, c, k) => setBits (setBits (setBits (setBits st 45 40 t) 39 38 c) 37 34 k.cause) 33 26 k.object
/-- The abort of the wait limit is not charged while a group of the partition is BROKEN, or within 20 µs of a reroute
(R368). -/
def lossExcused (s : State) (p : Nat) : Bool :=
  (groupsOf s p).any (fun g => g.2.st = .broken) ||
  (match s.fab.rerouted with | some t => decide (now s ≤ t + 20000) && decide (groupsOf s p ≠ []) | none => false)
/-- A partition stalled for its wait limit loses its steep, charged to the image (R221). -/
def execWaitLimitExpiry (p : Fin 64) (s : State) : Res :=
  match getPart? s p with
  | none => .next s
  | some x =>
    if x.phase ≠ .none ∧ stalled s x then
      let s := modPart s p (fun y => { y with syncStatus := setBit (recordWaiter y.syncStatus (longest (waiters s x))) 63 true })
      .next (abortSteep s p (if lossExcused s p then .none else .image))
    else .next s

/-- A tile with no context RUNNING and no unit active lends its power share (R223). -/
def execPowerLend (t : Fin 64) (s : State) : Res :=
  let x := getTile s t
  if anyRunning x || unitBusy s t then .next s else .next (setTile s t { x with lending := true })

/-- No progress for 1 ms with work pending faults the tile with cause 0x08; a held head is no pending work (R89, R222). -/
def execTileHangTimeout (t : Fin 64) (s : State) : Res :=
  let x := getTile s t
  if (anyRunning x || unitBusy s t) && !x.retired then .next (tileFault s t 8 none 0) else .next s

/-- The scrubber reads one line: single-bit errors are corrected, double-bit errors poison their words (R161, R162). -/
def execScrubTick (t : Fin 64) (line : Fin 32768) (s : State) : Res :=
  .next (modTile s t (fun x =>
    let inLine := fun (w : Nat) => decide (w / 128 = line.val)
    let x := correctReads x [(line.val * 512, 512)]
    let bad := x.twoBit.filter inLine
    { x with twoBit := x.twoBit.filter (fun w => !inLine w), poison := x.poison ++ bad,
             spadStatus := if bad = [] then x.spadStatus else setBits (setBit x.spadStatus 63 true) 21 0 (bad.getLastD 0) }))

end Sys2Proof.Machine
end

