-- ==== Sys2Proof/Machine/Matrix.lean ====
section
/-! DEFINITION. Matrix.lean: matrix instructions, pointer lists and fold descriptors, the array's arithmetic, the chained
operand, RESCALE and the leaf swap (R26-R36, R52, R55-R72, R77-R86, R96-R98, R108-R112, R117, R118, R131-R138, R191). -/

namespace Sys2Proof.Machine

open Sys2Proof

def shapeOf : Nat → Shape
  | 0 => .normal
  | 1 => .quadrant
  | 2 => .wide
  | _ => .shift
def shapeCode : Shape → Nat
  | .normal => 0
  | .quadrant => 1
  | .wide => 2
  | .shift => 3
def modeOf : Nat → AccMode
  | 0 => .fp32
  | 1 => .ext
  | _ => .int32

/-- Operand pairs (R28, R132). -/
def pairOk (a b : Nat) : Bool := (decide (a ≤ 4) && decide (b ≤ 4)) || (a = 5 && b = 5) || (a = 6 && b = 6) || (a = 7 && b = 7)
/-- acc1 and acc3 cannot be named while the EXT slot below them is live (R67). -/
def extShadow (x : Tile) (i : Nat) : Bool := i % 2 = 1 && (getSlot x (i - 1)).st ≠ .free && (getSlot x (i - 1)).mode = .ext
/-- A slot under RESCALE, as target or as source (R117). -/
def underRescale (x : Tile) (i : Nat) : Bool := x.rescales.any (fun r => r.target = i || r.source = i)
/-- A vector instruction in flight works on the slot. -/
def vecOnSlot (x : Tile) (i : Nat) : Bool :=
  x.vecs.any (fun v => (v.dk = 0 && v.d = i) || (v.ak = 0 && v.a = i) || (v.bk = 0 && v.b = i) || (v.ck = 0 && v.c = i))

/-- Reserved bits of the three matrix instructions (R131). -/
def matRsv (op : Nat) : List (Nat × Nat) :=
  [(31, 31), (55, 53), (79, 76)] ++ (if op = 0x40 then [(112, 105)] else if op = 0x42 then [(112, 110)] else []) ++ [(127, 113)]

/-- Field rules that need no register (R28, R60, R63, R65, R67, R70, R96, R109, R131-R134, R209). -/
def matStatic (i : Iss) : Verdict :=
  let sh := i.bits 9 8
  let acc := i.bits 14 13
  let fa := i.bits 17 15
  let fb := i.bits 20 18
  let pro := i.bits 22 21
  let chain := i.bit 23
  firstOf [
    illegalIf (i.op ≠ 0x40 && sh = 3) 0 9 8,
    illegalIf (acc = 1 && i.bits 11 10 % 2 = 1) 0 11 10,
    illegalIf (extShadow i.x (i.bits 11 10)) 0 11 10,
    illegalIf (acc = 3 || (acc = 2 && !(fa = 5 && fb = 5)) || (sh = 3 && acc ≠ 0)) 0 14 13,
    illegalIf (sh = 3 && fa ≤ 5) 0 17 15,
    illegalIf (!pairOk fa fb) 0 20 18,
    illegalIf ((pro = 1 && 5 < fa) || (2 ≤ pro && (sh = 1 || sh = 3))) 0 22 21,
    illegalIf (chain && 2 ≤ sh) 0 23 23,
    illegalIf (chain && extShadow i.x (i.bits 25 24)) 0 25 24,
    illegalIf (i.bits 27 26 = 3) 0 27 26,
    illegalIf (i.bit 28 && (sh ≠ 1 || chain)) 0 28 28,
    illegalIf (i.bit 29 && sh ≠ 1) 0 29 29,
    illegalIf (sh ≠ 3 && i.bits 52 50 ≠ 0) 0 52 50,
    illegalIf (if sh = 3 then i.bits 95 83 ≠ 0 else i.bits 95 80 = 0) 0 95 80,
    illegalIf (chain && i.bits 95 80 ≠ (if sh = 1 then 4 else 16)) 0 95 80,
    doneVerdict (doneOf (i.bit 96) (i.bits 104 97)) 104 97]

/-- Operand format of a slot that a vector instruction took: the first matrix instruction fixes it (R65, R142). -/
def anyFmt : Nat := 15
/-- Target slot: R65, R67, R68, R69, R117, R142. -/
def matSlot (i : Iss) : Verdict :=
  let n := i.bits 11 10
  let z := getSlot i.x n
  let ext := i.bits 14 13 = 1
  firstOf [
    illegalIf (z.st ≠ .free && z.owner ≠ i.c) 0 11 10,
    holdIf (z.rescaling || underRescale i.x n) 7 0,
    (if i.bit 12 then holdIf (z.st ≠ .free || (ext && (getSlot i.x (n + 1)).st ≠ .free)) 5 0
     else match z.st with
      | .free => illegalIf true 0 11 10
      | .accumulating => firstOf [
          illegalIf (z.shape ≠ shapeOf (i.bits 9 8)) 0 9 8,
          illegalIf (z.mode ≠ modeOf (i.bits 14 13)) 0 14 13,
          illegalIf (z.fmtA ≠ anyFmt && z.fmtA ≠ i.bits 17 15) 0 17 15,
          illegalIf (z.fmtB ≠ anyFmt && z.fmtB ≠ i.bits 20 18) 0 20 18,
          holdIf (vecOnSlot i.x n) 5 0]
      | _ => .hold 5 0)]
/-- Chained source: R68, R108, R109. -/
def matChain (i : Iss) : Verdict :=
  if !i.bit 23 then .go
  else
    let z := getSlot i.x (i.bits 25 24)
    firstOf [
      illegalIf (z.st = .free || z.owner ≠ i.c) 0 25 24,
      holdIf (z.st ≠ .chained) 5 0,
      holdIf (underRescale i.x (i.bits 25 24)) 7 0,
      illegalIf (z.chainFmt ≠ i.bits 17 15) 0 17 15]

/-- Earlier transfers of the context have completed; a drain-fed one is exempt (R129). -/
def srunDone (x : Tile) (c : Nat) : Bool := x.handles.all (fun h => !(h.2.busy && h.2.ctx = c && !h.2.drainFed))

/-- The instruction's own part of a matrix operation, before its entry is read. W is coded in 3 bits for 1 to 8: 0 stands for 8 (R131
gives the range and no code for 8; log entry 144). -/
def matBase (i : Iss) : MatOp :=
  let sh := shapeOf (i.bits 9 8)
  let mc := i.bits 49 47
  { id := headOp i.x i.c, ctx := i.c, pc := i.k.pc, word := i.w, shape := sh, slot := i.bits 11 10, mode := modeOf (i.bits 14 13),
    fmtA := i.bits 17 15, fmtB := i.bits 20 18, pro := i.bits 22 21, chainA := if i.bit 23 then some (i.bits 25 24) else none,
    bSrc := i.bits 27 26, aReg := i.reg (i.bits 60 56), bReg := i.reg (i.bits 65 61),
    aReg0 := i.reg (i.bits 60 56), bReg0 := i.reg (i.bits 65 61), pWord := i.reg (i.bits 70 66), qWord := i.reg (i.bits 75 71),
    aWords := [], bWords := [], kBlk := if sh = .shift then (if i.bits 82 80 = 0 then 8 else i.bits 82 80) else i.bits 95 80,
    kTotal := 0, kBound := (readB i.k (i.bits 43 40)).toNat, mBound := (readB i.k (i.bits 35 32)).toNat, nBound := (readB i.k (i.bits 39 36)).toNat,
    mLo := 0, mHi := shapeRows sh, gLo := 0, gHi := shapeCols sh / 32,
    rowMask := readM i.k (i.bits 46 44),
    colMasks := if sh = .wide then (List.range 4).map (fun q => readM i.k ((4 * b2n (i.bit 30) + q) % 8)) else [readM i.k mc],
    segMask := readM i.k (i.bits 52 50), done := doneOf (i.bit 96) (i.bits 104 97), rowOrg := i.org,
    listBase := if i.op = 0x42 then (i.reg (i.bits 109 105)).toNat else opBase (i.reg (i.bits 60 56)), listLen := if i.op = 0x41 then i.bits 112 105 + 1 else 1, listIdx := 0, fold := none }

def matOpcode (m : MatOp) : Nat := bits m.word 7 0
/-- List-entry exceptions: FIELD and ENTRY (R155 KIND 0x03). -/
def entryInfo (field entry : Nat) : Nat := field * 2 ^ 32 + entry
/-- The operand words of the four sub-arrays: one word, or a list of four (R133). -/
def wordList (x : Tile) (list : Bool) (w : Word64) (shift : Nat) : List Word64 :=
  if list then (List.range 4).map (fun q => readLE x.spad (w.toNat + shift + 8 * q) 8 64) else [w]
/-- A_REG and B_REG name lists of operand words (R133). -/
def qaList (m : MatOp) : Bool := m.word.getLsbD 28 && m.chainA.isNone
def qbList (m : MatOp) : Bool := m.word.getLsbD 29
/-- What the instruction reads before its operands (R133 to R136): the list entry, the fold descriptor; then the lists of words. -/
def entryOpnds (m : MatOp) : List Opnd :=
  if matOpcode m = 0x41 then [{ num := 12, write := false, base := m.listBase, ranges := [(m.listBase + 32 * m.listIdx, 32)] }]
  else if matOpcode m = 0x42 ∧ m.fold.isNone then [{ num := 13, write := false, base := m.listBase, ranges := [(m.listBase, 16)] }]
  else []
def wordOpnds (m : MatOp) : List Opnd :=
  (if qaList m then [{ num := 14, write := false, base := m.aReg.toNat, ranges := [(m.aReg.toNat, 32)] }] else []) ++
    (if qbList m then [{ num := 15, write := false, base := m.bReg.toNat, ranges := [(m.bReg.toNat, 32)] }] else [])
/-- A list of operand words is 32 B-aligned (R133), and is a list by R155: OPERAND 4 (log entry 140). -/
def wordListCheck (m : MatOp) : Verdict :=
  firstOf [excIf (qaList m && m.aReg.toNat % 32 ≠ 0) 6 4 m.aReg.toNat, excIf (qbList m && m.bReg.toNat % 32 ≠ 0) 6 4 m.bReg.toNat]
/-- Where operands lie, with the records they claimed (R172). -/
def opndReads (x : Tile) (op : Nat) (l : List Opnd) : List (Nat × Nat) := l.flatMap (fun o => o.ranges.map (fun r => (r.1 + claimShift x op o.num, r.2)))
def cleanReads (x : Tile) (op : Nat) (l : List Opnd) : Verdict := match poisoned x (opndReads x op l) with | some q => .poison q | none => .go

/-- The fold descriptor of TMMA.F (R136). -/
def readFold (x : Tile) (m : MatOp) : Verdict × MatOp :=
  if matOpcode m ≠ 0x42 ∨ m.fold.isSome then (.go, m)
  else
    let a := m.listBase + claimShift x m.id 13
    let rows := (smGet x.spad a).toNat
    let batches := (smGet x.spad (a + 1)).toNat
    (firstOf [(if shapeRows m.shape < rows * batches then .exc 8 3 (entryInfo 0xFF 0) else .go),
      (if rows = 0 ∨ 128 < rows then .exc 8 3 (entryInfo 0 0) else .go),
      (if batches = 0 ∨ 128 < batches then .exc 8 3 (entryInfo 1 0) else .go),
      (if readLE x.spad (a + 2) 2 16 ≠ 0 then .exc 8 3 (entryInfo 2 0) else .go),
      (if readLE x.spad (a + 12) 4 32 ≠ 0 then .exc 8 3 (entryInfo 12 0) else .go)],
     { m with fold := some (rows, (readLE x.spad (a + 4) 4 32).toNat, (readLE x.spad (a + 8) 4 32).toNat), listLen := batches })
/-- The current entry: for TMMA the instruction itself, for TMMA.L a list entry (R135), for TMMA.F the entry its descriptor gives
(R136). -/
def readEntry (x : Tile) (m : MatOp) : Verdict × MatOp :=
  if matOpcode m = 0x41 then
    let a := m.listBase + 32 * m.listIdx + claimShift x m.id 12
    let byte := fun (o : Nat) => (smGet x.spad (a + o)).toNat
    (firstOf [(if shapeRows m.shape < byte 21 ∨ shapeCols m.shape / 32 < byte 23 then .exc 8 3 (entryInfo 0xFF m.listIdx) else .go),
       (if readLE x.spad (a + 24) 8 64 ≠ 0 then .exc 8 3 (entryInfo 24 m.listIdx) else .go)],
     { m with aReg := readLE x.spad a 8 64, bReg := readLE x.spad (a + 8) 8 64, kBound := (readLE x.spad (a + 16) 4 32).toNat,
              mLo := byte 20, mHi := byte 21, gLo := byte 22, gHi := byte 23 })
  else match m.fold with
    | some (rows, sa, sb) =>
      let a := opBase m.aReg0 + m.listIdx * sa
      let b := opBase m.bReg0 + m.listIdx * sb
      (firstOf [excIf (decide (0x1000000 ≤ a)) 5 0 a, excIf (decide (0x1000000 ≤ b)) 5 1 b],
       { m with aReg := setBits m.aReg0 23 0 a, bReg := setBits m.bReg0 23 0 b, mLo := m.listIdx * rows, mHi := (m.listIdx + 1) * rows })
    | none => (.go, m)
/-- The entry's operand words (R133), and the K elements in force (R80). -/
def readWords (x : Tile) (m : MatOp) : MatOp :=
  { m with loaded := true, aWords := if m.chainA.isSome then [] else wordList x (qaList m) m.aReg (claimShift x m.id 14),
           bWords := wordList x (qbList m) m.bReg (claimShift x m.id 15),
           kTotal := if m.shape = .shift then m.kBlk else min (m.kBlk * 32) m.kBound }
/-- Read the current entry: its lists are checked, claimed and read, each error found where the manual has it (R126, R133 to R136, R161,
R166). `claim` makes the claims; while one waits the verdict is `wait`. -/
def loadEntry (claim : Tile → List Opnd → Tile) (x : Tile) (m : MatOp) : Verdict × Tile × MatOp :=
  let l1 := entryOpnds m
  match firstOf (l1.map (fun o => spadVerdict x o 4)) with
  | .go =>
    let y := claim x l1
    if !claimsTaken y m.id then (.wait l1, y, m)
    else match firstOf [cleanReads y m.id l1, (readFold y m).1, (readEntry y (readFold y m).2).1] with
    | .go =>
      let m := (readEntry y (readFold y m).2).2
      let l2 := wordOpnds m
      (match firstOf (wordListCheck m :: l2.map (fun o => spadVerdict x o 4)) with
       | .go =>
         let z := claim y (l1 ++ l2)
         if !claimsTaken z m.id then (.wait (l1 ++ l2), z, m)
         else (cleanReads z m.id l2, correctReads z (opndReads z m.id (l1 ++ l2)), readWords z m)
       | v => (v, y, m))
    | v => (v, y, m)
  | v => (v, x, m)

/-- Stored format of operand A (R96). -/
def aCode (m : MatOp) : Nat := if 2 ≤ m.pro then (if Config.rowscaleFp32 m.word then 8 else 6) else m.fmtA
/-- An entry of no row or no column group executes no block (R135). -/
def entryEmpty (m : MatOp) : Bool := decide (m.mHi ≤ m.mLo) || decide (m.gHi ≤ m.gLo)
/-- K blocks executed (R80, R135). -/
def matBlocks (m : MatOp) : Nat := if m.shape = .shift ∨ entryEmpty m then 0 else ceilDiv m.kTotal 32
/-- The operation reads operands and changes its slot. -/
def matLive (m : MatOp) : Bool := m.shape = .shift || decide (0 < matBlocks m)

/-- Validity of row r of sub-array q: bounds, mask, entry, and the chained operand's row-valid bits, in the normal shape those of
sub-array 0 (R78, R110, R135; log entry 145). -/
def matRowOk (x : Tile) (m : MatOp) (q r : Nat) : Bool :=
  rowOk m.shape m.mBound m.rowMask q r && decide (m.mLo ≤ r) && decide (r < m.mHi) &&
  (match m.chainA with | some c => (getSlot x c).rowValid.getLsbD (128 * q + r) | none => true)
def matRowsOf (x : Tile) (m : MatOp) (q : Nat) : List Nat := (List.range (min (shapeRows m.shape) (min m.mBound m.mHi))).filter (matRowOk x m q)
/-- Validity of column n of sub-array q (R78, R135). -/
def matColOk (m : MatOp) (q n : Nat) : Bool :=
  colOk m.shape m.nBound m.colMasks q n &&
  (let g := (if m.shape = .quadrant then 128 * q + n else n) / 32
   decide (m.gLo ≤ g) && decide (g < m.gHi))
def matColsOf (m : MatOp) (q : Nat) : List Nat := (List.range (min (subCols m.shape) m.nBound)).filter (matColOk m q)
def matQs (m : MatOp) : List Nat := List.range (subArrays m.shape)
/-- Rows and columns valid in some sub-array, ascending. -/
def matRowsAny (x : Tile) (m : MatOp) : List Nat :=
  (List.range (min (shapeRows m.shape) (min m.mBound m.mHi))).filter (fun r => (matQs m).any (fun q => matRowOk x m q r))
def matColsAny (m : MatOp) : List Nat := (List.range (min (subCols m.shape) m.nBound)).filter (fun n => (matQs m).any (fun q => matColOk m q n))
/-- Tile rows of the instruction's entry (R152). -/
def matAttr (x : Tile) (m : MatOp) : Rows := attributed m.rowOrg ((matQs m).flatMap (matRowsOf x m))

/-- Ranges of a surface read one row per listed index: elements, then scale bytes of MX data. -/
def surfRanges (w : Word64) (code : Nat) (rows : List Nat) (n : Nat) : List (Nat × Nat) :=
  rowRanges (opBase w) (opPitch w) 0 (packedLen code n) rows ++
    (if isMx code then rowRanges (opBase w + opSoff w) (opSpitch w) 0 (ceilDiv n 32) rows else [])
/-- Ranges of an operand read one K (or tap) per row: the valid columns, and their scales. -/
def spanRanges (w : Word64) (code : Nat) (k : Nat) (cols : List Nat) : List (Nat × Nat) :=
  runRanges (opBase w) (opPitch w) (elemBits code) (List.range k) cols ++
    (if isMx code then runRanges (opBase w + opSoff w) (opSpitch w) 8 (List.range (ceilDiv k 32)) cols else [])

/-- Operand A as operands of the operation: one per word (R133). -/
def aOpnds (x : Tile) (m : MatOp) : List Opnd :=
  if m.chainA.isSome then []
  else (List.range m.aWords.length).map (fun q =>
    let w := m.aWords.getD q 0
    let rows := if m.aWords.length = 1 then matRowsAny x m else matRowsOf x m q
    { num := q, write := false, base := opBase w,
      ranges := if m.shape = .shift then runRanges (opBase w) (opPitch w) 16 rows (matColsOf m 0) else surfRanges w (aCode m) rows m.kTotal })
/-- Operand B (R56, R112, R133). -/
def bOpnds (m : MatOp) : List Opnd :=
  (List.range m.bWords.length).map (fun q =>
    let w := m.bWords.getD q 0
    let cols := if m.bWords.length = 1 then matColsAny m else matColsOf m q
    { num := 4 + q, write := false, base := opBase w,
      ranges := if m.bSrc = 2 then surfRanges w m.fmtB cols m.kTotal else spanRanges w m.fmtB m.kTotal cols })
/-- Segments of a shift-reuse instruction: the first rows, ascending (R64). -/
def segStarts (m : MatOp) : List Nat := 0 :: (List.range 127).filterMap (fun r => if m.segMask.getLsbD (r + 1) then some (r + 1) else none)
/-- The row vector, statistics surface or history surface (R63, R64, R96, R98). -/
def pOpnds (x : Tile) (m : MatOp) : List Opnd :=
  let rows := matRowsAny x m
  let b := opBase m.pWord
  let l := if m.shape = .shift then runRanges b (opPitch m.pWord) 16 (List.range ((m.kTotal - 1) * (segStarts m).length)) (matColsOf m 0)
    else match m.pro with
      | 1 => rows.map (fun r => (b + r, 1))
      | 2 => rows.map (fun r => (b + 4 * r, 4))
      | 3 => rows.flatMap (fun r => (List.range (Config.rmsGroups m.word m.pWord)).map (fun g => (b + r * opPitch m.pWord + 12 * g + 8, 4)))
      | _ => []
  if l = [] then [] else [{ num := 8, write := false, base := b, ranges := l }]
/-- Scratchpad operands of a matrix operation: none where no block is executed (R80, R135). -/
def matOpnds (x : Tile) (m : MatOp) : List Opnd :=
  if matLive m then aOpnds x m ++ (if m.bSrc = 0 then [] else bOpnds m) ++ pOpnds x m else []
/-- Whether the operation uses its P word. -/
def usesP (m : MatOp) : Bool := (m.shape = .shift && decide (1 < m.kTotal)) || decide (1 ≤ m.pro)
/-- Operand-word and footprint checks (R126, R165, R166, R172). -/
def matOpndCheck (x : Tile) (m : MatOp) : Verdict :=
  firstOf ((m.aWords.map (fun w => wordVerdict w (isMx (aCode m)) 0)) ++ (m.bWords.map (fun w => wordVerdict w (isMx m.fmtB) 1)) ++
    [if usesP m then wordVerdict m.pWord false 7 else .go] ++
    (if !matLive m then [] else (aOpnds x m).map (fun o => spadVerdict x o 0) ++
      (if m.bSrc = 0 then [match pastLimit 0x100000 ((bOpnds m).flatMap (·.ranges)) with
        | some a => .exc 5 1 (addrInfo 1 a)
        | none => .go] else (bOpnds m).map (fun o => spadVerdict x o 1)) ++
      (pOpnds x m).map (fun o => spadVerdict x o 7)))

/-- The first entry, read by the head (R127, R136). -/
def matFirst (i : Iss) : Verdict × Tile × MatOp := loadEntry (fun x l => headClaims x i.c l) i.x (matBase i)
/-- Everything the instruction reads, all its entries and their lists (R130). -/
def matAllOpnds (x : Tile) (m : MatOp) : List Opnd :=
  (List.range m.listLen).flatMap (fun n =>
    let m := readWords x (readEntry x { m with listIdx := n }).2
    entryOpnds m ++ wordOpnds m ++ matOpnds x m)
/-- The entry list's operand word: 32 B-aligned (R134), its pitch and bits 63:60 by R126 (log entry 142). -/
def listWord (i : Iss) : Verdict :=
  let w := i.reg (i.bits 60 56)
  if i.op = 0x41 then excIf (bits w 35 24 = 0 || bits w 4 0 ≠ 0 || bits w 63 60 ≠ 0) 6 4 (opBase w) else .go
/-- All checks of a matrix instruction at the head of its queue. -/
def matCheck (i : Iss) : Verdict :=
  let f := matFirst i
  firstOf [matStatic i, matSlot i, matChain i, i.unitHold (i.x.mats ≠ []), holdIf (!srunDone i.x i.c) 11 0, listWord i,
    f.1, matOpndCheck i.x f.2.2, trackVerdict i.x i.c (matAllOpnds f.2.1 f.2.2)]
def matIssRows (i : Iss) : Rows := matAttr i.x (matFirst i).2.2

/-- The slot as a zeroing instruction takes it (R65, R69, R118): every word +0. -/
def takeSlot (free : Nat) (m : MatOp) (x : Tile) : Tile :=
  let word := fun (w : Nat) (l : SMap 32) => clearRange l (accKey w 0 0) 65536
  let acc := if m.mode = .ext then word (m.slot + 1) (word m.slot x.acc) else word m.slot x.acc
  setSlot { x with acc := acc } m.slot
    { st := .accumulating, shape := m.shape, mode := m.mode, fmtA := m.fmtA, fmtB := m.fmtB, owner := m.ctx, undefBase := free }
/-- The tile as the head's reads left it: claims made, errors corrected. -/
def withHead (x z : Tile) : Tile :=
  { x with tags := z.tags, circs := z.circs, claims := z.claims, nextOp := z.nextOp, oneBit := z.oneBit, spadStatus := z.spadStatus }
/-- A matrix instruction is accepted (R57, R69, R127, R134). -/
def matAccept (i : Iss) : State :=
  let (_, y, m) := matFirst i
  let s := i.accept id (fun x =>
    let x := headTaken (withHead x y) i.c
    let x := if i.bit 12 then takeSlot i.s.free m x else x
    let x := modSlot x m.slot (fun z => { z with pendingOps := z.pendingOps + 1, fmtA := m.fmtA, fmtB := m.fmtB })
    let x := makeClaims x m.id i.c false (matOpnds i.x m)
    { x with mats := x.mats ++ [m] })
  { s with free := s.free + 262144 }
def matIssue (s : State) (t : Fin 64) (c : Fin 4) (op : Nat) (w : BitVec 120) : Res := issue s t c op w (matRsv op) matCheck matIssRows matAccept

def execTmma (t : Fin 64) (c : Fin 4) (w : BitVec 120) (s : State) : Res := matIssue s t c 0x40 w
def execTmmaL (t : Fin 64) (c : Fin 4) (w : BitVec 120) (s : State) : Res := matIssue s t c 0x41 w
def execTmmaF (t : Fin 64) (c : Fin 4) (w : BitVec 120) (s : State) : Res := matIssue s t c 0x42 w

/-- Statistic of a row over groups: the first group's value, then each next one (R103). -/
def combineSum : List Word32 → Word32
  | [] => 0
  | a :: r => r.foldl fadd a

/-- The row factor of ROWSCALE (R98). -/
def rowFactor (x : Tile) (m : MatOp) (r : Nat) : Word32 :=
  let b := opBase m.pWord + claimShift x m.id 8
  if m.pro = 2 then f32At x.spad (b + 4 * r)
  else
    let q := combineSum ((List.range (Config.rmsGroups m.word m.pWord)).map (fun g => f32At x.spad (b + r * opPitch m.pWord + 12 * g + 8)))
    fdiv one32 (fsqrt (fadd (fmul q (m.qWord.setWidth 32)) (BitVec.ofNat 32 (bits m.qWord 63 32))))

/-- Surface of operand A and B for sub-array q. -/
def aSurf (x : Tile) (m : MatOp) (q : Nat) : Surf :=
  let n := if m.aWords.length = 1 then 0 else q
  { mem := x.spad, word := m.aWords.getD n 0, shift := claimShift x m.id n, code := aCode m }
def bSurf (x : Tile) (m : MatOp) (q : Nat) : Surf :=
  let n := if m.bWords.length = 1 then 0 else q
  { mem := if m.bSrc = 0 then x.cur.bytes else x.spad, word := m.bWords.getD n 0, shift := if m.bSrc = 0 then 0 else claimShift x m.id (4 + n), code := m.fmtB }

/-- Scale byte of block j of A row r as stored; of the chained operand, of a surface. -/
def aScaleRaw (x : Tile) (m : MatOp) (q r j : Nat) : Byte :=
  match m.chainA with
  | some c => smGet (getSlot x c).chainSc (r * 16 + (if m.shape = .quadrant then 4 * q else 0) + j)
  | none => (aSurf x m q).scale r j
/-- SCALE_EXP's e_m (R96). -/
def scaleExp (x : Tile) (m : MatOp) (r : Nat) : Int := (smGet x.spad (opBase m.pWord + claimShift x m.id 8 + r)).toInt
/-- One block of A as it enters the array: scale byte and 32 elements (R80, R81, R96). ROWSCALE reads a chained operand in the format
it was chained in, MX with its scale bytes (R96 states BF16 and FP32; log entry 147). -/
def aBlock (x : Tile) (m : MatOp) (q r j : Nat) : Byte × List Nat :=
  if 2 ≤ m.pro then
    let f := aSurf x m q
    let fac := rowFactor x m r
    let v := (List.range 32).map (fun i =>
      if 32 * j + i < m.kTotal then
        let v := match m.chainA with
          | some c => withScale m.fmtA (smGet (getSlot x c).chainEl (r * 512 + 32 * j + i)).toNat (aScaleRaw x m q r j)
          | none => elemNum f.code (f.elem r (32 * j + i))
        ofF32 (fmul (toF32 v) fac)
      else .fin false 0 0)
    if isMx m.fmtA then mxQuantise m.fmtA v else (0, v.map (fun n => toElem m.fmtA n 0))
  else
    let f := aSurf x m q
    let el := (List.range 32).map (fun i =>
      if 32 * j + i < m.kTotal then
        match m.chainA with
        | some c => (smGet (getSlot x c).chainEl (r * 512 + (if m.shape = .quadrant then 128 * q else 0) + 32 * j + i)).toNat
        | none => f.elem r (32 * j + i)
      else 0)
    if isMx m.fmtA then
      let sc := aScaleRaw x m q r j
      (if m.pro = 1 ∧ sc ≠ 0xFF then BitVec.ofInt 8 (sc.toNat + scaleExp x m r) else sc, el)
    else (0, el)
/-- One block of B for column n (R56, R80; scale layout: log entry 17). -/
def bBlock (x : Tile) (m : MatOp) (q n j : Nat) : Byte × List Nat :=
  let f := bSurf x m q
  let el := (List.range 32).map (fun i =>
    if 32 * j + i < m.kTotal then (if m.bSrc = 2 then f.elem n (32 * j + i) else f.elem (32 * j + i) n) else 0)
  (if isMx m.fmtB then (if m.bSrc = 2 then f.scale n j else f.scale j n) else 0, el)

/-- A block's value as FP32 (R29-R31, R36), with what errors that no residue shows added to its integer (R51); what such an error
makes of a BF16 or FP16 group the manual does not say (log entry 139). -/
def matValue (m : MatOp) (d : Int) (a b : Byte × List Nat) : Word32 :=
  if isMx m.fmtA then blockValueOff m.fmtA m.fmtB a.1 b.1 d (a.2.zip b.2) else groupOff d (groupSum m.fmtA (a.2.zip b.2))
/-- The change of one cell's block `j` that no residue showed. -/
def cellOff (sh : Shape) (left : List CellError) (q r n j : Nat) : Int :=
  ((left.filter (fun e => decide (e.block = j) && decide (e.row = r) && decide (e.col = (if sh = .quadrant then 128 * q + n else n)))).map (·.amount)).sum

/-- The row of x that tap w of row r reads: a row of the surface, or a history row (R63, R64; history order: log entry 24). -/
def tapRow (m : MatOp) (r w : Nat) : Sum Nat Nat :=
  let starts := (segStarts m).filter (fun q => decide (q ≤ r))
  let seg := starts.getLastD 0
  if seg + w ≤ r then .inl (r - w) else .inr ((m.kTotal - 1) * (starts.length - 1) + (m.kTotal - 1) - (w - (r - seg)))
/-- Group sum of a shift-reuse cell (R36, R63); invalid rows enter as +0 (R79). -/
def shiftValue (x : Tile) (m : MatOp) (rows : List Nat) (r n : Nat) : Word32 :=
  let xs := aSurf x m 0
  let ks := bSurf x m 0
  let hist : Surf := { mem := x.spad, word := m.pWord, shift := claimShift x m.id 8, code := m.fmtA }
  let ab := (List.range 32).map (fun w =>
    if w < m.kTotal then
      (match tapRow m r w with
       | .inl a => if rows.contains a then xs.elem a n else 0
       | .inr h => hist.elem h n, if m.bSrc = 2 then ks.elem n w else ks.elem w n)
    else (0, 0))
  groupSum m.fmtA ab

/-- A saturating INT32 addition (R35): the sum, and whether it overflowed. -/
def satAdd (a : Word32) (b : Int) : Word32 × Bool :=
  let v := a.toInt + b
  if v < -2147483648 then (0x80000000, true) else if 2147483647 < v then (0x7FFFFFFF, true) else (BitVec.ofInt 32 v, false)

/-- New contents of one cell: high word, low word (EXT), INT32 overflow (R32, R33, R35). -/
def cellStep (x : Tile) (m : MatOp) (left : List CellError) (rows : List Nat) (q r n : Nat) : Word32 × Word32 × Bool :=
  let (pr, pc) := cellPos m.shape q r n
  let hi := accRead x m.slot (hiWord m.mode m.slot) pr pc
  if m.shape = .shift then (fadd hi (groupOff (cellOff m.shape left q r n 0) (shiftValue x m rows r n)), 0, false)
  else
    let blocks := (List.range (matBlocks m)).map (fun j => (cellOff m.shape left q r n j, aBlock x m q r j, bBlock x m q n j))
    match m.mode with
    | .fp32 => (blocks.foldl (fun a b => fadd a (matValue m b.1 b.2.1 b.2.2)) hi, 0, false)
    | .ext =>
      let lo := accRead x m.slot m.slot pr pc
      let (h, l) := blocks.foldl (fun a b => extAdd a.1 a.2 (matValue m b.1 b.2.1 b.2.2)) (hi, lo)
      (h, l, false)
    | .int32 => blocks.foldl (fun a b =>
        let (v, o) := satAdd a.1 (b.1 + blockInt m.fmtA m.fmtB (b.2.1.2.zip b.2.2.2))
        (v, 0, a.2.2 || o)) (hi, 0, false)

/-- Numeric-mode exception: SCALE, OPERAND, INDEX, BLOCK, EXPONENT (R155 KIND 0x02). -/
def modeInfo (scale opnd index block : Nat) (e : Int) : Nat :=
  scale * 2 ^ 48 + opnd * 2 ^ 47 + index * 2 ^ 36 + block * 2 ^ 20 + (BitVec.ofInt 8 e).toNat
/-- The scale bytes that break R96 or R35: A rows, then B columns. -/
def numericBad (x : Tile) (m : MatOp) : Option Nat :=
  if m.shape = .shift then none
  else
    let z := getSlot x m.slot
    let nb := matBlocks m
    let ra := (matQs m).flatMap (fun q => (matRowsOf x m q).flatMap (fun r => (List.range nb).filterMap (fun j =>
      let sc := aScaleRaw x m q r j
      let e := scaleExp x m r
      if m.pro = 1 ∧ sc ≠ 0xFF ∧ (sc.toNat + e < 0 ∨ 254 < sc.toNat + e) then some (modeInfo sc.toNat 0 r j e)
      else if m.mode = .int32 then
        let v := (aBlock x m q r j).1
        let old := smGet z.scaleA (128 * q + r)
        let ref := if old = 0 then (aBlock x m q r 0).1 else old.setWidth 8
        if v = ref then none else some (modeInfo v.toNat 0 r j 0)
      else none)))
    let cb := if m.mode ≠ .int32 then [] else (matQs m).flatMap (fun q => (matColsOf m q).flatMap (fun n => (List.range nb).filterMap (fun j =>
      let v := (bBlock x m q n j).1
      let col := if m.shape = .quadrant then 128 * q + n else n
      let old := smGet z.scaleB col
      let ref := if old = 0 then (bBlock x m q n 0).1 else old.setWidth 8
      if v = ref then none else some (modeInfo v.toNat 1 col j 0))))
    (ra ++ cb).head?

/-- The columns of a slot row that a sub-array's row covers, by a test of its column numbers. -/
def rowColMask (m : MatOp) (q part : Nat) (f : Nat → Bool) : BitVec 512 :=
  match m.shape with
  | .quadrant => maskOf (fun c => c / 128 = q && f (c % 128))
  | .wide => maskOf (fun c => f (512 * part + c))
  | _ => maskOf f
/-- Cells of valid rows in columns not valid hold undefined contents; written cells do not (R84). -/
def markUndef (x : Tile) (m : MatOp) (z : Slot) : Slot :=
  let parts := if m.shape = .wide then [0, 1, 2, 3] else [0]
  (matQs m).foldl (fun z q =>
    let cols := matColsOf m q
    (matRowsOf x m q).foldl (fun z r => parts.foldl (fun z i =>
      let row := (cellPos m.shape q r (512 * i)).1
      let good := rowColMask m q i (fun n => cols.contains n)
      let bad := rowColMask m q i (fun n => !cols.contains n)
      let v := (tabGetD z.undef row 0 ||| bad) &&& ~~~good
      { z with undef := if v = 0 then tabErase row z.undef else tabInsert row v z.undef }) z) z) z

/-- The slot after one operation of the array: every valid cell takes its blocks in ascending K (R32, R118). -/
def matStep (x : Tile) (m : MatOp) (left : List CellError) : Tile :=
  if !matLive m then x
  else
    let y := (matQs m).foldl (fun y q =>
      let rows := matRowsOf x m q
      let cols := matColsOf m q
      rows.foldl (fun y r => cols.foldl (fun y n =>
        let (hi, lo, o) := cellStep x m left rows q r n
        let (pr, pc) := cellPos m.shape q r n
        let y := accWrite y (hiWord m.mode m.slot) pr pc hi
        let y := if m.mode = .ext then accWrite y m.slot pr pc lo else y
        if o then { y with errStatus := setBit y.errStatus 7 true } else y) y) y) x
    let scales := fun (z : Slot) =>
      if m.mode ≠ .int32 then z
      else (matQs m).foldl (fun z q =>
        let z := (matRowsOf x m q).foldl (fun z r => if smGet z.scaleA (128 * q + r) = 0
          then { z with scaleA := smSet z.scaleA (128 * q + r) (BitVec.ofNat 9 (256 + (aBlock x m q r 0).1.toNat)) } else z) z
        (matColsOf m q).foldl (fun z n =>
          let col := if m.shape = .quadrant then 128 * q + n else n
          if smGet z.scaleB col = 0 then { z with scaleB := smSet z.scaleB col (BitVec.ofNat 9 (256 + (bBlock x m q n 0).1.toNat)) } else z) z) z
    modSlot y m.slot (fun z => scales (markUndef x m z))

/-- ACLK in which the array takes K-steps (R60, R76, R80): the array time D, none where no block is executed. -/
def arrayTime (m : MatOp) : Nat :=
  if m.shape = .shift then 128 + (m.kTotal - 1) * (1 + ((segStarts m).length - 1))
  else if matBlocks m = 0 then 0
  else if 6 ≤ m.fmtA then 128 * matBlocks m
  else if m.fmtA = 4 ∧ m.fmtB = 4 then 16 * matBlocks m
  else 32 * matBlocks m

/-- The instruction's last issue end: chained slot FREE, one operation fewer on the target (R57, R108). -/
def matFinish (m : MatOp) (x : Tile) : Tile :=
  let x := modSlot x m.slot (fun z => { z with pendingOps := z.pendingOps - 1 })
  let x := match m.chainA with | some c => setSlot x c {} | none => x
  { x with mats := x.mats.drop 1 }

/-- The array turns to a list's next entry: it is read, or its lists wait at a claim (R134, R135). -/
def nextEntry (s : State) (t : Nat) (m : MatOp) : State :=
  let x := getTile s t
  let (v, y, m') := loadEntry (fun x l => retryClaims (makeClaims x m.id m.ctx false l) m.id) x m
  match firstOf [v, matOpndCheck x m'] with
  | .exc code kind val => takeException s t m.ctx code (matOpcode m) m.pc kind val (matAttr x m')
  | .poison q => spadFault s t q (shapeCode m.shape)
  | .wait _ => setTile s t { y with mats := m :: y.mats.drop 1 }
  | _ => setTile s t { makeClaims y m'.id m.ctx false (matOpnds y m') with mats := m' :: y.mats.drop 1 }

/-- A matrix operation ends its issue: checks of R85 to R87, then its result; a list goes on to its next entry, with a replay of its
own (R134). -/
def execTmmaIssueEnd (t : Fin 64) (chk : Check) (s : State) : Res :=
  let x := getTile s t
  match x.mats.head? with
  | none => .next s
  | some m =>
    if !m.loaded then .next (nextEntry s t m)
    else if !claimsTaken x m.id then .next s
    else match arrayCheck m.shape chk with
    | .fault cause loc => .next (tileFault s t cause loc (shapeCode m.shape))
    | .done replayed left =>
      let reads := opndReads x m.id (matOpnds x m)
      match poisoned x reads with
      | some q => .next (spadFault s t q (shapeCode m.shape))
      | none =>
        match numericBad x m with
        | some v => .next (takeException s t m.ctx 4 (matOpcode m) m.pc 2 v (matAttr x m))
        | none =>
          let y := noteEcc (completeOp (correctReads (tileCtr (matStep x m left) 0x40 (arrayTime m)) reads) m.id) chk
          let y := if replayed then tileCtr (noteRetry y) 0x70 1 else y
          if m.listIdx + 1 < m.listLen then .next (nextEntry (setTile s t y) t { m with listIdx := m.listIdx + 1, loaded := false })
          else .next (addDone (setTile s t (matFinish m y)) t m.ctx m.done)

/-- RESCALE: target and source rules (R117, R138). -/
def rescaleCheck (i : Iss) : Verdict :=
  let tg := i.bits 11 10
  let sr := i.bits 13 12
  let z := getSlot i.x tg
  let y := getSlot i.x sr
  firstOf [illegalIf (z.st = .free || z.owner ≠ i.c || z.mode = .int32 || extShadow i.x tg) 0 11 10,
    illegalIf (y.st = .free || y.st = .accumulating || y.owner ≠ i.c || extShadow i.x sr) 0 13 12,
    holdIf (y.st ≠ .chained) 5 0,
    illegalIf (!y.online) 0 13 12,
    i.unitHold (i.x.rescales ≠ []),
    holdIf (z.st ≠ .accumulating || z.pendingOps ≠ 0 || vecOnSlot i.x tg) 5 0]
def execRescale (t : Fin 64) (c : Fin 4) (w : BitVec 120) (s : State) : Res :=
  issue s t c 0x44 w [(9, 8), (127, 14)] rescaleCheck noRows (fun i => i.accept id (fun x =>
    { modSlot x (i.bits 11 10) (fun z => { z with rescaling := true }) with
      rescales := x.rescales ++ [{ ctx := i.c, target := i.bits 11 10, source := i.bits 13 12, started := false }] }))
def execRescaleStart (t : Fin 64) (s : State) : Res :=
  let x := getTile s t
  .next (setTile s t { x with rescales := x.rescales.map (fun r => { r with started := true }) })
/-- Rows of the target whose source row is valid are multiplied by the row's alpha, slot row by slot row (R117). -/
def rescaleRow (x : Tile) (r : ResOp) (y : Tile) (q m : Nat) : Tile :=
  let z := getSlot x r.target
  (List.range (subCols z.shape)).foldl (fun y n =>
    let (pr, pc) := cellPos z.shape q m n
    let a := smGet (getSlot x r.source).alpha (128 * q + pr)
    if !(getSlot x r.source).rowValid.getLsbD (128 * q + pr) || (tabGetD z.undef pr 0).getLsbD pc then y
    else
      let one := fun (w : Nat) (y : Tile) => accWrite y w pr pc (fmul (accRead x r.target w pr pc) a)
      if z.mode = .ext then one r.target (one (r.target + 1) y) else one r.target y) y
def execRescaleEnd (t : Fin 64) (s : State) : Res :=
  let x := getTile s t
  match x.rescales with
  | [] => .next s
  | r :: rest =>
    if !r.started then .next s
    else
      let z := getSlot x r.target
      let y := (List.range (subArrays z.shape)).foldl (fun y q => (List.range (shapeRows z.shape)).foldl (fun y m => rescaleRow x r y q m) y) x
      .next (setTile s t { modSlot y r.target (fun z => { z with rescaling := false }) with rescales := rest })

/-- Rounds of the ring schedule (R191). -/
def ringRounds (part : Part) : List Nat := match part.image with | some img => img.ringSchedule | none => []
def execLswap (t : Fin 64) (c : Fin 4) (w : BitVec 120) (s : State) : Res :=
  issue s t c 0x45 w [(127, 8)] (fun i => illegalIf (decide ((ringRounds i.part).length ≤ i.x.ringRound)) 0 7 0) noRows
    (fun i => modTile i.s i.t (fun x => modCtx x i.c (fun k => { holdCtx (now i.s) k 6 0 with held := some .lswap })))

/-- Order of the physical ring: CD0, CD1, CD3, CD2, then the position on the die (R72, R191). -/
def ringKey (s : State) (t : Nat) : Nat :=
  (match t / 16 with | 0 => 0 | 1 => 1 | 2 => 3 | _ => 2) * 32 + (if (getTile s t).onSpare then 16 else t % 16)
def ringOrder (s : State) (ts : List Nat) : List Nat := sortBy (fun a b => decide (ringKey s a ≤ ringKey s b)) ts
/-- The tile after t on the ring. -/
def ringNext (l : List Nat) (t : Nat) : Nat := l.getD ((l.idxOf t + 1) % l.length) t
/-- Position of the leaf a tile holds in CUR, none before its first swap of the steep or when a round has ended. -/
def curPos (p : Nat) (x : Tile) : Option Nat :=
  if x.ringPos = 0 then (if x.ringRound = 0 then none else some (p - 1)) else some (x.ringPos - 1)
/-- The ring ports forward CUR into the successor's ARR once it has swapped to the same position (R70-R72, R191). -/
def ringMove (s : State) (ts : List Nat) : State :=
  let order := ringOrder s ts
  order.foldl (fun s u =>
    let x := getTile s u
    let v := ringNext order u
    let y := getTile s v
    match curPos ts.length x with
    | none => s
    | some q =>
      if x.forwarded ∨ ts.length ≤ q + 1 ∨ y.arr.full ∨ y.arr.fill ≠ 0 ∨ y.ringRound ≠ x.ringRound ∨ y.ringPos ≠ x.ringPos then s
      else setTile (setTile s u { x with forwarded := true }) v { getTile (setTile s u { x with forwarded := true }) v with arr := { x.cur with full := true } }) s
/-- CUR is free to go: nothing is left to forward (R71, R191). -/
def ringIdle (p : Nat) (x : Tile) : Bool := match curPos p x with | none => true | some q => x.forwarded || decide (p ≤ q + 1)
/-- The context whose LSWAP has waited longest (R128). -/
def swapWaiter (x : Tile) : Option Nat :=
  (List.range 4).foldl (fun b c => if (getCtx x c).held ≠ some .lswap then b else match b with
    | none => some c
    | some d => if (getCtx x c).since < (getCtx x d).since then some c else b) none
/-- The leaf swap takes effect (R71): the halves exchange, the next position begins. -/
def execLeafSwap (t : Fin 64) (s : State) : Res :=
  let x := getTile s t
  match swapWaiter x, (partOfTile s t).bind (getPart? s) with
  | some c, some part =>
    let p := tileCount part
    if x.arr.full ∧ x.mats.all (fun m => m.bSrc ≠ 0) ∧ ringIdle p x then
      let x := modCtx { x with lending := false } c acceptCtx
      let last := decide (p ≤ x.ringPos + 1)
      let s := setTile s t { x with cur := { bytes := x.arr.bytes }, arr := { bytes := x.cur.bytes }, forwarded := false, ringPos := if last then 0 else x.ringPos + 1, ringRound := if last then x.ringRound + 1 else x.ringRound }
      .next (ringMove s (maskTiles part.tileMask))
    else .next s
  | _, _ => .next s

end Sys2Proof.Machine
end

