-- ==== Sys2Proof/Machine/Drain.lean ====
section
/-! DEFINITION. Drain.lean: the drain, its stage descriptor and epilogue, online softmax and the chain's writing side
(R34, R35, R37-R39, R58, R78, R82, R83, R94-R107, R110, R113, R114, R116, R118, R139, R140). -/

namespace Sys2Proof.Machine

open Sys2Proof

/-- Fields of a stage descriptor (R140). -/
def dStep (d : BitVec 512) (k : Nat) : Bool := bit d (k - 1)
def dNorm (d : BitVec 512) : Bool := bit d 9
def dOnline (d : BitVec 512) : Bool := bit d 10
def dExcl (d : BitVec 512) : Bool := bit d 11
def dCausal (d : BitVec 512) : Bool := bit d 12
def dRes32 (d : BitVec 512) : Bool := bit d 13
def dBias32 (d : BitVec 512) : Bool := bit d 14
def dFixed (d : BitVec 512) : Bool := bit d 15
def dAct (d : BitVec 512) : Nat := bits d 19 16
def dInit (d : BitVec 512) : Nat := bits d 23 20
/-- Output format: FP32 where step 9 is not declared (log entry 25). -/
def dFmt (d : BitVec 512) : Nat := if dStep d 9 then bits d 27 24 else 8
def dDest (d : BitVec 512) : Nat := bits d 29 28
def dHead (d : BitVec 512) : Nat := 64 * 2 ^ bits d 31 30
def dSigma (d : BitVec 512) : Nat := bits d 39 32
def dFactors (d : BitVec 512) : Nat := bits d 47 40
def dOrigin (d : BitVec 512) : Nat := bits d 63 48
def dWord (d : BitVec 512) (byte : Nat) : Word64 := d.extractLsb' (8 * byte) 64
def dWindow (d : BitVec 512) : Nat := bits d 479 448
def dRtile (d : BitVec 512) : Nat := bits d 487 480
def dStats (d : BitVec 512) : Bool := bit d 44
/-- A factor is present as a vector, as a scalar (R140 FACTORS). -/
def dRowVec (d : BitVec 512) : Bool := dStep d 1 && bit d 40 && !bit d 41
def dColVec (d : BitVec 512) : Bool := dStep d 1 && bit d 42 && !bit d 43

/-- Rules of a descriptor (R94, R95, R99, R100, R104-R106, R140; those without a sentence of their own: log entry 25). -/
def descCheck (d : BitVec 512) (z : Slot) : Verdict :=
  let ill := fun (b : Bool) (hi lo : Nat) => illegalIf b 1 hi lo
  let rsv := fun (b : Bool) (hi lo : Nat) => if b then Verdict.exc 2 5 (fieldInfo 1 hi lo) else .go
  firstOf [
    rsv (decide (4 < dAct d)) 19 16,
    rsv (decide (8 < bits d 27 24)) 27 24,
    rsv (bits d 31 30 = 3) 31 30,
    rsv (bits d 47 45 ≠ 0) 47 45,
    rsv (dDest d = 1 && bits d 127 67 ≠ 0) 127 67,
    rsv (bits d 511 488 ≠ 0) 511 488,
    rsv (dExcl d && (dWindow d = 0 || decide (1048576 < dWindow d))) 479 448,
    ill (z.mode = .ext && bits d 7 1 ≠ 0) 7 1,
    ill (z.mode = .int32 && (dStep d 5 || dStep d 8)) 7 4,
    ill (dStep d 5 && !(z.shape = .normal || z.shape = .wide)) 4 4,
    ill (dNorm d && !dStep d 1) 9 9,
    ill (dOnline d && !(dStep d 7 && dStep d 8)) 10 10,
    ill (dStep d 8 && !dStep d 7) 7 7,
    ill (dExcl d && !dStep d 8) 11 11,
    ill (dFixed d && dSigma d = 0xFF) 39 32,
    ill (dDest d = 3 && dFmt d = 8) 27 24]

/-- Column masks of a drain; in wide-shallow the four registers of the half that MC lies in (R78; log entry 25). -/
def drainMasks (k : Ctx) (sh : Shape) (mc : Nat) : List (BitVec 512) :=
  if sh = .wide then (List.range 4).map (fun q => readM k (4 * (mc / 4) + q)) else [readM k mc]

/-- The stage descriptor as an operand that the head reads (R139, R140). -/
def descOpnd (i : Iss) : Opnd :=
  let a := opBase (i.reg (i.bits 18 14))
  { num := 13, write := false, base := a, ranges := [(a, 64)] }
/-- The drain as accepted, its descriptor in the record that the head claimed (R127, R139, R172). -/
def drainOf (i : Iss) (y : Tile) : DrainOp :=
  let op := headOp i.x i.c
  let a := opBase (i.reg (i.bits 18 14)) + claimShift y op 13
  let z := getSlot i.x (i.bits 11 10)
  { id := op, ctx := i.c, pc := i.k.pc, slot := i.bits 11 10, partner := i.bits 13 12, desc := readLE i.x.spad a 64 512,
    k0 := (i.reg (i.bits 23 19)).setWidth 32, aux := i.reg (i.bits 28 24), mBound := (readB i.k (i.bits 32 29)).toNat,
    nBound := (readB i.k (i.bits 36 33)).toNat, rowMask := readM i.k (i.bits 39 37), colMask := readM i.k (i.bits 42 40),
    colMasks := drainMasks i.k z.shape (i.bits 42 40), done := doneOf (i.bit 43) (i.bits 51 44), rowOrg := i.org, started := false }
/-- The head reads its descriptor: it is checked, claimed and read, as the lists of a matrix instruction are (R126, R161, R166, R167). -/
def drainHead (i : Iss) : Verdict × Tile × DrainOp :=
  let o := descOpnd i
  match spadVerdict i.x o 3 with
  | .go =>
    let y := headClaims i.x i.c [o]
    let op := headOp i.x i.c
    if !claimsTaken y op then (.wait [o], y, drainOf i y)
    else (cleanReads y op [o], correctReads y (opndReads y op [o]), drainOf i y)
  | v => (v, i.x, drainOf i i.x)

/-- Valid rows and columns for the write (R78, R82). -/
def drainRows (z : Slot) (d : DrainOp) (q : Nat) : List Nat :=
  (List.range (min (shapeRows z.shape) d.mBound)).filter (fun m => rowOk z.shape d.mBound d.rowMask q m)
def drainColOk (z : Slot) (d : DrainOp) (q n : Nat) : Bool := colOk z.shape d.nBound d.colMasks q n
def drainQs (z : Slot) : List Nat := List.range (subArrays z.shape)
/-- Columns a drain works on: whole groups of 32 up to the N bound. -/
def drainCols (z : Slot) (d : DrainOp) : List Nat := List.range (min (subCols z.shape) (ceilDiv d.nBound 32 * 32))
/-- Column of a surface row that column n of sub-array q has (log entry 25). -/
def surfCol (z : Slot) (q n : Nat) : Nat := if z.shape = .quadrant then 128 * q + n else n
/-- Valid columns of a sub-array, and its columns of a surface. -/
def drainColsOf (z : Slot) (d : DrainOp) (q : Nat) : List Nat := (drainCols z d).filter (drainColOk z d q)
def surfCols (z : Slot) (d : DrainOp) (q : Nat) : List Nat := (drainColsOf z d q).map (surfCol z q)
/-- Surface columns the drain may touch, ascending. -/
def drainSpan (z : Slot) (d : DrainOp) : List Nat := (drainQs z).flatMap (surfCols z d)
def allRows (z : Slot) (d : DrainOp) : List Nat := ((drainQs z).flatMap (drainRows z d)).dedup
/-- Column groups of 32 of one sub-array, and its first one in a surface (R103). -/
def drainGroups (z : Slot) : Nat := subCols z.shape / 32
def surfGroup (z : Slot) (q : Nat) : Nat := surfCol z q 0 / 32
/-- MX blocks of a surface row with a valid column in sub-array q (R82). -/
def validBlocks (z : Slot) (d : DrainOp) (q : Nat) : List Nat :=
  ((List.range (drainGroups z)).filter (fun g => (List.range 32).any (fun i => drainColOk z d q (32 * g + i)))).map (fun g => surfGroup z q + g)

/-- Ranges of elements of `w` bits in the valid rows and columns of every sub-array. -/
def drainRanges (z : Slot) (d : DrainOp) (base pitch w : Nat) : List (Nat × Nat) :=
  (drainQs z).flatMap (fun q => runRanges base pitch w (drainRows z d q) (surfCols z d q))
/-- Ranges of a row vector read at the valid columns. -/
def vectorRanges (z : Slot) (d : DrainOp) (base w : Nat) : List (Nat × Nat) :=
  (drainQs z).flatMap (fun q => if drainRows z d q = [] then [] else runRanges base 0 w [0] (surfCols z d q))
/-- Ranges the output takes (R82: MX blocks whole). -/
def outRanges (z : Slot) (d : DrainOp) : List (Nat × Nat) :=
  let w := dWord d.desc 8
  let f := dFmt d.desc
  if isMx f then
    (drainQs z).flatMap (fun q => runRanges (opBase w) (opPitch w) (32 * elemBits f) (drainRows z d q) (validBlocks z d q) ++
      runRanges (opBase w + opSoff w) (opSpitch w) 8 (drainRows z d q) (validBlocks z d q))
  else drainRanges z d (opBase w) (opPitch w) (elemBits f)
/-- Ranges of the statistics records: every group of a valid row, one with no valid column too (R83, R103). -/
def statRanges (z : Slot) (d : DrainOp) : List (Nat × Nat) :=
  let w := dWord d.desc 48
  (drainQs z).flatMap (fun q => rowRanges (opBase w) (opPitch w) (12 * (dOrigin d.desc + surfGroup z q)) (12 * drainGroups z) (drainRows z d q))

/-- Scratchpad operands of a drain: reads 0-4, output 5, statistics 6 (R107, R140). -/
def drainOpnds (z : Slot) (d : DrainOp) : List Opnd :=
  let e := d.desc
  let at_ := fun (n : Nat) (wr : Bool) (w : Word64) (l : List (Nat × Nat)) => ({ num := n, write := wr, base := opBase w, ranges := l } : Opnd)
  let when := fun (b : Bool) (o : Opnd) => if b then [o] else []
  when (dRowVec e) (at_ 0 false (dWord e 16) ((allRows z d).map (fun m => (opBase (dWord e 16) + 4 * m, 4)))) ++
  when (dColVec e) (at_ 1 false (dWord e 24) (vectorRanges z d (opBase (dWord e 24)) 32)) ++
  when (dStep e 2) (at_ 2 false (dWord e 32) (vectorRanges z d (opBase (dWord e 32)) (if dBias32 e then 32 else 16))) ++
  when (dStep e 6) (at_ 3 false (dWord e 40) (drainRanges z d (opBase (dWord e 40)) (opPitch (dWord e 40)) (if dRes32 e then 32 else 16))) ++
  when (dStep e 3) (at_ 4 false d.aux [(opBase d.aux, 8192 * dHead e)]) ++
  when (dDest e = 0) (at_ 5 true (dWord e 8) (outRanges z d)) ++
  when (dStep e 7 && dStats e) (at_ 6 true (dWord e 48) (statRanges z d))
/-- The output of a drain to another tile, as the destination of an operation there (R175). -/
def remoteOpnd (z : Slot) (d : DrainOp) : Opnd := { num := 5, write := true, base := opBase (dWord d.desc 8), ranges := outRanges z d }
/-- Row-map positions that a drain reads (R102, R114). -/
def mapReads (x : Tile) (part : Part) (z : Slot) (d : DrainOp) : List (Nat × Nat) :=
  if dExcl d.desc ∨ dStep d.desc 3 then (allRows z d).map (fun m => (rowEntryAddr x part m, 4)) else []

/-- Checks of a DRAIN at the head of its queue. -/
def drainCheck (i : Iss) : Verdict :=
  let n := i.bits 11 10
  let z := getSlot i.x n
  let w := i.reg (i.bits 18 14)
  let f := drainHead i
  let d := f.2.2
  let e := d.desc
  let y := getSlot i.x d.partner
  let opnds := drainOpnds z d
  firstOf [
    doneVerdict d.done 51 44,
    illegalIf (z.st = .free || z.owner ≠ i.c || extShadow i.x n) 0 11 10,
    holdIf (z.rescaling || underRescale i.x n) 7 0,
    holdIf (z.st ≠ .accumulating || z.pendingOps ≠ 0 || vecOnSlot i.x n) 5 0,
    i.unitHold (i.x.drains.any (fun q => !q.started)),
    holdIf (!srunDone i.x i.c) 11 0,
    wordVerdict w false 3,
    trackVerdict i.x i.c [descOpnd i],
    f.1,
    descCheck e z,
    (if dStep e 5 then firstOf [
        illegalIf (y.st = .free || y.owner ≠ i.c || y.shape ≠ z.shape || y.mode ≠ .fp32 || d.partner = n || extShadow i.x d.partner) 0 13 12,
        holdIf (y.rescaling || underRescale i.x d.partner) 7 0,
        holdIf (y.st ≠ .accumulating || y.pendingOps ≠ 0 || vecOnSlot i.x d.partner) 5 0] else .go),
    (if dDest e = 1 then
        let h := getHandle i.x (bits (dWord e 8) 2 0)
        illegalIf (!(h.busy && h.drainFed)) 1 66 64
      else .go),
    (if dDest e = 2 then firstOf [wordVerdict (dWord e 8) (isMx (dFmt e)) 2,
        (if (tileOfIndex i.part (dRtile e)).isNone then .exc 5 1 (addrInfo 2 (opBase (dWord e 8))) else .go),
        (match pastLimit 0x1000000 (outRanges z d) with | some a => .exc 5 1 (addrInfo 2 a) | none => .go),
        (match (tileOfIndex i.part (dRtile e)) with
         | some u => spadVerdict (getTile i.s u) (remoteOpnd z d) 2
         | none => .go)] else .go),
    (if dDest e = 0 then wordVerdict (dWord e 8) (isMx (dFmt e)) 2 else .go),
    (if dRowVec e then wordVerdict (dWord e 16) false 7 else .go),
    (if dColVec e then wordVerdict (dWord e 24) false 7 else .go),
    (if dStep e 2 then wordVerdict (dWord e 32) false 7 else .go),
    (if dStep e 3 then wordVerdict d.aux false 7 else .go),
    (if dStep e 6 then wordVerdict (dWord e 40) false 7 else .go),
    (if dStep e 7 && dStats e then wordVerdict (dWord e 48) false 7 else .go),
    firstOf (opnds.map (fun o => spadVerdict i.x o (if o.num = 5 then 2 else 7))),
    sameSlot i.x opnds,
    trackVerdict i.x i.c opnds]
def drainAttr (i : Iss) : Rows := attributed i.org (allRows (getSlot i.x (i.bits 11 10)) (drainHead i).2.2)

/-- DRAIN is accepted: its slot, and a gating partner, are DRAINING; its descriptor has been read (R58, R69, R106, R140). -/
def execDrain (t : Fin 64) (c : Fin 4) (w : BitVec 120) (s : State) : Res :=
  issue s t c 0x48 w [(9, 8), (127, 52)] drainCheck drainAttr (fun i => i.accept id (fun x =>
    let (_, y, d) := drainHead i
    let x := completeOpnds (headTaken (withHead x y) i.c) d.id [13]
    let z := getSlot x d.slot
    let x := modSlot x d.slot (fun z => { z with st := .draining })
    let x := if dStep d.desc 5 then modSlot x d.partner (fun z => { z with st := .draining }) else x
    let x := addTracks x i.c d.id (drainOpnds z d)
    { x with drains := x.drains ++ [d] }))

/-- Key of the row-state file: running maximum 0, running sum 1 (R113). -/
def rowStateKey (c bank row k : Nat) : Nat := ((c * 4 + bank) * 128 + row) * 2 + k
/-- Banks named by a descriptor start at m = −∞, l = +0 (R113). -/
def initBanks (x : Tile) (c banks : Nat) : Tile :=
  (List.range 4).foldl (fun x b => if banks.testBit b then
    { x with rowState := (List.range 128).foldl (fun m r => smSet (smSet m (rowStateKey c b r 0) ninf32) (rowStateKey c b r 1) 0) x.rowState } else x) x
/-- A drain starts (R58, R107): it claims what it reads. What it writes it claims with its first row (R167). -/
def execDrainStart (t : Fin 64) (s : State) : Res :=
  let x := getTile s t
  match x.drains.find? (fun d => !d.started) with
  | none => .next s
  | some d =>
    if 2 ≤ (x.drains.filter (·.started)).length then .next s
    else
      let x := { x with drains := x.drains.map (fun q => if q.id = d.id then { q with started := true } else q) }
      .next (setTile s t (makeClaims x d.id d.ctx false ((drainOpnds (getSlot x d.slot) d).filter (fun o => !o.write))))

/-- A row's value of one cell as the drain reads it: FP32, INT32 by R35, the exact sum of EXT by R34. -/
def drainCell (x : Tile) (z : Slot) (d : DrainOp) (q m n : Nat) : Num :=
  let (pr, pc) := cellPos z.shape q m n
  let v := accRead x d.slot (hiWord z.mode d.slot) pr pc
  match z.mode with
  | .fp32 => ofF32 v
  | .ext => (ofF32 v).add (ofF32 (accRead x d.slot d.slot pr pc))
  | .int32 =>
    let a := smGet z.scaleA (128 * q + m)
    let b := smGet z.scaleB (surfCol z q n)
    if a.setWidth 8 = (0xFF : BitVec 8) ∨ b.setWidth 8 = (0xFF : BitVec 8) then .nan
    else ofF32 (toF32 (.fin (decide (v.toInt < 0)) v.toInt.natAbs (((a.setWidth 8).toNat : Int) + (b.setWidth 8).toNat - 254 - 12)))

/-- Bank of a sub-array (R113): bank 0 in the shapes that are not quadrant, the wide-shallow and shift-reuse ones too, of which the rule
does not speak (log entry 148). -/
def bankOf (z : Slot) (q : Nat) : Nat := if z.shape = .quadrant then q else 0
/-- Step 1 on one value (R99, R100, R118): scale or normalise. A descriptor that declares both divides, and the column factor of a
wide-shallow slot is read past the 512 values of R140 (log entry 149). -/
def step1 (x : Tile) (z : Slot) (d : DrainOp) (q m n : Nat) (v : Num) : Num :=
  let e := d.desc
  if !dStep e 1 then v
  else if dNorm e then
    let l := smGet x.rowState (rowStateKey d.ctx (bankOf z q) m 1)
    if l = 0 then .fin false 0 0 else ofF32 (toF32 (v.div (ofF32 l)))
  else
    let v := if !bit e 40 then v
      else ofF32 (toF32 (v.mul (ofF32 (if bit e 41 then (dWord e 16).setWidth 32 else f32At x.spad (opBase (dWord e 16) + claimShift x d.id 0 + 4 * m)))))
    if !bit e 42 then v
      else ofF32 (toF32 (v.mul (ofF32 (if bit e 43 then (dWord e 24).setWidth 32 else f32At x.spad (opBase (dWord e 24) + claimShift x d.id 1 + 4 * surfCol z q n)))))
/-- Position of a row from the row map (R102, R114): that of tile row m; the row origin serves exception records only (R124; log entry
146). -/
def drainPos (x : Tile) (part : Part) (m : Nat) : Nat := rowPosition (rowWord x part m)
/-- Position exclusion (R114). -/
def excluded (x : Tile) (part : Part) (d : DrainOp) (m n : Nat) : Bool :=
  let key : Int := (d.k0.toNat : Int) + n
  let pos : Int := drainPos x part m
  dExcl d.desc && ((dCausal d.desc && decide (pos < key)) || decide ((dWindow d.desc : Int) ≤ pos - key))
/-- Step 3 over a row (R102). -/
def rotary (x : Tile) (part : Part) (z : Slot) (d : DrainOp) (q m : Nat) (l : List Word32) : List Word32 :=
  let e := d.desc
  if !dStep e 3 then l
  else
    let hw := dHead e
    let p := drainPos x part m
    let base := opBase d.aux + claimShift x d.id 4
    let size := 2048 * hw
    let tab := fun (k row i : Nat) => f32At x.spad (base + k * size + (row * (hw / 2) + i) * 4)
    l.mapIdx (fun n v =>
      let i := ((32 * dOrigin e + surfCol z q n) % hw) / 2
      let c := fsub (fmul (tab 0 (p / 1024) i) (tab 2 (p % 1024) i)) (fmul (tab 1 (p / 1024) i) (tab 3 (p % 1024) i))
      let s := fadd (fmul (tab 1 (p / 1024) i) (tab 2 (p % 1024) i)) (fmul (tab 0 (p / 1024) i) (tab 3 (p % 1024) i))
      if n % 2 = 0 then fsub (fmul v c) (fmul (l.getD (n + 1) 0) s)
      else fadd (fmul (l.getD (n - 1) 0) s) (fmul v c))

/-- Statistics of one group of 32 values with their validity (R103). -/
def groupStats (l : List (Word32 × Bool)) : Word32 × Word32 × Word32 :=
  (fmaxList (l.map (fun q => if q.2 then q.1 else ninf32)),
   treeSum 5 (l.map (fun q => if q.2 then q.1 else 0)),
   treeSum 5 (l.map (fun q => if q.2 then fmul q.1 q.1 else 0)))
/-- Cut a list into groups of 32. -/
def groups32 {α : Type} : Nat → List α → List (List α)
  | 0, _ => []
  | k + 1, l => if l = [] then [] else l.take 32 :: groups32 k (l.drop 32)

/-- A drained row before step 9. -/
structure RowOut where
  q : Nat
  m : Nat
  /-- valid and not excluded, by column -/
  ok : List Bool
  /-- values before step 9 -/
  y : List Num
  stats : List (Word32 × Word32 × Word32)
  alpha : Word32
  /-- new running maximum and sum in online mode -/
  state : Option (Word32 × Word32)
  deriving DecidableEq, Repr

/-- Steps 1 to 8 over one valid row (R99-R104, R116). -/
def drainRow (x : Tile) (part : Part) (z : Slot) (d : DrainOp) (q m : Nat) : RowOut :=
  let e := d.desc
  let cols := drainCols z d
  let ok := cols.map (fun n => drainColOk z d q n && !excluded x part d m n)
  let v1 := cols.map (fun n => step1 x z d q m n (drainCell x z d q m n))
  if z.mode = .ext then { q := q, m := m, ok := ok, y := v1, stats := [], alpha := one32, state := none }
  else
    let w := v1.map toF32
    let w := if dStep e 2 then w.mapIdx (fun n v => fadd v (if dBias32 e then f32At x.spad (opBase (dWord e 32) + claimShift x d.id 2 + 4 * surfCol z q n)
        else bf16At x.spad (opBase (dWord e 32) + claimShift x d.id 2 + 2 * surfCol z q n))) else w
    let w := rotary x part z d q m w
    let w := if dStep e 4 then w.map (activation (dAct e)) else w
    let w := if dStep e 5 then w.mapIdx (fun n v =>
        let (pr, pc) := cellPos z.shape q m n
        fmul v (accRead x d.partner d.partner pr pc)) else w
    let w := if dStep e 6 then w.mapIdx (fun n v => fadd v
        (let a := opBase (dWord e 40) + claimShift x d.id 3 + m * opPitch (dWord e 40)
         if dRes32 e then f32At x.spad (a + 4 * surfCol z q n) else bf16At x.spad (a + 2 * surfCol z q n))) else w
    let gs := (groups32 64 (w.zip ok)).map groupStats
    let mx := if dOnline e then fmaxList ((groups32 64 ((v1.map toF32).zip ok)).map (fun g => (groupStats g).1)) else fmaxList (gs.map (·.1))
    let old := smGet x.rowState (rowStateKey d.ctx (bankOf z q) m 0)
    let mu := if dOnline e then fmax old mx else mx
    let alpha := if dOnline e ∧ mu ≠ ninf32 then exp2Ref (fsub old mu) else one32
    let p := if dStep e 8 then (w.zip ok).map (fun (u : Word32 × Bool) => if u.2 && mu ≠ ninf32 then exp2Ref (fsub u.1 mu) else 0) else w
    let ps := combineSum ((groups32 64 (p.zip ok)).map (fun g => (groupStats g).2.1))
    let l := fadd (fmul (smGet x.rowState (rowStateKey d.ctx (bankOf z q) m 1)) alpha) ps
    { q := q, m := m, ok := ok, y := p.map ofF32, stats := if dStep e 7 then gs else [], alpha := alpha,
      state := if dOnline e then some (mu, l) else none }

/-- Fixed-scale conversion of one element, and whether a NaN was met (R105). -/
def fixedElem (f sigma : Nat) (n : Num) : Nat × Bool :=
  match n with
  | .nan => (0, true)
  | n => (toElem f n ((sigma : Int) - 127), false)
/-- One group of 32 after step 9: scale byte, elements (R37, R39, R105); columns not valid enter MX groups as zeros. -/
def convertGroup (e : BitVec 512) (g : List (Num × Bool)) : Byte × List Nat :=
  let f := dFmt e
  let z : List Num := g.map (fun u => if u.2 then u.1 else .fin false 0 0)
  if !isMx f then (0, z.map (fun n => toElem f n 0))
  else if dFixed e then (BitVec.ofNat 8 (dSigma e), z.map (fun n => (fixedElem f (dSigma e) n).1))
  else mxQuantise f z
def convertRow (e : BitVec 512) (r : RowOut) : List (Byte × List Nat) := (groups32 64 (r.y.zip r.ok)).map (convertGroup e)
/-- A NaN met a fixed-scale conversion in the row (R105). -/
def rowFixedNan (e : BitVec 512) (r : RowOut) : Bool := isMx (dFmt e) && dFixed e && (r.y.zip r.ok).any (fun u => u.2 && u.1 = .nan)

/-- Pack element codes of `w` bits into bytes (R22). -/
def packElems (w : Nat) (l : List Nat) : List Byte :=
  natToBytes ((l.length * w + 7) / 8) (l.reverse.foldl (fun a v => a * 2 ^ w + v % 2 ^ w) 0)

/-- Bytes of one row's output by offset from the row's start, and its scale bytes by block (R82). -/
def rowBytes (z : Slot) (e : BitVec 512) (r : RowOut) : List (Nat × Byte) × List (Nat × Byte) :=
  let f := dFmt e
  let gs := convertRow e r
  let col0 := surfCol z r.q 0
  let per := gs.mapIdx (fun g v =>
    let ok := (r.ok.drop (32 * g)).take 32
    if isMx f then
      if ok.any (fun b => b) then
        let bs := packElems (elemBits f) v.2
        (bs.mapIdx (fun i b => ((col0 / 32 + g) * packedLen f 32 + i, b)), [(col0 / 32 + g, v.1)])
      else ([], [])
    else
      (((List.range 32).filter (fun i => ok.getD i false)).flatMap (fun i =>
        (natToBytes (elemBits f / 8) (v.2.getD i 0)).mapIdx (fun k b => ((col0 + 32 * g + i) * (elemBits f / 8) + k, b))), []))
  (per.flatMap (·.1), per.flatMap (·.2))

/-- Runs of bytes one row writes to a surface (R82, R126). -/
def rowRuns (z : Slot) (e : BitVec 512) (shift : Nat) (r : RowOut) : List (Nat × List Byte) :=
  let w := dWord e 8
  let (el, sc) := rowBytes z e r
  joinRuns (el.map (fun q => (opBase w + shift + r.m * opPitch w + q.1, q.2))) ++
    joinRuns (sc.map (fun q => (opBase w + shift + opSoff w + r.m * opSpitch w + q.1, q.2)))
/-- Runs of a row's group statistics (R83, R103). -/
def statRuns (z : Slot) (d : DrainOp) (shift : Nat) (r : RowOut) : List (Nat × List Byte) :=
  let e := d.desc
  if !(dStep e 7 && dStats e) then []
  else (List.range (drainGroups z)).map (fun g =>
    let v := r.stats.getD g (ninf32, 0, 0)
    (opBase (dWord e 48) + shift + r.m * opPitch (dWord e 48) + 12 * (dOrigin e + surfGroup z r.q + g),
      natToBytes 4 v.1.toNat ++ natToBytes 4 v.2.1.toNat ++ natToBytes 4 v.2.2.toNat))
/-- Bytes a row delivers to a drain-fed program: its elements, then its scale bytes, none where not enabled (log entry 25). -/
def rowFeed (z : Slot) (d : DrainOp) (rs : List RowOut) : List (Option Byte) :=
  let f := dFmt d.desc
  let span := drainSpan z d
  let last := match span with | [] => 0 | c :: r => r.foldl max c + 1
  let n := if isMx f then ceilDiv last 32 * packedLen f 32 else last * (elemBits f / 8)
  let el := rs.flatMap (fun r => (rowBytes z d.desc r).1)
  let sc := rs.flatMap (fun r => (rowBytes z d.desc r).2)
  (List.range n).map (fun i => tabGet? i el) ++ (if isMx f then (List.range (ceilDiv last 32)).map (fun i => tabGet? i sc) else [])
/-- A drain's rows reach a drain-fed program, in row order (R182). -/
def feedHandle (h : Handle) (c : Nat) (l : List (List (Option Byte))) : Handle :=
  { h with fed := h.fed ++ l.flatten, fedRuns := h.fedRuns ++ l.map (fun r => (c, r.length, true)), fedBy := setBit h.fedBy c true }

/-- Slot rows of a row of the output, for the chain's row-valid bits and alpha: every sub-array where the shape is not
quadrant (R110, R117). -/
def chainKeys (z : Slot) (r : RowOut) : List Nat :=
  match z.shape with
  | .quadrant => [128 * r.q + r.m]
  | .wide => (List.range 4).flatMap (fun i => (List.range 4).map (fun q => 128 * q + 4 * r.m + i))
  | _ => (List.range 4).map (fun q => 128 * q + r.m)
/-- The slot as a chained operand (R108, R110, R116). -/
def chainSlot (z : Slot) (d : DrainOp) (rows : List RowOut) : Slot :=
  let f := dFmt d.desc
  let z0 : Slot := { z with st := .chained, chainFmt := f, online := dOnline d.desc, chainEl := [], chainSc := [], rowValid := 0, alpha := [] }
  rows.foldl (fun y r =>
    let gs := convertRow d.desc r
    let y := gs.zipIdx.foldl (fun y (v, g) =>
      let y := (v.2.zipIdx).foldl (fun (y : Slot) (el, i) =>
        let (pr, pc) := cellPos z.shape r.q r.m (32 * g + i)
        { y with chainEl := smSet y.chainEl (pr * 512 + pc) (BitVec.ofNat 32 el) }) y
      let (pr, pc) := cellPos z.shape r.q r.m (32 * g)
      if isMx f then { y with chainSc := smSet y.chainSc (pr * 16 + pc / 32) v.1 } else y) y
    (chainKeys z r).foldl (fun y k => { y with rowValid := setBit y.rowValid k (r.ok.any (fun b => b)), alpha := smSet y.alpha k r.alpha }) y) z0

/-- Stream-fault detail (R188). -/
def streamInfo (cause handle space instr addr : Nat) : Nat := cause * 2 ^ 52 + handle * 2 ^ 49 + space * 2 ^ 46 + instr * 2 ^ 42 + addr % 2 ^ 40

/-- The tile after a drain's last row (R103, R105, R107-R110, R113, R116): row state, output or chain, statistics. -/
def drainWrite (x : Tile) (z : Slot) (d : DrainOp) (rows : List RowOut) : Tile :=
  let e := d.desc
  let y := rows.foldl (fun (y : Tile) r => match r.state with
    | some (m, l) => { y with rowState := smSet (smSet y.rowState (rowStateKey d.ctx (bankOf z r.q) r.m 0) m) (rowStateKey d.ctx (bankOf z r.q) r.m 1) l }
    | none => y) x
  let y := if rows.any (rowFixedNan e) then { y with excStatus := setBit y.excStatus 58 true } else y
  let y := if dDest e = 0 then spadPuts y (rows.flatMap (rowRuns z e (claimShift x d.id 5))) else y
  let y := spadPuts y (rows.flatMap (statRuns z d (claimShift x d.id 6)))
  let y := if dDest e = 3 then setSlot y d.slot (chainSlot z d rows) else setSlot y d.slot {}
  let y := if dStep e 5 then setSlot y d.partner {} else y
  { y with drains := y.drains.filter (fun q => decide (q.id ≠ d.id)) }

/-- A drain to another tile claims its slot or region there as a remote write (R74, R175, R176): it waits behind earlier remote writes
of the source to that target that still wait. Answers the state and whether the rows can go. -/
def remoteReady (s : State) (t : Nat) (part : Part) (d : DrainOp) : State × Bool :=
  if d.dest ≠ 2 then (s, true)
  else match tileOfIndex part (dRtile d.desc), d.remoteOp with
  | none, _ => (s, true)
  | some u, some (_, op) =>
    let s := modTile s u (fun y => retryClaims y op)
    (s, claimsTaken (getTile s u) op)
  | some u, none =>
    if s.remotes.any (fun r => decide (r.src = t) && decide (r.dst = u) && !r.read && (match r.op with | some op => !claimsTaken (getTile s u) op | none => false)) then (s, false)
    else
      let op := (getTile s u).nextOp
      let s := modTile s u (fun y => { makeClaims y op t true [remoteOpnd (getSlot (getTile s t) d.slot) d] with nextOp := op + 1 })
      let s := modTile s t (fun x => { x with drains := x.drains.map (fun q => if q.id = d.id then { q with remoteOp := some (u, op) } else q) })
      (s, claimsTaken (getTile s u) op)
/-- The rows of a drain to another tile set out, with the operation that has claimed there (R175). -/
def sendRows (s : State) (t p : Nat) (part : Part) (z : Slot) (d : DrainOp) (rows : List RowOut) : State :=
  match tileOfIndex part (dRtile d.desc) with
  | none => s
  | some u =>
    let op := ((getTile s t).drains.find? (fun q => decide (q.id = d.id))).bind (·.remoteOp)
    { s with remotes := s.remotes ++ [{ src := t, dst := u, ctx := d.ctx, read := false, addr := 0, base := 0, runs := rows.flatMap (rowRuns z d.desc 0), len := 0, loc := [], handle := none, part := p, toArr := false, op := op.map (·.2), done := d.done }] }

/-- The program named by a stream destination has ended, or its handle is idle (R182). -/
def feedEnded (h : Handle) : Bool := !(h.busy && h.drainFed) || (h.loaded && bits (h.prog.getD h.ip 0) 3 0 = 0)
/-- A drain's last row is written (R58, R74, R107, R113, R139): a scratchpad, stream or remote destination, or the chain. While a claim
of its own or at the target waits, the slot stays DRAINING. A row delivered after the program's end is charged to the SRUN's rows, at
its END and memory cursor (R182, R187, R188; log entry 150). -/
def execDrainEnd (t : Fin 64) (chk : Check) (s : State) : Res :=
  match (getTile s t).drains.find? (·.started), partOfTile s t with
  | some d, some p =>
    match getPart? s p with
    | none => .next s
    | some part =>
      let z := getSlot (getTile s t) d.slot
      let e := d.desc
      let s := modTile s t (fun x => retryClaims (makeClaims x d.id d.ctx false (drainOpnds z d)) d.id)
      let (s, there) := remoteReady s t part d
      let x := getTile s t
      if !claimsTaken x d.id || !there then .next s
      else match unitCheck 3 chk with
      | some (cause, loc) => .next (tileFault s t cause loc (shapeCode z.shape))
      | none =>
        let reads := opndReads x d.id ((drainOpnds z d).filter (fun o => !o.write)) ++ mapReads x part z d
        match poisoned x reads with
        | some q => .next (spadFault s t q (shapeCode z.shape))
        | none =>
          let h := bits (dWord e 8) 2 0
          let hd := getHandle x h
          if dDest e = 1 ∧ allRows z d ≠ [] ∧ feedEnded hd then
            .next (takeException s t d.ctx 7 0x48 d.pc 6 (streamInfo 0xA h hd.mspace (hd.ip % 16) (hd.m.toNat % 2 ^ 40)) hd.rows)
          else
            let x := initBanks x d.ctx (dInit e)
            let rows := (drainQs z).flatMap (fun q => (drainRows z d q).map (drainRow x part z d q))
            let y := noteDrain (completeOp (correctReads (drainWrite x z d rows) reads) d.id) chk
            let y := if dDest e = 1 then
                setHandle y h (feedHandle (getHandle y h) d.ctx ((allRows z d).map (fun m => rowFeed z d (rows.filter (fun r => decide (r.m = m))))))
              else y
            if dDest e = 2 then .next (setTile (sendRows s t p part z d rows) t y)
            else .next (addDone (setTile s t y) t d.ctx d.done)
  | _, _ => .next s

end Sys2Proof.Machine
end

