-- ==== Sys2Proof/Machine/Vector.lean ====
section
/-! DEFINITION. Vector.lean: the vector class (R37-R39, R43, R78, R141-R143). -/

namespace Sys2Proof.Machine

open Sys2Proof

/-- How many of A, B, C an opcode reads (R141). -/
def vecArity (op : Nat) : Nat :=
  if op = 0x84 then 3 else if op = 0x81 ∨ op = 0x82 ∨ op = 0x83 ∨ op = 0x85 ∨ op = 0x86 ∨ op = 0x89 then 2 else 1
/-- VRSUM and VRMAX. -/
def vecReduces (op : Nat) : Bool := op = 0x8C || op = 0x8D

/-- The instruction as accepted (R127, R141). -/
def vecOf (i : Iss) : VecOp :=
  let d := i.bits 14 10
  let a := i.bits 21 17
  let b := i.bits 28 24
  let c := i.bits 35 31
  { id := headOp i.x i.c, ctx := i.c, pc := i.k.pc, opcode := BitVec.ofNat 8 i.op, dk := i.bits 9 8, d := d, dWord := i.reg d,
    ak := i.bits 16 15, a := a, aWord := i.reg a,
    bk := if 2 ≤ vecArity i.op then i.bits 23 22 else 2, b := b, bWord := i.reg b,
    ck := if 3 ≤ vecArity i.op then i.bits 30 29 else 2, c := c, cWord := i.reg c,
    fmt := i.bits 53 50, widen := i.bit 54, mBound := (readB i.k (i.bits 39 36)).toNat, nBound := (readB i.k (i.bits 43 40)).toNat,
    rowMask := readM i.k (i.bits 46 44), colMask := readM i.k (i.bits 49 47), done := doneOf (i.bit 55) (i.bits 63 56), rowOrg := i.org }

/-- Valid rows and columns (R78, normal mapping). -/
def vecRows (v : VecOp) : List Nat := (List.range (min 128 v.mBound)).filter (fun m => rowOk .normal v.mBound v.rowMask 0 m)
def vecColOk (v : VecOp) (n : Nat) : Bool := colOk .normal v.nBound [v.colMask] 0 n
def vecCols (v : VecOp) : List Nat := (List.range (min 512 v.nBound)).filter (vecColOk v)
/-- Format of a scratchpad source and of a scratchpad destination. -/
def vecSrcFmt (v : VecOp) : Nat := if v.opcode = 0x8E ∧ v.widen then v.fmt else 8
def vecDstFmt (v : VecOp) : Nat := if v.opcode = 0x8E ∧ v.widen = false then v.fmt else 8

/-- Ranges of an operand of a kind (R141). -/
def vecRanges (v : VecOp) (kind fmt : Nat) (w : Word64) : List (Nat × Nat) :=
  if kind = 1 then
    (if isMx fmt then
      let blocks := (List.range 16).filter (fun g => (List.range 32).any (fun i => vecColOk v (32 * g + i)))
      runRanges (opBase w) (opPitch w) (32 * elemBits fmt) (vecRows v) blocks ++ runRanges (opBase w + opSoff w) (opSpitch w) 8 (vecRows v) blocks
    else runRanges (opBase w) (opPitch w) (elemBits fmt) (vecRows v) (vecCols v))
  else if kind = 3 then (vecRows v).map (fun m => (opBase w + 4 * m, 4))
  else []
def vecOpnds (v : VecOp) : List Opnd :=
  [{ num := 0, write := false, base := opBase v.aWord, ranges := vecRanges v v.ak (vecSrcFmt v) v.aWord },
   { num := 1, write := false, base := opBase v.bWord, ranges := vecRanges v v.bk 8 v.bWord },
   { num := 2, write := false, base := opBase v.cWord, ranges := vecRanges v v.ck 8 v.cWord },
   { num := 3, write := true, base := opBase v.dWord, ranges := if v.dk ≠ 1 then [] else if vecReduces v.opcode.toNat then (vecRows v).map (fun m => (opBase v.dWord + 4 * m, 4)) else vecRanges v 1 (vecDstFmt v) v.dWord }].filter
    (fun o => decide (o.ranges ≠ []))

/-- The operand number of R155: a vector is 7, a destination 2, another source 1. -/
def vecOperand (v : VecOp) (n : Nat) : Nat :=
  if n = 3 then 2 else if (if n = 0 then v.ak else if n = 1 then v.bk else v.ck) = 3 then 7 else if n = 0 then 0 else 1
/-- A slot operand (R68, R142). -/
def vecSlotCheck (i : Iss) (kind n hi lo : Nat) : Verdict :=
  if kind ≠ 0 then .go
  else
    let z := getSlot i.x n
    firstOf [illegalIf (decide (3 < n) || extShadow i.x n) 0 hi lo,
      illegalIf (z.st ≠ .free && (z.owner ≠ i.c || z.mode ≠ .fp32 || z.shape ≠ .normal)) 0 hi lo,
      holdIf (z.rescaling || underRescale i.x n) 7 0,
      holdIf (z.st ≠ .accumulating || z.pendingOps ≠ 0) 5 0]
/-- The destination slot (R142). -/
def vecDestCheck (i : Iss) (v : VecOp) : Verdict :=
  if v.dk ≠ 0 then .go
  else
    let z := getSlot i.x v.d
    firstOf [illegalIf (decide (3 < v.d) || extShadow i.x v.d) 0 14 10,
      illegalIf (z.st ≠ .free && (z.owner ≠ i.c || z.mode ≠ .fp32 || z.shape ≠ .normal)) 0 14 10,
      holdIf (z.rescaling || underRescale i.x v.d) 7 0,
      holdIf (z.st = .draining || z.st = .chained || z.pendingOps ≠ 0) 5 0]
def vecCheck (i : Iss) : Verdict :=
  let v := vecOf i
  let spads := b2n (v.ak = 1) + b2n (v.bk = 1) + b2n (v.ck = 1) + b2n (v.dk = 1)
  firstOf [
    illegalIf (decide (1 < v.dk)) 0 9 8,
    illegalIf (vecReduces i.op && v.dk ≠ 1) 0 9 8,
    illegalIf (if i.op = 0x8E then decide (8 < v.fmt) else v.fmt ≠ 0) 0 53 50,
    doneVerdict v.done 63 56,
    illegalIf (decide (2 < spads)) 0 9 8,
    vecSlotCheck i v.ak v.a 21 17, vecSlotCheck i v.bk v.b 28 24, vecSlotCheck i v.ck v.c 35 31, vecDestCheck i v,
    i.unitHold (i.x.vecs ≠ []),
    holdIf (!srunDone i.x i.c) 11 0,
    (if v.ak = 1 ∨ v.ak = 3 then wordVerdict v.aWord (isMx (vecSrcFmt v) && v.ak = 1) (if v.ak = 3 then 7 else 0) else .go),
    (if v.bk = 1 ∨ v.bk = 3 then wordVerdict v.bWord false (if v.bk = 3 then 7 else 1) else .go),
    (if v.ck = 1 ∨ v.ck = 3 then wordVerdict v.cWord false (if v.ck = 3 then 7 else 1) else .go),
    (if v.dk = 1 then wordVerdict v.dWord (isMx (vecDstFmt v)) 2 else .go),
    firstOf ((vecOpnds v).map (fun o => spadVerdict i.x o (vecOperand v o.num))),
    sameSlot i.x (vecOpnds v),
    trackVerdict i.x i.c (vecOpnds v)]
def vecAttr (i : Iss) : Rows := attributed i.org (vecRows (vecOf i))
/-- A vector instruction is accepted: a FREE destination slot is taken, every word +0 (R142). It claims what it reads; what it writes it
claims with its results (R167). -/
def vecAccept (i : Iss) : State :=
  let v := vecOf i
  let fresh := v.dk = 0 && (getSlot i.x v.d).st = .free
  let s := i.accept id (fun x =>
    let x := if fresh then setSlot { x with acc := clearRange x.acc (accKey v.d 0 0) 65536 } v.d
        { st := .accumulating, owner := i.c, fmtA := anyFmt, fmtB := anyFmt, undefBase := i.s.free } else x
    let x := makeClaims (addTracks x i.c v.id (vecOpnds v)) v.id i.c false ((vecOpnds v).filter (fun o => !o.write))
    { x with vecs := x.vecs ++ [v], nextOp := max x.nextOp (v.id + 1) })
  { s with free := s.free + 262144 }
def vecIssue (s : State) (t : Fin 64) (c : Fin 4) (op : Nat) (w : BitVec 120) : Res := issue s t c op w [(127, 64)] vecCheck vecAttr vecAccept

def execVmov (t : Fin 64) (c : Fin 4) (w : BitVec 120) (s : State) : Res := vecIssue s t c 0x80 w
def execVadd (t : Fin 64) (c : Fin 4) (w : BitVec 120) (s : State) : Res := vecIssue s t c 0x81 w
def execVsub (t : Fin 64) (c : Fin 4) (w : BitVec 120) (s : State) : Res := vecIssue s t c 0x82 w
def execVmul (t : Fin 64) (c : Fin 4) (w : BitVec 120) (s : State) : Res := vecIssue s t c 0x83 w
def execVfma (t : Fin 64) (c : Fin 4) (w : BitVec 120) (s : State) : Res := vecIssue s t c 0x84 w
def execVmin (t : Fin 64) (c : Fin 4) (w : BitVec 120) (s : State) : Res := vecIssue s t c 0x85 w
def execVmax (t : Fin 64) (c : Fin 4) (w : BitVec 120) (s : State) : Res := vecIssue s t c 0x86 w
def execVdiv (t : Fin 64) (c : Fin 4) (w : BitVec 120) (s : State) : Res := vecIssue s t c 0x89 w
def execVsqrt (t : Fin 64) (c : Fin 4) (w : BitVec 120) (s : State) : Res := vecIssue s t c 0x8A w
def execVexp2 (t : Fin 64) (c : Fin 4) (w : BitVec 120) (s : State) : Res := vecIssue s t c 0x8B w
def execVrsum (t : Fin 64) (c : Fin 4) (w : BitVec 120) (s : State) : Res := vecIssue s t c 0x8C w
def execVrmax (t : Fin 64) (c : Fin 4) (w : BitVec 120) (s : State) : Res := vecIssue s t c 0x8D w
def execVcvt (t : Fin 64) (c : Fin 4) (w : BitVec 120) (s : State) : Res := vecIssue s t c 0x8E w

/-- One operand element (R141). -/
def vecElem (x : Tile) (v : VecOp) (num kind idx fmt : Nat) (w : Word64) (m n : Nat) : Word32 :=
  match kind with
  | 0 => accRead x idx idx m n
  | 1 =>
    let f : Surf := { mem := x.spad, word := w, shift := claimShift x v.id num, code := fmt }
    if fmt = 8 then BitVec.ofNat 32 (f.elem m n)
    else toF32 (withScale fmt (f.elem m n) (if isMx fmt then f.scale m (n / 32) else 0))
  | 2 => w.setWidth 32
  | _ => f32At x.spad (opBase w + claimShift x v.id num + 4 * m)
def vecA (x : Tile) (v : VecOp) (m n : Nat) : Word32 := vecElem x v 0 v.ak v.a (vecSrcFmt v) v.aWord m n
def vecB (x : Tile) (v : VecOp) (m n : Nat) : Word32 := vecElem x v 1 v.bk v.b 8 v.bWord m n
def vecC (x : Tile) (v : VecOp) (m n : Nat) : Word32 := vecElem x v 2 v.ck v.c 8 v.cWord m n

/-- The result of one element (R43, R141), a NaN as R38 has it; VCVT's narrowing takes place at the write. -/
def vecResult (x : Tile) (v : VecOp) (m n : Nat) : Word32 :=
  let a := vecA x v m n
  match v.opcode.toNat with
  | 0x81 => fadd a (vecB x v m n)
  | 0x82 => fsub a (vecB x v m n)
  | 0x83 => fmul a (vecB x v m n)
  | 0x84 => ffma a (vecB x v m n) (vecC x v m n)
  | 0x85 => fmin a (vecB x v m n)
  | 0x86 => fmax a (vecB x v m n)
  | 0x89 => fdiv a (vecB x v m n)
  | 0x8A => fsqrt a
  | 0x8B => exp2Ref a
  | _ => if isNan a then nan32 else a

/-- The pairwise tree of a reduction over 512 lanes (R43): a level combines adjacent results. -/
def treeOf (f : Word32 → Word32 → Word32) : Nat → List Word32 → Word32
  | 0, l => l.headD 0
  | n + 1, l => treeOf f n (pairUp f l)
/-- A row reduced: invalid lanes take part as +0 (R43; for VRMAX, log entry 26). -/
def vecReduce (x : Tile) (v : VecOp) (m : Nat) : Word32 :=
  let lanes := (List.range 512).map (fun n => if vecColOk v n then vecA x v m n else 0)
  treeOf (if v.opcode = 0x8C then fadd else fmax) 9 lanes

/-- Runs of bytes a row writes to a scratchpad destination. -/
def vecRowRuns (x : Tile) (v : VecOp) (m : Nat) : List (Nat × List Byte) :=
  let w := v.dWord
  let base := opBase w + claimShift x v.id 3
  if vecReduces v.opcode.toNat then [(base + 4 * m, natToBytes 4 (vecReduce x v m).toNat)]
  else
    let f := vecDstFmt v
    if isMx f then
      ((vecCols v).map (· / 32)).dedup.flatMap (fun g =>
        let (sc, el) := mxQuantise f ((List.range 32).map (fun i => if vecColOk v (32 * g + i) then ofF32 (vecResult x v m (32 * g + i)) else .fin false 0 0))
        [(base + m * opPitch w + g * packedLen f 32, packElems (elemBits f) el), (base + opSoff w + m * opSpitch w + g, [sc])])
    else
      joinRuns ((vecCols v).flatMap (fun n =>
        let r := vecResult x v m n
        let e := if f = 8 then r.toNat else toElem f (ofF32 r) 0
        (natToBytes (elemBits f / 8) e).mapIdx (fun k b => (base + m * opPitch w + n * (elemBits f / 8) + k, b))))

/-- The tile with a vector instruction's results written (R142). A narrowing VCVT into a slot has no stated word: those
cells hold undefined contents (log entry 26). -/
def vecWrite (x : Tile) (v : VecOp) : Tile :=
  if v.dk = 1 then spadPuts x ((vecRows v).flatMap (vecRowRuns x v))
  else
    let narrow := decide (vecDstFmt v ≠ 8)
    (vecRows v).foldl (fun y m =>
      let good := maskOf (vecColOk v)
      let y := if narrow then y else (vecCols v).foldl (fun y n => accWrite y v.d m n (vecResult x v m n)) y
      modSlot y v.d (fun z =>
        let u := tabGetD z.undef m 0
        let u := if narrow then u ||| good else u &&& ~~~good
        { z with undef := if u = 0 then tabErase m z.undef else tabInsert m u z.undef })) x

/-- A vector instruction's results are written (R87, R141-R143, R167): it waits while a claim of its own waits. -/
def execVectorEnd (t : Fin 64) (chk : Check) (s : State) : Res :=
  match (getTile s t).vecs.head? with
  | none => .next s
  | some v =>
    let s := modTile s t (fun x => retryClaims (makeClaims x v.id v.ctx false (vecOpnds v)) v.id)
    let x := getTile s t
    if !claimsTaken x v.id then .next s
    else match unitCheck 7 chk with
    | some (cause, loc) => .next (tileFault s t cause loc 0)
    | none =>
      let reads := opndReads x v.id ((vecOpnds v).filter (fun o => !o.write))
      match poisoned x reads with
      | some q => .next (spadFault s t q 0)
      | none =>
        let y := noteEcc (completeOp (correctReads (vecWrite x v) reads) v.id) chk
        .next (addDone (setTile s t { y with vecs := y.vecs.drop 1 }) t v.ctx v.done)

end Sys2Proof.Machine
end

