-- ==== Sys2Proof/Machine/Dram.lean ====
section
/-! DEFINITION. Dram.lean: module DRAM below the caddy: packages, stripes, the erasure code, encryption by partition key, lost
packages (R198-R201, R203, R395, R431-R433). State keeps a partition's share as the plaintext its accesses see; what the packages
hold is computed from it here. -/

namespace Sys2Proof.Machine

open Sys2Proof

/-- Where a data granule of the physical space lies: stripe, position, package; each package holds its granule of stripe s at index s
(R199). -/
def stripeOf (g : Nat) : Nat := g / 30
def posOf (g : Nat) : Nat := g % 30
def packageOf (g : Nat) : Nat := (2 * stripeOf g + 2 + posOf g) % 32
/-- What package k holds of stripe s: parity 0 or 1, or data position (R199). -/
inductive StripePart where
  | parity (i : Nat)
  | data (j : Nat)
  deriving DecidableEq, Repr
def stripePart (s k : Nat) : StripePart :=
  let i := (k + 64 - 2 * s % 32) % 32
  if i < 2 then .parity i else .data (i - 2)

/-- Multiplication in GF(2^8) by a field polynomial; powers. -/
def gfMul (poly a b : Nat) : Nat :=
  ((List.range 8).foldl (fun (q : Nat × Nat) i =>
    (if b.testBit i then q.1 ^^^ q.2 else q.1, if 128 ≤ q.2 then (q.2 * 2) ^^^ poly else q.2 * 2)) (0, a)).1
def gfPow (poly a : Nat) : Nat → Nat
  | 0 => 1
  | n + 1 => gfMul poly a (gfPow poly a n)
def gfInv (poly a : Nat) : Nat := gfPow poly a 254

/-- The code of R200 over one byte lane: field polynomial 0x11D, α = 2; parities of 30 data bytes. -/
def rsPoly : Nat := 0x11D
def rsAlpha (j : Nat) : Nat := gfPow rsPoly 2 j
def rsParity (d : List Nat) : Nat × Nat :=
  (d.foldl (· ^^^ ·) 0, (d.mapIdx (fun j v => gfMul rsPoly (rsAlpha j) v)).foldl (· ^^^ ·) 0)
/-- Data of a lane with at most two bytes of the stripe lost, each none (R200). -/
def rsRestore (d : List (Option Nat)) (p q : Option Nat) : Option (List Nat) :=
  let known := d.map (fun v => v.getD 0)
  let (s, t) := rsParity known
  match (d.zipIdx.filter (fun v => v.1.isNone)).map (·.2), p, q with
  | [], _, _ => some known
  | [j], some p, _ => some (known.set j (p ^^^ s))
  | [j], none, some q => some (known.set j (gfMul rsPoly (gfInv rsPoly (rsAlpha j)) (q ^^^ t)))
  | [i, j], some p, some q =>
    let s := p ^^^ s
    let v := gfMul rsPoly (gfInv rsPoly (rsAlpha i ^^^ rsAlpha j)) ((q ^^^ t) ^^^ gfMul rsPoly (rsAlpha i) s)
    some ((known.set j v).set i (s ^^^ v))
  | _, _, _ => none
/-- A lane with one erroneous byte whose place is not known, corrected (R200): in a parity the data stand. -/
def rsCorrect (d : List Nat) (p q : Nat) : Option (List Nat) :=
  let s := p ^^^ (rsParity d).1
  let t := q ^^^ (rsParity d).2
  if s = 0 ∨ t = 0 then some d
  else match (List.range 30).find? (fun j => decide (gfMul rsPoly (rsAlpha j) s = t)) with
    | some j => some (d.set j (d.getD j 0 ^^^ s))
    | none => none

/-- AES-256 (FIPS 197): the S-box, from inverses in GF(2^8) with 0x11B, and its inverse. -/
def aesSbox (a : Nat) : Nat :=
  let b := gfInv 0x11B a
  let r := fun (n : Nat) => (b * 2 ^ n + b / 2 ^ (8 - n)) % 256
  b ^^^ r 1 ^^^ r 2 ^^^ r 3 ^^^ r 4 ^^^ 0x63
def aesUnsbox (a : Nat) : Nat :=
  let r := fun (n : Nat) => (a * 2 ^ n + a / 2 ^ (8 - n)) % 256
  gfInv 0x11B (r 1 ^^^ r 3 ^^^ r 6 ^^^ 0x05)
def xorBytes (a b : List Nat) : List Nat := List.zipWith (· ^^^ ·) a b
/-- The 60 words of the key schedule, each of 4 bytes. -/
def aesSchedule (key : List Nat) : List (List Nat) :=
  let w0 := (List.range 8).map (fun i => (key.drop (4 * i)).take 4)
  (List.range 52).foldl (fun w k =>
    let i := k + 8
    let prev := w.getD (i - 1) []
    let t := if i % 8 = 0 then xorBytes (((prev.drop 1) ++ prev.take 1).map aesSbox) [gfPow 0x11B 2 (i / 8 - 1), 0, 0, 0]
      else if i % 8 = 4 then prev.map aesSbox else prev
    w ++ [xorBytes (w.getD (i - 8) []) t]) w0
def roundKey (w : List (List Nat)) (r : Nat) : List Nat := ((w.drop (4 * r)).take 4).flatten
/-- Rows of the state shift left by their number; and right. -/
def shiftRows (b : List Nat) : List Nat := (List.range 16).map (fun i => b.getD ((i + 4 * (i % 4)) % 16) 0)
def unshiftRows (b : List Nat) : List Nat := (List.range 16).map (fun i => b.getD ((i + 12 * (i % 4)) % 16) 0)
def mixWith (c : List Nat) (b : List Nat) : List Nat :=
  (List.range 16).map (fun i => ((List.range 4).map (fun k => gfMul 0x11B (c.getD ((k + 4 - i % 4) % 4) 0) (b.getD (i / 4 * 4 + k) 0))).foldl (· ^^^ ·) 0)
def aesEncrypt (key b : List Nat) : List Nat :=
  let w := aesSchedule key
  let b := (List.range 13).foldl (fun b r => xorBytes (mixWith [2, 3, 1, 1] (shiftRows (b.map aesSbox))) (roundKey w (r + 1))) (xorBytes b (roundKey w 0))
  xorBytes (shiftRows (b.map aesSbox)) (roundKey w 14)
def aesDecrypt (key b : List Nat) : List Nat :=
  let w := aesSchedule key
  let b := (List.range 13).foldl (fun b r => mixWith [14, 11, 13, 9] (xorBytes ((unshiftRows b).map aesUnsbox) (roundKey w (13 - r)))) (xorBytes b (roundKey w 14))
  xorBytes ((unshiftRows b).map aesUnsbox) (roundKey w 0)

/-- A tweak value times α: little-endian in GF(2^128) with 0x87 (IEEE 1619). -/
def tweakNext (t : List Nat) : List Nat :=
  let v := (t.zipIdx).map (fun (b, i) => (b * 2) % 256 + (if i = 0 then 0 else t.getD (i - 1) 0 / 128))
  if 128 ≤ t.getD 15 0 then v.set 0 (v.getD 0 0 ^^^ 0x87) else v
/-- XTS over the blocks of one data unit (R431), with the block function and the tweak of its first block. -/
def xtsBlocks (f : List Nat → List Nat) : Nat → List Nat → List Nat → List Nat
  | 0, _, _ => []
  | n + 1, t, b => xorBytes (f (xorBytes (b.take 16) t)) t ++ xtsBlocks f n (tweakNext t) (b.drop 16)
/-- Bytes of a key half, and the tweak of granule g: its index as a 128-bit little-endian integer (R431). -/
def keyBytes (key : BitVec 512) (tweak : Bool) : List Nat := (natToBytes 32 (if tweak then key.toNat / 2 ^ 256 else key.toNat % 2 ^ 256)).map (·.toNat)
def granuleTweak (key : BitVec 512) (g : Nat) : List Nat := aesEncrypt (keyBytes key true) ((natToBytes 16 g).map (·.toNat))
/-- A granule encrypted and decrypted (R431): AES-256-XTS, data unit 64 B. -/
def encryptGranule (key : BitVec 512) (g : Nat) (l : List Byte) : List Byte :=
  (xtsBlocks (aesEncrypt (keyBytes key false)) 4 (granuleTweak key g) (l.map (·.toNat))).map (BitVec.ofNat 8)
def decryptGranule (key : BitVec 512) (g : Nat) (l : List Byte) : List Byte :=
  (xtsBlocks (aesDecrypt (keyBytes key false)) 4 (granuleTweak key g) (l.map (·.toNat))).map (BitVec.ofNat 8)

/-- The storage root key of the sealed state (R432): HMAC-SHA-384 over its storage salt. -/
def storageRoot (salt : Nat) : BitVec 384 := Config.hmacSha384 Config.deviceKey (Config.storageSalt salt)
/-- The fixed input of iteration i (R432): i, label, 0x00, PART, GEN, KEY_CONTEXT, L = 512. -/
def kdfInput (i : Nat) (part : BitVec 8) (gen : BitVec 32) (ctx : BitVec 64) : List Byte :=
  natToBytes 4 i ++ [0x59, 0x52, 0x2D, 0x44, 0x52, 0x41, 0x4D, 0x2D, 0x58, 0x54, 0x53] ++ [0x00, part] ++ natToBytes 4 gen.toNat ++ natToBytes 8 ctx.toNat ++ natToBytes 4 512
/-- A partition's key pair (R432, SP 800-108 in counter mode): data key in the first 256 bits, tweak key in the next; the bytes of a
digest are taken most significant first (log entry 8). -/
def dramKey (part : BitVec 8) (gen : BitVec 32) (ctx : BitVec 64) (salt : Nat) : BitVec 512 :=
  let root := (natToBytes 48 (storageRoot salt).toNat).reverse
  let out := fun (i : Nat) => (natToBytes 48 (Config.hmacSha384 root (kdfInput i part gen ctx)).toNat).reverse
  BitVec.ofNat 512 (bytesToNat ((out 1 ++ out 2).take 64))
def partKey (s : State) (p : Nat) (x : Part) : BitVec 512 := dramKey (BitVec.ofNat 8 p) x.keyGen x.keyContext s.mod.salt

/-- First granule of a partition's share, and the partition whose share holds a granule (R199, R434). -/
def firstGranule (p : Nat) : Nat := Config.physBase p / 64
def ownerOf (s : State) (g : Nat) : Option (Nat × Part) :=
  s.parts.find? (fun q => decide (firstGranule q.1 ≤ g) && decide (g < firstGranule q.1 + q.2.dramPages * 4096))
/-- The ciphertext of a data granule (R431, R432): that of its partition's plaintext. What lies outside every share is the device's own,
or was left by an earlier partition: no rule says (R434). -/
def cipherGranule (s : State) (g : Nat) : List Byte :=
  match ownerOf s g with
  | some (p, x) => encryptGranule (partKey s p x) g (readBytes x.mem ((g - firstGranule p) * 64) 64)
  | none => (List.range 64).map (Config.dramResidue g)
/-- The 64 bytes that package k holds at index i: parity is formed over ciphertext, lane by lane (R199, R200, R431). -/
def packageGranule (s : State) (k i : Nat) : List Byte :=
  match stripePart i k with
  | .data j => cipherGranule s (30 * i + j)
  | .parity n => (List.range 64).map (fun b =>
      let (p, q) := rsParity ((List.range 30).map (fun j => ((cipherGranule s (30 * i + j)).getD b 0).toNat))
      BitVec.ofNat 8 (if n = 0 then p else q))
/-- A data granule rebuilt from the packages of its stripe that are neither lost nor report it (R200, R201): its ciphertext. -/
def rebuildGranule (s : State) (bad : List Nat) (g : Nat) : Option (List Byte) :=
  let i := stripeOf g
  let part := fun (k : Nat) => if s.iod.lost.toNat.testBit k || bad.contains k then none else some (packageGranule s k i)
  let lane := fun (b : Nat) => rsRestore ((List.range 30).map (fun j => (part ((2 * i + 2 + j) % 32)).map (fun l => (l.getD b 0).toNat)))
    ((part (2 * i % 32)).map (fun l => (l.getD b 0).toNat)) ((part ((2 * i + 1) % 32)).map (fun l => (l.getD b 0).toNat))
  ((List.range 64).map lane).foldr (fun v r => match v, r with | some l, some r => some (BitVec.ofNat 8 (l.getD (posOf g) 0) :: r) | _, _ => none) (some [])

/-- Packages of a stripe that give nothing: lost ones, and those that report their granule (R200, R203). -/
def erasures (s : State) (bad : List Nat) : Nat := onesOf s.iod.lost + (bad.dedup.filter (fun k => !s.iod.lost.toNat.testBit k)).length
/-- A package is declared lost (R203, R395): the third stops the module. -/
def losePackage (s : State) (k : Nat) : State :=
  if s.iod.lost.toNat.testBit k ∨ !s.mod.lifeStarted then s
  else
    let s := faultLog { s with iod := { s.iod with lost := setBit s.iod.lost k true } } 4 0 0xFF 5 k 0xFFFF 0
    if 3 ≤ onesOf s.iod.lost then tripModule s 0x02 else s
/-- A package reports a granule uncorrectable (R201, R203): 16 within a second and it is lost. -/
def reportGranule (s : State) (k : Nat) : State :=
  let recent := ((tabGetD s.iod.uncorr k []).filter (fun u => decide (now s < u + 1000000000))) ++ [now s]
  let s := { s with iod := { s.iod with uncorr := tabInsert k recent s.iod.uncorr } }
  if 16 ≤ recent.length then losePackage s k else s
/-- Granules that packages report during a read (R201): each is rebuilt from the rest of its stripe, returned and written back; a
stripe with more than two granules gone cannot be rebuilt, and stops the module (R395). -/
def reportRead (s : State) (l : List Nat) : State :=
  let worst := (l.map (fun g => erasures s ((l.filter (fun h => decide (stripeOf h = stripeOf g))).map packageOf))).foldl max 0
  if 2 < worst then tripModule s 0x02 else l.foldl (fun s g => reportGranule s (packageOf g)) s

end Sys2Proof.Machine
end

