-- ==== Sys2Proof/Machine/Memory.lean ====
section
/-! DEFINITION. Memory.lean: module memory as the stream engines, the newts and the pour engine reach it: spaces, pages, requests, the
caddy, the bandwidth credits, the merge and combining buffers (R178, R183-R186, R190, R193-R197, R202, R204-R206). -/

namespace Sys2Proof.Machine

open Sys2Proof

/-- Pieces of the partition's share that `len` bytes from offset `off` of an object's pages occupy (R204, R206). -/
def pageChunks (pages : List Nat) (off len : Nat) : Option (List (Nat × Nat)) :=
  if len = 0 then some []
  else
    let first := off / 262144
    let last := (off + len - 1) / 262144
    if pages.length ≤ last then none
    else some ((List.range (last + 1 - first)).map (fun i =>
      let k := first + i
      let lo := max off (k * 262144)
      let hi := min (off + len) ((k + 1) * 262144)
      (pages.getD k 0 * 262144 + (lo - k * 262144), hi - lo)))

/-- Pages of a KV object (R183, R206): a request of the running steep, or a pinned prefix. -/
def kvPagesOf (s : State) (part : Part) (pin : Bool) (n : Nat) : Option (List Nat) :=
  if pin then (tabGet? n part.pins).map (·.pages)
  else if ((part.running.map ridersOf).getD []).contains n then
    (match tabGet? n part.memberPages with | some l => some l | none => (getEntry? s n).map (·.pages))
  else none

/-- Where the memory side of a transfer lies, or the stream-fault cause and first offending address (R183, R187, R188). -/
inductive MemSide where
  | mem (chunks : List (Nat × Nat)) (pages : List (Nat × Nat))
  | tile (t a : Nat)
  | fault (cause addr : Nat)
  deriving DecidableEq, Repr

/-- The memory cursor resolved (R183). -/
def memSide (s : State) (part : Part) (dir mspace rtile : Nat) (cur : Int) (len : Nat) : MemSide :=
  let bad := (BitVec.ofInt 64 cur).toNat % 2 ^ 40
  if cur < 0 ∨ 2 ^ 64 ≤ cur then .fault 4 bad
  else
    let c := cur.toNat
    let within := fun (limit base : Nat) => if limit < c + len then MemSide.fault 4 (max c limit % 2 ^ 40) else .mem [(base + c, len)] []
    match mspace with
    | 0 => (match part.image with
      | some img => within img.size part.imageBase
      | none => .fault 4 bad)
    | 1 => within (part.dramPages * 262144) 0
    | 2 =>
      let pin := (c >>> 55) % 2 = 1
      let n := (c >>> 40) % 32768
      let off := c % 2 ^ 40
      if 2 ^ 56 ≤ c then .fault 4 off
      else if pin ∧ 16384 ≤ n then .fault 8 off
      else match kvPagesOf s part pin n with
        | none => .fault 8 off
        | some pages =>
          if pin ∧ dir = 1 then .fault 5 off
          else match pageChunks pages off len with
            | none => .fault 8 (max off (pages.length * 262144))
            | some l => .mem l ((List.range ((off + len - 1) / 262144 + 1 - off / 262144)).map (fun i => (b2n pin * 32768 + n, off / 262144 + i)))
    | _ =>
      let a := c % 0x1000000
      if 2 ^ 30 ≤ c then .fault 4 bad
      else if 0x1000000 < a + len then .fault 4 0x1000000
      else match tileOfIndex part (if dir = 3 then rtile else (c >>> 24) % 64) with | some t => .tile t a | none => .fault 4 bad

/-- Bytes of the partition's share in pieces. -/
def readChunks (mem : SMap 8) (l : List (Nat × Nat)) : List Byte := l.flatMap (fun q => readBytes mem q.1 q.2)
/-- Write enabled bytes into pieces. -/
def putOpt (mem : SMap 8) (a : Nat) : List (Option Byte) → SMap 8
  | [] => mem
  | none :: r => putOpt mem (a + 1) r
  | some b :: r => putOpt (smSet mem a b) (a + 1) r
def putChunks (mem : SMap 8) : List (Nat × Nat) → List (Option Byte) → SMap 8
  | [], _ => mem
  | (a, n) :: r, l => putChunks (putOpt mem a (l.take n)) r (l.drop n)
/-- Bytes [off, off + n) of a chain of ranges, as ranges. -/
def sliceRanges : List (Nat × Nat) → Nat → Nat → List (Nat × Nat)
  | [], _, _ => []
  | (a, k) :: r, off, n =>
    if n = 0 then []
    else if k ≤ off then sliceRanges r (off - k) n
    else (a + off, min n (k - off)) :: sliceRanges r 0 (n - min n (k - off))
/-- Memory requests of at most 128 B (R178), cut at 128 B lines of the share (log entry 151): address, length, place in the transfer. -/
def lineCut : Nat → Nat → Nat → Nat → List (Nat × Nat × Nat)
  | 0, _, _, _ => []
  | k + 1, a, n, off =>
    if n = 0 then [] else
    let m := min n (128 - a % 128)
    (a, m, off) :: lineCut k (a + m) (n - m) (off + m)
def requestsOf : List (Nat × Nat) → Nat → List (Nat × Nat × Nat)
  | [], _ => []
  | (a, n) :: r, off => lineCut (n / 128 + 2) a n off ++ requestsOf r (off + n)

/-- 64 B granules that pieces touch. -/
def granulesOf (l : List (Nat × Nat)) : List Nat :=
  l.flatMap (fun q => if q.2 = 0 then [] else (List.range ((q.1 + q.2 - 1) / 64 + 1 - q.1 / 64)).map (fun i => q.1 / 64 + i))

/-- Classes of the regulator, and the newts' own share (R190). -/
inductive RegClass where
  | rd | wr | rm | newt
  deriving DecidableEq, Repr
def creditOf (s : State) (x : Part) : RegClass → Int
  | .rd => x.creditRd
  | .wr => x.creditWr
  | .rm => x.creditRm
  | .newt => s.iod.creditNewt
/-- A request issues when its class's credit is at least 0 (R190). -/
def creditOk (s : State) (p : Nat) (c : RegClass) : Bool := match getPart? s p with | some x => decide (0 ≤ creditOf s x c) | none => true
/-- Charge bytes to a class (R190). -/
def chargeCredit (s : State) (p : Nat) (c : RegClass) (bytes : Nat) : State :=
  let k : Int := (102400 * bytes : Nat)
  match c with
  | .rd => modPart s p (fun x => { x with creditRd := x.creditRd - k, waitRd := false })
  | .wr => modPart s p (fun x => { x with creditWr := x.creditWr - k, waitWr := false })
  | .rm => modPart s p (fun x => { x with creditRm := x.creditRm - k, waitRm := false })
  | .newt => { s with iod := { s.iod with creditNewt := s.iod.creditNewt - k } }
/-- Charges of a long transfer whose requests were paced one by one: the last leaves no less than its own charge (log entry 156). -/
def chargePaced (s : State) (p : Nat) (bytes : Nat) : State :=
  modPart s p (fun x => { x with creditRm := max (x.creditRm - (102400 * bytes : Nat)) (min x.creditRm (-(102400 * 128))) })
/-- A request of a class is turned away for want of credit (R190). -/
def waitCredit (s : State) (p : Nat) : RegClass → State
  | .rd => modPart s p (fun x => { x with waitRd := true })
  | .wr => modPart s p (fun x => { x with waitWr := true })
  | .rm => modPart s p (fun x => { x with waitRm := true })
  | .newt => s

/-- Ways a partition may allocate into (R195, R196). -/
def waysOf (s : State) (part : Part) : List Nat := (List.range 16).filter (fun i => part.caddyWays.getLsbD i && !s.iod.waysOff.getLsbD i)
def waysLeft (s : State) (part : Part) : Bool := decide (waysOf s part ≠ [])
/-- A granule is held for its partition (R195). -/
def caddyHit (l : List CaddyLine) (p g : Nat) : Bool := l.any (fun k => decide (k.part = p) && decide (k.line = g / 2) && k.halves.getLsbD (g % 2))
/-- A line was used: it is its set's most recent. -/
def caddyUse (l : List CaddyLine) (p line : Nat) : List CaddyLine :=
  let mine := fun (k : CaddyLine) => decide (k.part = p) && decide (k.line = line)
  l.filter (fun k => !mine k) ++ l.filter mine
/-- A granule is brought into the caddy: into its line, or a line of the set's is replaced (R193). -/
def caddyFill (ways : List Nat) (l : List CaddyLine) (p g : Nat) : List CaddyLine :=
  if l.any (fun k => decide (k.part = p) && decide (k.line = g / 2)) then
    caddyUse (l.map (fun k => if k.part = p ∧ k.line = g / 2 then { k with halves := setBit k.halves (g % 2) true } else k)) p (g / 2)
  else
    let set := Config.caddySet p (g / 2) % 131072
    let way := ways.getD (Config.caddyVictim ((l.filter (fun k => decide (k.set = set))).map (·.way)) ways % ways.length) 0
    l.filter (fun k => !(decide (k.set = set) && decide (k.way = way))) ++ [{ set := set, way := way, part := p, line := g / 2, halves := setBit 0 (g % 2) true }]
/-- A read goes through the caddy, granule by granule of one request (R190, R193-R197): hits are free, misses are read from DRAM and
charged, and allocated where the hint says so. -/
def caddyRead (s : State) (p : Nat) (cls : RegClass) (alloc : Bool) (l : List (Nat × Nat)) : State :=
  match getPart? s p with
  | none => s
  | some x =>
    let g := granulesOf l
    let miss := g.filter (fun i => !caddyHit s.iod.caddy p i)
    let used := g.foldl (fun c i => if miss.contains i then c else caddyUse c p (i / 2)) s.iod.caddy
    let c := if alloc && waysLeft s x then miss.foldl (fun c i => caddyFill (waysOf s x) c p i) used else used
    let s := modPart s p (fun x => partCtrOf (partCtrOf (partCtrOf x 0x128 (g.length - miss.length)) 0x130 miss.length) 0x118 (64 * miss.length))
    chargeCredit { s with iod := { s.iod with caddy := c } } p cls (64 * miss.length)

/-- A data write enters the combining buffer (R202): a stripe that is complete is written whole, and of more than 512 the
oldest leaves. -/
def combine (c : List (Nat × List Nat)) (g : Nat) : List (Nat × List Nat) :=
  let st := stripeOf g
  let have_ := ((c.find? (fun q => decide (q.1 = st))).map (·.2)).getD []
  let pos := (posOf g :: have_).dedup
  let rest := c.filter (fun q => decide (q.1 ≠ st))
  if 30 ≤ pos.length then rest
  else if c.any (fun q => decide (q.1 = st)) then c.map (fun q => if q.1 = st then (st, pos) else q)
  else (if 512 ≤ rest.length then rest.drop 1 else rest) ++ [(st, pos)]

/-- A write reaches memory (R190, R194, R202, R431): DRAM bytes, the double charge; a write that hits updates its line, a full line
with the hint is allocated. The bytes enter the share as its accesses see it, which is the read, merge and encryption of R431. -/
def memWrite (s : State) (p : Nat) (cls : RegClass) (alloc : Bool) (l : List (Nat × Nat)) (b : List (Option Byte)) : State :=
  match getPart? s p with
  | none => s
  | some x =>
    let n := (b.filter Option.isSome).length
    let g := granulesOf l
    let used := g.foldl (fun c i => if caddyHit c p i then caddyUse c p (i / 2) else c) s.iod.caddy
    let full := if alloc && waysLeft s x && b.all Option.isSome then (l.flatMap (fun q => (granulesOf [q]).filter (fun i =>
      decide (q.1 ≤ i / 2 * 128) && decide (i / 2 * 128 + 128 ≤ q.1 + q.2)))) else []
    let c := full.foldl (fun c i => caddyFill (waysOf s x) c p i) used
    let s := modPart s p (fun x => partCtrOf { x with mem := putChunks x.mem l b } 0x120 n)
    chargeCredit { s with iod := { s.iod with caddy := c, combining := (g.map (fun i => firstGranule p + i)).foldl combine s.iod.combining } } p cls (2 * n)

/-- A merge-buffer entry is written to memory with its byte mask (R185). -/
def flushEntry (s : State) (p : Nat) (e : MergeEntry) : State :=
  memWrite s p .wr false [(e.granule * 64, 64)] ((List.range 64).map (fun i => if e.mask.getLsbD i then some (smGet e.bytes i) else none))
/-- Write out, oldest first, the entries of a tile that a test names, as far as the write class has credit (R185, R190). -/
def flushMerge (s : State) (p t : Nat) (f : MergeEntry → Bool) : State :=
  ((getTile s t).merge.filter f).foldl (fun s e =>
    if creditOk s p .wr then flushEntry (modTile s t (fun x => { x with merge := x.merge.filter (fun k => decide (k.granule ≠ e.granule)) })) p e
    else waitCredit s p .wr) s
/-- One byte merges into its granule's entry (R185): the later byte prevails. -/
def mergeByte (s : State) (t h a : Nat) (b : Byte) : State :=
  let put := fun (e : MergeEntry) => { e with bytes := smSet e.bytes (a % 64) b, mask := setBit e.mask (a % 64) true, handles := setBit e.handles h true }
  modTile s t (fun x =>
    if x.merge.any (fun e => decide (e.granule = a / 64)) then { x with merge := x.merge.map (fun e => if e.granule = a / 64 then put e else e) }
    else { x with merge := x.merge ++ [put { granule := a / 64, bytes := [], mask := 0, handles := 0 }] })
/-- Room in the merge buffer for granules: with no entry free the oldest is written first (R185). Answers whether there is room. -/
def mergeRoom (s : State) (p t : Nat) (g : List Nat) : State × Bool :=
  let new := fun (s : State) => (g.filter (fun i => (getTile s t).merge.all (fun e => decide (e.granule ≠ i)))).length
  let old := ((getTile s t).merge.filter (fun e => !g.contains e.granule)).take ((getTile s t).merge.length + new s - 64)
  let s := flushMerge s p t (fun e => old.any (fun k => decide (k.granule = e.granule)))
  (s, decide ((getTile s t).merge.length + new s ≤ 64))
/-- A light write of one request (R184, R185); a full entry is written as a bulk granule. -/
def lightWrite (s : State) (p t h a : Nat) (l : List (Option Byte)) : State :=
  let s := (l.zipIdx).foldl (fun s q => match q.1 with | some b => mergeByte s t h (a + q.2) b | none => s) s
  flushMerge s p t (fun e => e.mask = BitVec.allOnes 64)
/-- A bulk write or a read of the tile reaches granules: their entries are written first (R185). Answers whether they all are. -/
def flushGranules (s : State) (p t : Nat) (l : List (Nat × Nat)) : State × Bool :=
  let g := granulesOf l
  let s := flushMerge s p t (fun e => g.contains e.granule)
  (s, (getTile s t).merge.all (fun e => !g.contains e.granule))

/-- Where the entry of a page stands in an object's page list (R204, R205, R231): past every share, so that it shares no line with
one (log entry 153). -/
def pageEntry (q : Nat × Nat) : Nat × Nat := (2 ^ 40 + (Config.pageListOffset q.1).toNat + q.2 * Config.pageListEntry, Config.pageListEntry)

/-- The combining buffer gives up a stripe after 1 µs: it is written by read-modify-write (R202). -/
def execCombiningBufferTimeout (stripe : Nat) (s : State) : Res :=
  .next { s with iod := { s.iod with combining := s.iod.combining.filter (fun q => decide (q.1 ≠ stripe)) } }

end Sys2Proof.Machine
end

