-- ==== Sys2Proof/Machine/Stream.lean ====
section
/-! DEFINITION. Stream.lean: SRUN, SSTOP, address programs, transfers, remote scratchpad traffic and waiting claims
(R129, R144, R166-R191, R205). -/

namespace Sys2Proof.Machine

open Sys2Proof

/-- SRUN fields (R144). -/
def srunHandle (i : Iss) : Nat := i.bits 10 8
def srunDir (i : Iss) : Nat := i.bits 27 26
def srunFed (i : Iss) : Bool := srunDir i = 1 && i.bits 25 21 = 0
/-- The header and instructions of the address program at an address, as operands are (R130, R179, R180). -/
def progOpnd (x : Tile) (a : Nat) : Opnd :=
  { num := 15, write := false, base := a, ranges := [(a, 16 + 16 * min (smGet x.spad a).toNat 16)] }
def srunRows (i : Iss) : Rows := if i.bits 62 53 = 0 ∧ i.bits 52 43 = 0 then none else some (i.bits 52 43, i.bits 62 53)
def srunCheck (i : Iss) : Verdict :=
  let prog := (i.reg (i.bits 15 11)).toNat
  let w := i.reg (i.bits 25 21)
  firstOf [
    doneVerdict (doneOf (i.bit 34) (i.bits 42 35)) 42 35,
    holdIf (getHandle i.x (srunHandle i)).busy 8 (srunHandle i),
    i.unitHold false,
    excIf (prog % 16 ≠ 0) 6 4 prog,
    excIf (decide (0x1000000 < prog + 16)) 5 4 (max prog 0x1000000),
    trackVerdict i.x i.c [progOpnd i.x prog],
    (if srunDir i = 2 ∨ srunFed i then .go else wordVerdict w true 0),
    (if srunDir i = 3 ∧ (tileOfIndex i.part (i.bits 33 28)).isNone then .exc 5 1 (addrInfo 2 0) else .go)]
/-- SRUN starts an address program on a handle (R144, R179). -/
def execSrun (t : Fin 64) (c : Fin 4) (w : BitVec 120) (s : State) : Res :=
  issue s t c 0xA0 w [(127, 63)] srunCheck srunRows (fun i =>
    i.accept id (fun x =>
      let lw := i.reg (i.bits 25 21)
      let m : Int := ((i.reg (i.bits 20 16)).toNat : Int)
      { setHandle x (srunHandle i) {
          busy := true, ctx := i.c, pcInstr := i.k.pc, dir := srunDir i, rtile := i.bits 33 28, progAddr := (i.reg (i.bits 15 11)).toNat,
          m := m, m0 := m, l := if srunDir i = 2 then 0 else (opBase lw : Int), localWord := lw, drainFed := srunFed i,
          rows := srunRows i, done := doneOf (i.bit 34) (i.bits 42 35), opId := x.nextOp } with nextOp := x.nextOp + 1 }))

/-- Fields of an address-program instruction (R181). -/
def apOp (w : BitVec 128) : Nat := bits w 3 0
def apLscale (w : BitVec 128) : Bool := bit w 8
def apRow (w : BitVec 128) : Nat := bits w 31 16 * 4
def apLen (w : BitVec 128) : Nat := bits w 63 32
def apM (w : BitVec 128) : Int := signed 32 (bits w 95 64)
def apL (w : BitVec 128) : Int := signed 32 (bits w 127 96)
/-- Bits that an instruction's row does not use (R181). -/
def apReserved (w : BitVec 128) : Bool :=
  bits w 7 4 ≠ 0 || (match apOp w with
    | 0 => bits w 127 8 ≠ 0
    | 1 => bits w 31 8 ≠ 0
    | 2 => bits w 127 8 ≠ 0
    | 3 => bits w 15 9 ≠ 0
    | 4 => bits w 63 8 ≠ 0
    | _ => true)
/-- LOOP and NEXT match, no deeper than 6; END is last and only last (R182). -/
def apNest : Nat → List (BitVec 128) → Bool
  | d, [] => d = 0
  | d, w :: r => match apOp w with
    | 1 => decide (d < 6) && apNest (d + 1) r
    | 2 => (match d with | 0 => false | d + 1 => apNest d r)
    | 0 => d = 0 && decide (r = [])
    | _ => apNest d r
/-- MSPACE legal for DIR (R183). -/
def spaceOk (mspace dir : Nat) : Bool :=
  match mspace with
  | 0 => dir = 0 || dir = 2
  | 1 => decide (dir ≤ 2)
  | 2 => decide (dir ≤ 1)
  | 3 => dir = 0 || dir = 2 || dir = 3
  | _ => false
/-- The first instruction of a malformed program, none for a well-formed one (R180, R182). -/
def apMalformed (hdr : BitVec 128) (dir : Nat) (prog : List (BitVec 128)) : Option Nat :=
  let n := bits hdr 7 0
  if n = 0 ∨ 16 < n ∨ bits hdr 127 24 ≠ 0 ∨ 1 < bits hdr 23 16 ∨ !spaceOk (bits hdr 15 8) dir then some 0
  else match (prog.zipIdx).find? (fun q => apReserved q.1 || (apOp q.1 = 3 && ((apRow q.1 ≠ 0 && apLen q.1 % max 1 (apRow q.1) ≠ 0) || (dir = 2 && (apRow q.1 ≠ 0 || apLscale q.1))))) with
    | some (_, i) => some i
    | none => if apNest 0 prog && (prog.getLast?.map apOp) = some 0 then none else some (n - 1)

/-- Index after the NEXT that matches a LOOP whose body starts at `i` (R181). -/
def apSkip : Nat → Nat → List (BitVec 128) → Nat
  | i, _, [] => i
  | i, d, w :: r => match apOp w with
    | 1 => apSkip (i + 1) (d + 1) r
    | 2 => (match d with | 0 => i + 1 | d + 1 => apSkip (i + 1) d r)
    | _ => apSkip (i + 1) d r
/-- Run LOOP, NEXT and MOVC up to the next XFER or END (R181), at most `n` of them. -/
def apRun : Nat → Handle → Handle
  | 0, h => h
  | n + 1, h =>
    let w := h.prog.getD h.ip 0
    match apOp w with
    | 1 =>
      if apLen w = 0 then apRun n { h with ip := apSkip (h.ip + 1) 0 (h.prog.drop (h.ip + 1)) }
      else apRun n { h with ip := h.ip + 1, loops := { first := h.ip + 1, left := apLen w, m0 := h.m, l0 := h.l } :: h.loops }
    | 2 =>
      match h.loops with
      | [] => h
      | f :: r =>
        let lw := h.prog.getD (f.first - 1) 0
        if 1 < f.left then apRun n { h with ip := f.first, m := h.m + apM lw, l := h.l + apL lw, loops := { f with left := f.left - 1 } :: r }
        else apRun n { h with ip := h.ip + 1, m := f.m0, l := f.l0, loops := r }
    | 4 => apRun n { h with ip := h.ip + 1, m := h.m + apM w, l := h.l + apL w }
    | _ => h

/-- Stream fault: exception 0x07 of the SRUN's context (R187, R188). -/
def streamFault (s : State) (t h cause space instr addr : Nat) : State :=
  let hd := getHandle (getTile s t) h
  takeException s t hd.ctx 7 0xA0 hd.pcInstr 6 (streamInfo cause h space instr addr) hd.rows

/-- Earlier matrix, drain and vector work of the context has ended, so the transfer may start (R129). -/
def mayStart (x : Tile) (hd : Handle) : Bool :=
  hd.drainFed ||
  (x.mats.all (fun m => !(m.ctx = hd.ctx && decide (m.id < hd.opId))) && x.drains.all (fun d => !(d.ctx = hd.ctx && decide (d.id < hd.opId))) &&
   x.vecs.all (fun v => !(v.ctx = hd.ctx && decide (v.id < hd.opId))))

/-- Local side of an XFER (R181): address and row pitch. -/
def localSide (hd : Handle) (w : BitVec 128) : Int × Nat :=
  if apLscale w then (hd.l + opSoff hd.localWord + apL w, opSpitch hd.localWord) else (hd.l + apL w, opPitch hd.localWord)
/-- Bytes of a local side cut into rows (R181). -/
def localRanges (a len row pitch : Nat) : List (Nat × Nat) :=
  if row = 0 then [(a, len)] else (List.range (len / row)).map (fun i => (a + i * pitch, row))
/-- Scatter bytes over local ranges. -/
def scatter : List (Nat × Nat) → List Byte → List (Nat × List Byte)
  | [], _ => []
  | (a, n) :: r, l => (a, l.take n) :: scatter r (l.drop n)
/-- Ranges of the scratchpad that an XFER reads or writes in its own tile: none where it is drain-fed or fills ARR. -/
def xferRanges (hd : Handle) (w : BitVec 128) : List (Nat × Nat) :=
  if hd.drainFed ∨ hd.dir = 2 then [] else localRanges (localSide hd w).1.toNat (apLen w) (apRow w) (localSide hd w).2
/-- The scratchpad side of a transfer as an operand of its operation (R166, R172). -/
def localOpnd (hd : Handle) (w : BitVec 128) : Opnd :=
  { num := 16, write := hd.dir = 0, base := opBase hd.localWord, ranges := xferRanges hd w }
/-- BASE of a transfer's operand in another tile: the scratchpad address it started with (R172, R183; log entry 154). -/
def Handle.farBase (hd : Handle) : Nat := hd.m0.toNat % 0x1000000

/-- One side of a transfer in a scratchpad: locked regions, slots and records, and the region its operation has kept to so far (R165,
R166, R172). Answers a stream-fault cause and the first offending address. -/
def sideBad (y : Tile) (o : Opnd) (seen : Option Region) : Option (Nat × Nat) :=
  match (if o.write then o.ranges.find? (fun r => touchesLocked y.map r.1 (r.1 + r.2)) else none) with
  | some r => some (7, r.1)
  | none =>
    match footRegion y.map o.base o.ranges with
    | .straddle => some (6, (o.ranges.headD (0, 0)).1)
    | .outRecord => some (6, outOfRecord y.map o)
    | g => match seen with
      | some g' => if g = g' then none else some (6, (o.ranges.headD (0, 0)).1)
      | none => none
/-- Bytes already asked for ARR's fill (R191). -/
def fillAsked (s : State) (t : Nat) : Nat :=
  let x := getTile s t
  x.arr.fill + ((x.handles.filter (fun h => h.2.dir = 2)).flatMap (fun h => h.2.reads.map (fun q => (q.chunks.map (·.2)).sum))).sum +
    ((s.remotes.filter (fun r => r.toArr && decide (r.src = t))).map (·.len)).sum
/-- Checks of one XFER: path and alignment (R184), local side (R165, R166, R172), the ring schedule (R191). Answers a
stream-fault cause, the side it lies on (7 local) and the first offending address (R188). -/
def xferBad (s : State) (t : Nat) (part : Part) (hd : Handle) (w : BitVec 128) : Option (Nat × Nat × Nat) :=
  let x := getTile s t
  let len := apLen w
  let mem := hd.m + apM w
  let la := (localSide hd w).1
  let sp := hd.mspace
  let addr := (BitVec.ofInt 64 mem).toNat % 2 ^ 40
  if 256 < len ∧ (mem % 64 ≠ 0 ∨ len % 64 ≠ 0) then some (2, sp, addr)
  else if len ≤ 256 ∧ (mem % 4 ≠ 0 ∨ len % 4 ≠ 0 ∨ len < 4) then some (1, sp, addr)
  else if hd.drainFed then none
  else if la % 4 ≠ 0 then some (1, 7, la.toNat)
  else if hd.dir = 2 then
    let leaf := (ringRounds part).getD x.ringRound 0
    if la < 0 ∨ (ringRounds part).length ≤ x.ringRound ∨ x.ringPos ≠ 0 ∨ x.arr.full then some (9, 7, la.toNat)
    else if (leaf : Int) < la + len ∨ (hd.sent = 0 ∧ leaf < fillAsked s t + len) then some (9, 7, max la.toNat leaf)
    else none
  else if la < 0 then some (6, 7, 0)
  else
    match pastLimit 0x1000000 (xferRanges hd w) with
    | some a => some (6, 7, a)
    | none => (sideBad x (localOpnd hd w) hd.side).map (fun q => (q.1, 7, q.2))
/-- The other tile's side of an XFER (R175): a stream-fault cause and address. -/
def farBad (s : State) (hd : Handle) : MemSide → Nat → Option (Nat × Nat)
  | .tile u a, len => sideBad (getTile s u) (farOpnd (hd.dir = 3) hd.farBase a len) ((hd.far.find? (fun q => decide (q.1 = u))).map (·.2.2))
  | _, _ => none

/-- The operation of a handle at another tile, made with its first transfer there (R166; log entry 154). -/
def farOp (s : State) (t h u : Nat) (o : Opnd) : State × Nat :=
  let hd := getHandle (getTile s t) h
  match hd.far.find? (fun q => decide (q.1 = u)) with
  | some q => (s, q.2.1)
  | none =>
    let op := (getTile s u).nextOp
    let g := footRegion (getTile s u).map o.base o.ranges
    let s := modTile s u (fun y => { y with nextOp := op + 1 })
    (modTile s t (fun x => setHandle x h { getHandle x h with far := (hd.far ++ [(u, op, g)]) }), op)
/-- A handle has asked for `n` more bytes of its XFER; once all are asked for it goes on. -/
def handleSent (s : State) (t h len n : Nat) (f : Handle → Handle) : State :=
  modTile s t (fun x =>
    let k := f (getHandle x h)
    setHandle x h (if len ≤ k.sent + n then { k with sent := 0, ip := k.ip + 1 } else { k with sent := k.sent + n }))
/-- Drain rows that a program takes: bytes, and what is left of the rows (R182). -/
def takeFed : Nat → List (Nat × Nat × Bool) → List (Nat × Nat × Bool)
  | _, [] => []
  | n, (c, k, whole) :: r => if n = 0 then (c, k, whole) :: r else if k ≤ n then takeFed (n - k) r else (c, k - n, false) :: r

/-- A transfer between scratchpads is issued (R175, R176, R183): DIR = 3 sends the bytes, a read asks for them. -/
def xferTile (s : State) (t p h u a : Nat) (hd : Handle) (w : BitVec 128) : State :=
  let len := apLen w
  let o := farOpnd (hd.dir = 3) hd.farBase a len
  let x := getTile s t
  let here := opndReads x hd.opId [localOpnd hd w]
  let (s, op) := farOp s t h u o
  let r : Remote := {
    src := t, dst := u, ctx := hd.ctx, read := decide (hd.dir ≠ 3), addr := a, base := hd.farBase, len := len, handle := some h, part := p,
    toArr := decide (hd.dir = 2), op := some op, runs := if hd.dir = 3 then [(a, here.flatMap (fun q => readBytes x.spad q.1 q.2))] else [],
    loc := if hd.dir = 2 then [((localSide hd w).1.toNat, len)] else xferRanges hd w }
  let s := if hd.dir = 3 then modTile s t (fun x => correctReads x here) else s
  handleSent { s with remotes := s.remotes ++ [r] } t h len len id
/-- Requests of a handle and of a tile in flight (R178). -/
def readsOut (x : Tile) : Nat := (x.handles.map (fun q => q.2.reads.length)).sum
/-- One write request of an XFER (R178, R184, R185, R190): answers the state and whether it was issued. -/
def writeRequest (s : State) (t p h : Nat) (hd : Handle) (w : BitVec 128) (a n off : Nat) : State × Bool :=
  let len := apLen w
  let bulk := decide (256 < len)
  let x := getTile s t
  let here := sliceRanges (opndReads x hd.opId [localOpnd hd w]) off n
  let data : List (Option Byte) := if hd.drainFed then (getHandle x h).fed.take n else (here.flatMap (fun r => readBytes x.spad r.1 r.2)).map some
  let q := if bulk then flushGranules s p t [(a, n)] else mergeRoom s p t (granulesOf [(a, n)])
  if !q.2 then (q.1, false)
  else if bulk && !creditOk q.1 p .wr then (waitCredit q.1 p .wr, false)
  else
    let s := modTile (if bulk then memWrite q.1 p .wr (hd.hint = 0) [(a, n)] data else lightWrite q.1 p t h a data) t (fun x => correctReads x here)
    (handleSent s t h len n (fun k => if k.drainFed then { k with fed := k.fed.drop n, fedRuns := takeFed n k.fedRuns } else k), true)
/-- One read request of an XFER. -/
def readRequest (s : State) (t p h : Nat) (hd : Handle) (w : BitVec 128) (a n off : Nat) : State × Bool :=
  if 64 ≤ (getHandle (getTile s t) h).reads.length ∨ 256 ≤ readsOut (getTile s t) then (s, false)
  else
    let q := flushGranules s p t [(a, n)]
    if !q.2 then (q.1, false)
    else if !creditOk q.1 p .rd then (waitCredit q.1 p .rd, false)
    else
      let runs := if hd.dir = 2 then [((localSide hd w).1.toNat + off, n)] else sliceRanges (xferRanges hd w) off n
      (handleSent (caddyRead q.1 p .rd (hd.hint = 0 || decide (apLen w ≤ 256)) [(a, n)]) t h (apLen w) n (fun k => { k with reads := k.reads ++ [{ chunks := [(a, n)], runs := runs }] }), true)
/-- One memory request of an XFER: address, length and offset within it. -/
def memRequest (s : State) (t p h : Nat) (hd : Handle) (w : BitVec 128) (q : Nat × Nat × Nat) : State × Bool :=
  if hd.dir = 1 then writeRequest s t p h hd w q.1 q.2.1 q.2.2 else readRequest s t p h hd w q.1 q.2.1 q.2.2
/-- Requests in program order, up to the first that cannot issue. -/
def memRequests (t p h : Nat) (hd : Handle) (w : BitVec 128) : State → List (Nat × Nat × Nat) → State
  | s, [] => s
  | s, q :: r =>
    let a := memRequest s t p h hd w q
    if a.2 then memRequests t p h hd w a.1 r else a.1

/-- The program has come to its END with rows of drains that it has not touched: they arrived after its end (R182, R187). -/
def surplusRows (hd : Handle) : Bool := hd.drainFed && hd.loaded && apOp (hd.prog.getD hd.ip 0) = 0 && hd.fedRuns.any (fun q => q.2.2)
/-- The stream fault of a drain-fed program that has ended with rows left (log entry 150). -/
def surplusFault (s : State) (t h : Nat) : State :=
  let hd := apRun 128 (getHandle (getTile s t) h)
  if surplusRows hd then streamFault s t h 0xA hd.mspace hd.ip ((BitVec.ofInt 64 hd.m).toNat % 2 ^ 40) else s

/-- A handle reads its program when its transfer may start (R129, R161, R179, R182). -/
def loadProgram (s : State) (t h : Nat) : State :=
  let x := getTile s t
  let h0 := getHandle x h
  let o := progOpnd x h0.progAddr
  match poisoned x o.ranges with
  | some q => spadFault s t q 0
  | none =>
    let hdr : BitVec 128 := readLE x.spad h0.progAddr 16 128
    let prog : List (BitVec 128) := (List.range (min (bits hdr 7 0) 16)).map (fun i => readLE x.spad (h0.progAddr + 16 + 16 * i) 16 128)
    match apMalformed hdr h0.dir prog with
    | some i => streamFault s t h 3 7 i h0.progAddr
    | none => setTile s t (setHandle (correctReads x o.ranges) h { h0 with loaded := true, prog := prog, mspace := bits hdr 15 8, hint := bits hdr 23 16 })

/-- The stream engine works on a handle: it reads the program when the transfer may start, runs it up to the next XFER and
issues that transfer's requests as its claim, its page translations, its class's credit, its drain rows and the engine's request slots
allow (R129, R166, R167, R178-R190, R205). A landing side is claimed with its first write, not here. -/
def execStreamXfer (t : Fin 64) (h : Fin 8) (s : State) : Res :=
  let h0 := getHandle (getTile s t) h
  match partOfTile s t with
  | none => .next s
  | some p => match getPart? s p with
    | none => .next s
    | some part =>
      if !h0.busy || !mayStart (getTile s t) h0 || h0.walking.isSome then .next s
      else if !h0.loaded then .next (loadProgram s t h)
      else
        let hd := if h0.sent = 0 then apRun 128 h0 else h0
        let s := modTile s t (fun x => setHandle x h hd)
        let w := hd.prog.getD hd.ip 0
        if apOp w ≠ 3 then .next (surplusFault s t h)
        else match xferBad s t part hd w with
        | some (cause, space, addr) => .next (streamFault s t h cause space hd.ip addr)
        | none =>
          match memSide s part hd.dir hd.mspace hd.rtile (hd.m + apM w) (apLen w) with
          | .fault cause addr => .next (streamFault s t h cause hd.mspace hd.ip addr)
          | side =>
            match farBad s hd side (apLen w) with
            | some (cause, addr) => .next (streamFault s t h cause hd.mspace hd.ip addr)
            | none =>
              if hd.drainFed ∧ hd.fed.length < apLen w - hd.sent then .next s
              else
                let o := localOpnd hd w
                let s := modTile s t (fun x => setHandle x h { getHandle x h with side := if o.ranges = [] then hd.side else some (footRegion x.map o.base o.ranges) })
                let s := if o.write then s else modTile s t (fun x => retryClaims (makeClaims x hd.opId hd.ctx false [o]) hd.opId)
                if !o.write && !claimsTaken (getTile s t) hd.opId then .next s
                else match (if o.write then none else poisoned (getTile s t) (opndReads (getTile s t) hd.opId [o])) with
                | some q => .next (spadFault s t q 0)
                | none =>
                  match side with
                  | .tile u a => .next (xferTile s t p h u a hd w)
                  | .fault _ _ => .next s
                  | .mem chunks pages =>
                    match pages.find? (fun q => !((getTile s t).xlate.contains q)) with
                    | some q =>
                      if !creditOk s p .rd then .next (waitCredit s p .rd)
                      else .next (modTile (caddyRead s p .rd true [pageEntry q]) t (fun x => setHandle x h { getHandle x h with walking := some q }))
                    | none => .next (memRequests t p h hd w s ((requestsOf chunks 0).filter (fun q => decide (hd.sent ≤ q.2.2))))

/-- A missed page entry has been read: the translation cache keeps 64 (R205). -/
def execPageWalkDone (t : Fin 64) (h : Fin 8) (s : State) : Res :=
  .next (modTile s t (fun x =>
    let hd := getHandle x h
    match hd.walking with
    | none => x
    | some q =>
      let l := x.xlate ++ [q]
      { setHandle x h { hd with walking := none } with xlate := if 64 < l.length then l.drop 1 else l }))

/-- Leaf bytes of the round a tile fills (R191). -/
def leafBytes (part : Part) (x : Tile) : Nat := (ringRounds part).getD x.ringRound 0
/-- Bytes that land in ARR, with its fill count (R70, R191). -/
def landArr (x : Tile) (leaf loc : Nat) (b : List Byte) : Tile :=
  let fill := x.arr.fill + b.length
  { x with arr := { bytes := writeBytes x.arr.bytes loc b, fill := fill, full := decide (leaf ≤ fill) } }
/-- A handle's landing side as an operand: its ranges. -/
def landOpnd (hd : Handle) (runs : List (Nat × Nat)) : Opnd := { num := 16, write := true, base := opBase hd.localWord, ranges := runs }
/-- A landing side claims its slot or record with its first write (R167). -/
def landClaim (x : Tile) (hd : Handle) (runs : List (Nat × Nat)) : Tile :=
  if hd.dir = 0 then retryClaims (makeClaims x hd.opId hd.ctx false [landOpnd hd runs]) hd.opId else x
/-- Bytes land at a handle's local side: in ARR, or in its scratchpad ranges by the record claimed. -/
def landBytes (x : Tile) (leaf : Nat) (hd : Handle) (runs : List (Nat × Nat)) (b : List Byte) : Tile :=
  if hd.dir = 2 then landArr x leaf ((runs.headD (0, 0)).1) b
  else spadPuts x (scatter (opndReads x hd.opId [landOpnd hd runs]) b)
/-- A memory read lands (R167, R178, R201): granules that packages report on the way, by their place among those read, are rebuilt. While
the claim of its first write waits, it waits. -/
def execStreamReadLand (t : Fin 64) (h : Fin 8) (r : LandRead) (s : State) : Res :=
  let hd := getHandle (getTile s t) h
  match hd.reads[r.read]?, partOfTile s t with
  | some q, some p =>
    (match getPart? s p with
     | none => .next s
     | some part =>
       let s := modTile s t (fun x => landClaim x hd q.runs)
       if hd.dir = 0 && !claimsTaken (getTile s t) hd.opId then .next s
       else
         let s := modTile s t (fun x => setHandle (landBytes x (leafBytes part x) hd q.runs (readChunks part.mem q.chunks)) h { hd with reads := dropIdx hd.reads r.read })
         let g := granulesOf q.chunks
         .next (reportRead s ((r.bad.filterMap (fun k => g[k]?)).map (fun k => firstGranule p + k))))
  | _, _ => .next s

/-- Nothing of a handle's transfer is on its way (R144, R185). -/
def handleQuiet (s : State) (t h : Nat) : Bool :=
  let hd := getHandle (getTile s t) h
  decide (hd.reads = []) && s.remotes.all (fun r => !(decide (r.src = t) && decide (r.handle = some h))) && (getTile s t).merge.all (fun e => !e.handles.getLsbD h)
/-- A handle becomes idle: its operation completes in its own tile and in the others it reached (R144, R167). -/
def endHandle (s : State) (t h : Nat) : State :=
  let hd := getHandle (getTile s t) h
  let s := hd.far.foldl (fun s q => modTile s q.1 (fun y => completeOp y q.2.1)) s
  modTile s t (fun x => setHandle (completeOp x hd.opId) h { rows := hd.rows, m := hd.m, ip := hd.ip, mspace := hd.mspace, pcInstr := hd.pcInstr, ctx := hd.ctx })
/-- A handle's transfer is complete: its program has ended, everything has landed, its merge entries are written (R144, R185). -/
def execStreamDone (t : Fin 64) (h : Fin 8) (s : State) : Res :=
  let hd := apRun 128 (getHandle (getTile s t) h)
  match partOfTile s t with
  | none => .next s
  | some p =>
    if !(hd.busy && hd.loaded && hd.sent = 0 && apOp (hd.prog.getD hd.ip 0) = 0) then .next s
    else if surplusRows hd then .next (surplusFault s t h)
    else
      let s := modTile s t (fun x => setHandle x h hd)
      let s := flushMerge s p t (fun e => e.handles.getLsbD h)
      if !handleQuiet s t h then .next s else .next (addDone (endHandle s t h) t hd.ctx hd.done)

/-- SSTOP: transfers already issued complete, the handle is then idle, its flag is not incremented (R144). -/
def execSstop (t : Fin 64) (c : Fin 4) (w : BitVec 120) (s : State) : Res :=
  issue s t c 0xA1 w [(127, 11)] (fun i => i.unitHold false) noRows (fun i =>
    let h := i.bits 10 8
    let s := i.accept id id
    let hd := getHandle (getTile s i.t) h
    if !hd.busy then s
    else
      let s := modTile s i.t (fun x => setHandle x h { hd with loaded := true, prog := [0], ip := 0, loops := [], sent := 0, walking := none, fed := [], fedRuns := [], done := none })
      if handleQuiet s i.t h then endHandle s i.t h else s)

/-- A merge-buffer entry untouched for 512 NCLK is written (R185), once the write class has credit. -/
def execMergeEntryTimeout (t : Fin 64) (i : Nat) (s : State) : Res :=
  match (getTile s t).merge[i]?, partOfTile s t with
  | some e, some p => .next (flushMerge s p t (fun k => decide (k.granule = e.granule)))
  | _, _ => .next s

/-- A waiting claim is taken (R168, R169, R172). -/
def execTagClaim (t : Fin 64) (i : Nat) (s : State) : Res := .next (modTile s t (fun x => tryClaim x i))

/-- Remote transfers of one source to one target arrive in issue order (R176). -/
def remoteBlocked (l : List Remote) (i : Nat) (r : Remote) : Bool := (l.take i).any (fun q => decide (q.src = r.src) && decide (q.dst = r.dst))
/-- A remote write reaches its target tile (R167, R175, R176, R177): held at the source while its claim waits. A drain's is complete
then, and its DONE flag is incremented (R139); a handle's completes with the handle. -/
def execRemoteWriteArrive (i : Nat) (s : State) : Res :=
  match s.remotes[i]? with
  | none => .next s
  | some r =>
    if r.read ∨ remoteBlocked s.remotes i r then .next s
    else
      let s := modTile s r.dst (fun y => farClaim y r)
      let y := getTile s r.dst
      if !farReady y r then .next s
      else
        let y := spadPuts y (r.runs.map (fun q => (q.1 + farShift y r, q.2)))
        let n := (r.runs.map (fun q => q.2.length)).sum
        let y := if r.src = r.dst then y else tileCtr y 0x90 (ceilDiv n 64)
        let s := setTile { s with remotes := dropIdx s.remotes i } r.dst (match r.op, r.handle with | some op, none => completeOp y op | _, _ => y)
        .next (addDone s r.src r.ctx r.done)
/-- A remote read is served and its data lands at the requester (R161, R167, R175, R177), each side once its claim is taken. -/
def execRemoteReadReturn (i : Nat) (s : State) : Res :=
  match s.remotes[i]? with
  | none => .next s
  | some r =>
    let hd := getHandle (getTile s r.src) (r.handle.getD 0)
    if !r.read ∨ remoteBlocked s.remotes i r then .next s
    else
      let s := modTile s r.dst (fun y => farClaim y r)
      let y := getTile s r.dst
      if !farReady y r then .next s
      else
        let a := r.addr + farShift y r
        match poisoned y [(a, r.len)] with
        | some q => .next (spadFault s r.dst q 0)
        | none =>
          let s := modTile s r.src (fun x => landClaim x hd r.loc)
          if !r.toArr && !claimsTaken (getTile s r.src) hd.opId then .next s
          else
            let b := readBytes y.spad a r.len
            let s := modTile { s with remotes := dropIdx s.remotes i } r.dst (fun y =>
              let y := correctReads y [(a, r.len)]
              if r.src = r.dst then y else tileCtr y 0x98 (ceilDiv r.len 64))
            let leaf := fun (x : Tile) => match getPart? s r.part with | some q => leafBytes q x | none => 0
            .next (modTile s r.src (fun x => landBytes x (leaf x) hd r.loc b))

end Sys2Proof.Machine
end

