-- ==== Sys2Proof/Machine/Boundary.lean ====
section
/-! DEFINITION. Boundary.lean: barriers' release, the composition point and the boundary, reads of a composition, release
of a steep, sampling and head-start rows, completion of requests (R8-R19, R208-R219, R233-R276, R360, R396). -/

namespace Sys2Proof.Machine

open Sys2Proof

/-- Chunks of a request in all: the head-start chunk counts when N ≥ 2 (R277). -/
def totalChunks (e : Entry) : Nat := promptChunks e.f + b2n (decide (2 ≤ e.emitted.length))
/-- CACHE_END (R276). -/
def cacheEnd (f : ReqFields) (n : Nat) : Nat := f.length.toNat + max n 1 - 1

/-- The chunk as it falls due (R245, R253). -/
def jobOf (x : Part) (i : Nat) (e : Entry) (chunk first count : Nat) (headstart : Bool) (final : Option (List Word32 × BitVec 8)) (wait : Bool) : PourJob :=
  { entry := i, f := e.f, chunk := chunk, first := first, count := count, pages := e.pages, statePages := e.statePages,
    pinLen := startPos x e.f, pinPages := match pinOf x e.f with | some q => q.pages | none => [],
    headstart := headstart, final := final, wait := wait }
/-- Queue chunks on the request's target, in order (R330). -/
def queueJobs (s : State) (p : Nat) (f : ReqFields) (l : List PourJob) : State :=
  modPart s p (fun x => { x with targets := x.targets.map (fun q => if q.1 = f.pourTarget.toNat then (q.1, { q.2 with queue := q.2.queue ++ l }) else q) })

/-- RESULT of a request's final completion (R276, R313). -/
def finalResult (e : Entry) : BitVec 128 :=
  if e.f.kind = 0 then
    let n := e.emitted.length
    let tok := fun (o : Option Word32) => match o with | some t => t.toNat | none => 0xFFFFFFFF
    BitVec.ofNat 128 (resAt 16 (tok e.emitted.head?) + resAt 20 (tok e.emitted.getLast?) + resAt 24 n + resAt 25 e.stop.toNat
      + resAt 26 e.rounds + resAt 27 e.d + resAt 28 (cacheEnd e.f n))
  else if e.f.kind = 1 then BitVec.ofNat 128 (resAt 16 e.outBytes.length + resAt 20 (crc32c e.outBytes).toNat)
  else BitVec.ofNat 128 (resAt 16 (seqSum e.gathered).toNat + resAt 20 e.f.contLen.toNat + resAt 24 (crc32c e.outBytes).toNat)

/-- The deadline has passed (R248). -/
def missed (s : State) (e : Entry) : Bool := e.f.deadline ≠ 0 && (e.late.isSome || decide (e.f.deadline.toNat < now s))
/-- The final completion of a request that succeeded: OK or DEADLINE_MISSED with its reason (R15, R237, R248). -/
def postFinal (s : State) (e : Entry) (result : BitVec 128) : State :=
  if missed s e then partCtr (postReq s e stDEADLINE true false (e.late.getD e.f.delay) result) (entryPart e) 0x168 1
  else postReq s e stOK true false 0 result
/-- A request becomes DONE: its pages return and its completion is posted (R237, R245). -/
def doneNow (s : State) (i : Nat) (e : Entry) (result : BitVec 128) (keepPages : Bool) : State :=
  let s := if keepPages then s else returnPages s (entryPart e) e
  let s := finishPauses s e stTOO_LATE
  let s := setEntryM s i { e with st := .done, pages := [], statePages := 0, pauseAsked := [], newt := none, finalPosted := true }
  idleCompose (postFinal s e result) (entryPart e)
/-- A POURING request with nothing outstanding becomes DONE (R237). -/
def tryDone (s : State) (i : Nat) : State :=
  match getEntry? s i with
  | none => s
  | some e =>
    if e.st = .pouring ∧ e.samples = [] ∧ !e.resultDue ∧ !e.f.isPin ∧ (e.f.kind ≠ 0 ∨ totalChunks e ≤ e.f.progress.toNat) then
      doneNow s i e (finalResult e) false
    else s

/-- The lowest pin number that is free. -/
def freePin (x : Part) : Nat := firstGap 0 x.pins
/-- A pin job is DONE: its pages pass to the pinned prefix (R252, R313). -/
def pinDone (s : State) (p i : Nat) : State :=
  match getEntry? s i, getPart? s p with
  | some e, some x =>
    let n := freePin x
    let pin : Pin := { tenant := e.f.tenant.toNat, length := e.f.length.toNat, crc := e.f.tokenCrc, measurement := e.f.measurement, pages := e.pages, retiring := false }
    let s := mirror (setPart s p { x with pins := tabInsert n pin x.pins }) (.pin p n pin.length pin.crc)
    doneNow s i { e with f := { e.f with progress := 0 } }
      (BitVec.ofNat 128 (resAt 16 n + resAt 20 pin.length + resAt 24 pin.pages.length + resAt 28 pin.crc.toNat)) true
  | _, _ => s

/-- Token bytes, 4 each (R240). -/
def tokBytes (l : List Word32) : List Byte := l.flatMap (fun t => natToBytes 4 t.toNat)
/-- Where the output of a steep's row lies in the logit buffer: offset in the share (R233, R234, R269; log entry 19). -/
def logitAt (img : Image) (n row : Nat) : Nat := img.logitBase + (n % 2 * 32768 + row) * (4 * max img.vocab img.embedDim)
/-- The last row of an EMBED or SCORE request has been taken: its result is ready to be written (R233, R342). -/
def closeRows (img : Image) (e : Entry) : Entry :=
  let score := decide (e.f.kind = 2)
  let n := toF32 (.fin false e.f.length.toNat 0)
  let g := if !score && img.poolMean then e.gathered.map (fun x => fdiv x n) else e.gathered
  { e with gathered := g, outBytes := if score then tokBytes g else vectorBytes img.embedFmt.toNat g, resultDue := true }

/-- One rider's computed rows at B(n): chunks that end there fall due, output rows wait for a newt, the state follows R237. -/
def advanceRider (s : State) (p : Nat) (img : Image) (st : Steep) (r : Placement) : State :=
  match getEntry? s r.entry, getPart? s p with
  | some e, some x =>
    let e := { e with f := { e.f with charges := 0 } }
    if r.dead then s
    else if r.head then
      if r.filled ∧ e.st = .headstart then setEntryM s r.entry { e with samples := e.samples ++ [.round (r.count - 1) (logitAt img st.n r.first)] } else s
    else if e.st ≠ .steeping then s
    else
      let hi := r.pos + r.count
      let lo := if e.computed = startPos x e.f then 0 else e.computed
      let last := decide (hi = e.f.length.toNat)
      let cl := chunkLen e.f
      let wait := last && samplesFirst e.f
      let ends := (List.range (promptChunks e.f)).filter (fun c =>
        let z := min ((c + 1) * cl) e.f.length.toNat
        decide (lo < z) && decide (z ≤ hi) && decide (e.f.progress.toNat ≤ c))
      let jobs := ends.map (fun c => jobOf x r.entry e c (c * cl) (min ((c + 1) * cl) e.f.length.toNat - c * cl) false
        (if c + 1 = promptChunks e.f ∧ e.f.maxNew = 0 then some ([], 0) else none) wait)
      let outs := (List.range r.count).filter (fun k => scoreRow e.f (r.pos + k))
      let new : List Sample :=
        if e.f.isPin then []
        else if e.f.kind = 0 then (if wait then [.first (logitAt img st.n (r.first + r.count - 1))] else [])
        else if e.f.kind = 1 then [.embed r.pos r.count (logitAt img st.n r.first)]
        else match outs with | [] => [] | k :: _ => [.score (r.pos + k) outs.length (logitAt img st.n (r.first + k))]
      let stNew : ReqState := if !last then .steeping
        else if e.f.kind = 0 ∧ 2 ≤ e.f.maxNew.toNat ∧ !e.f.isPin then .headstart else .pouring
      let s := if last then finishPauses s { e with pauseAsked := e.pauseAsked.filter (fun q => decide (q.2.2 ≤ st.n)) } stTOO_LATE else s
      let e' := { e with st := stNew, computed := hi, samples := e.samples ++ new, preempted := e.preempted && !last,
                         pauseAsked := if last then e.pauseAsked.filter (fun q => !decide (q.2.2 ≤ st.n)) else e.pauseAsked }
      let e' := if last ∧ e.f.kind ≠ 0 ∧ e'.samples = [] then closeRows img e' else e'
      let s := setEntryM s r.entry e'
      if e.f.isPin then (if last then pinDone s p r.entry else s)
      else tryDone (if e.f.kind = 0 then queueJobs s p e.f jobs else s) r.entry
  | _, _ => s

/-- Preemptions and pauses that take effect at B(n) (R237, R239, R246); the marks of a composition that still waits for its reads take
effect when it is done. -/
def settleAt (s : State) (p n : Nat) : State :=
  (entriesOf s p).foldl (fun s q =>
    match getEntry? s q.1 with
    | none => s
    | some e =>
      if (e.st = .steeping ∨ e.st = .headstart) ∧ pausing e n then pauseNow (modEntry s q.1 (fun e => { e with preempted := false })) p q.1
      else if e.st = .steeping ∧ e.preempted ∧ ((getPart? s p).bind (·.next)).all (·.composed) then preemptNow s p q.1
      else s) s
/-- Marks of a composition that is done while no steep runs, or that was done after B(n), take effect (R237, R246). -/
def settleMarks (s : State) (p : Nat) (l : List Nat) : State :=
  l.foldl (fun s i => match getEntry? s i with | some e => if e.st = .steeping ∧ e.preempted then preemptNow s p i else s | none => s) s

/-- Waits at the barrier and for leaves that a tile has counted (R396). -/
def slowSum (x : Tile) : Nat := (smGet x.ctrs 0xB0).toNat + (smGet x.ctrs 0x68).toNat
/-- The named tile and whether it was slow in this steep (R396): waits by tile, duration in ns. -/
def slowTile (l : List (Nat × Nat)) (ns : Nat) : Option Nat :=
  let named := l.foldl (fun a q => match a with | none => some q | some b => if q.2 < b.2 then some q else some b) none
  let v := sortBy (fun a b => decide (a ≤ b)) (l.map (·.2))
  let m := v.getD ((v.length - 1) / 2) 0 + v.getD (v.length / 2) 0
  match named with
  | none => none
  | some q => if 2 ≤ l.length ∧ 3 * ns < 20 * (m - 2 * q.2) then some q.1 else none
/-- A tile slow in 100 counted steeps is replaced by its spare, or named in the log (R396). -/
def replaceSlow (s : State) (p t : Nat) : State :=
  let s := modPart s p (fun x => { x with slowRuns := tabInsert t 0 x.slowRuns })
  let (spare, s) := spareTest s t
  let s := faultLog s 3 0 p (if spare then 2 else 0) t (physOf s t) 0
  if !spare then s
  else
    let s := mapSpare s t
    match (getPart? s p).bind (·.next) with
    | some st => if st.composed then writeRowMaps s p st else s
    | none => s
/-- The slow-tile rule after a steep (R396); throttled steeps neither count nor break a run. -/
def slowRule (s : State) (p : Nat) : State :=
  match getPart? s p with
  | none => s
  | some x =>
    let due := (maskTiles x.tileMask).filter (fun t => decide (100 ≤ tabGetD x.slowRuns t 0))
    let s := due.foldl (fun s t => replaceSlow s p t) s
    match getPart? s p with
    | none => s
    | some x =>
      if x.throttled then s
      else
        let l := (maskTiles x.tileMask).map (fun t => (t, slowSum (getTile s t) - tabGetD x.slowPrev t 0))
        let slow := slowTile l x.lastT
        setPart s p { x with slowRuns := l.map (fun q => (q.1, if slow = some q.1 then tabGetD x.slowRuns q.1 0 + 1 else 0)) }

/-- Tokens of a placement are still to be read (R240). -/
def tokensDue (e : Entry) (r : Placement) : Bool := !r.head && decide (e.tokens.length < r.pos + r.count)

/-- B(n): the steep is complete (R19 steps 4 to 6, R152, R237, R239, R249). The power cap delayed the composition of a steep that was
throttled (R248 code 0x9). -/
def boundary (s : State) (p : Nat) (x : Part) (img : Image) (st : Steep) : State :=
  let s := setPart s p (settleBoundary { x with phase := .none, delayed := x.delayed || x.throttled, lastRpt := st.rpt, lastT := now s - st.released, imageCharges := if x.imageCharged then x.imageCharges else 0 })
  let s := st.rows.foldl (fun s r => advanceRider s p img st r) s
  let s := settleAt s p st.n
  let s := (entriesOf s p).foldl (fun s q => if q.2.st = .cancelling then applyCancel s p q.1 else s) s
  idleAll (slowRule (settleGroups (dropDead s p) p) p)

/-- The composition point freezes the eligible set (R9). The members of a group send the leader their free pages, and the leader
composes once it has them all (R241, R360). -/
def compositionPoint (s : State) (p : Nat) : State :=
  match groupsOf s p with
  | [] => compose s p
  | (g, q) :: _ =>
    if q.rank ≠ 0 then
      match getPart? s p with
      | none => s
      | some x => emit s (.groupMsg g 1 (x.pool.length + x.returned.length))
    else
      let s := freeze s p
      match getPart? s p with
      | none => s
      | some x => if q.list.members ≤ x.counts.length + 1 then composeFrozen s p else setPart s p { x with awaitCounts := true }

/-- The members of a barrier: every member context of every tile in service (R217, R218). -/
def barrierMembers (x : Part) (bar : Nat) : List (Nat × Nat) :=
  (maskTiles x.tileMask).flatMap (fun t => ((List.range 4).filter (fun c => (barrierMask x bar).getLsbD c)).map (fun c => (t, c)))
/-- A barrier releases when every member has arrived (R218); the release of the mark that starts the final layer is CP(n),
that of the last mark B(n) (R219). -/
def execBarrierRelease (p : Fin 64) (bar : Fin 16) (s : State) : Res :=
  match getPart? s p with
  | none => .next s
  | some x =>
    let mem := barrierMembers x bar
    let arr := tabGetD x.arrived bar.val []
    if mem = [] ∨ !mem.all (fun q => arr.contains q) then .next s
    else
      let use := (smGet x.uses bar.val).toNat
      let s := setPart s p { x with arrived := tabErase bar.val x.arrived, uses := smSet x.uses bar.val (BitVec.ofNat 32 (use + 1)) }
      let s := mem.foldl (fun s q => modTile s q.1 (fun y => modCtx { y with lending := false } q.2 acceptCtx)) s
      let s := match arr.getLast? with | some q => modTile s q.1 (fun y => tileCtr y 0xB8 1) | none => s
      match x.image, x.running, getPart? s p with
      | some img, some st, some y =>
        if y.phase = .none then .next s
        else
          let j := img.layerMarks.idxOf (bar.val, use)
          let n := img.layerMarks.length
          if j + 1 = n then .next (boundary s p y img st)
          else if j + 2 = n ∧ y.phase = .body then .next (compositionPoint (setPart s p { y with phase := .final }) p)
          else .next s
      | _, _, _ => .next s

/-- A head-start parameter block is read for this placement (R267). -/
def blockDue (e : Entry) (r : Placement) : Bool :=
  !r.head && decide (r.pos + r.count = e.f.length.toNat) && samplesFirst e.f && e.block.isNone
/-- The live placement of an entry in the composed steep. -/
def placedOf (x : Part) (i : Nat) : Option Placement := (x.next.bind (fun st => st.rows.find? (fun r => decide (r.entry = i) && !r.dead)))

/-- The checks of a token read (R240, R253): token IDs, the pin's CRC at the first read of a run, a re-read that reaches
CRC_HWM. -/
def tokensBad (x : Part) (vocab : Nat) (e : Entry) (l : List Word32) : Bool :=
  let all := e.tokens ++ l
  let hwm := e.f.crcHwm.toNat
  l.any (fun t => decide (vocab ≤ t.toNat)) ||
  (match pinOf x e.f with | some q => decide (e.tokens.length < q.length) && crc32c (tokBytes (all.take q.length)) ≠ q.crc | none => false) ||
  (decide (e.tokens.length < hwm) && decide (hwm ≤ all.length) && crc32c (tokBytes (all.take hwm)) ≠ e.f.tokenCrc)
/-- The token fields after a read that passed (R240). -/
def takeTokens (e : Entry) (l : List Word32) : Entry :=
  let all := e.tokens ++ l
  { e with tokens := all, f := if e.f.crcHwm.toNat < all.length then { e.f with crcHwm := BitVec.ofNat 21 all.length, tokenCrc := crc32c (tokBytes all) } else e.f }
/-- Token IDs of a placement return from the host (R240); a failed check fails the request, which is not placed (R241). -/
def execTokenReadDone (e : Fin 32768) (tokens : Option (List Word32)) (s : State) : Res :=
  match getEntry? s e with
  | none => .next s
  | some q =>
    let p := entryPart q
    match getPart? s p with
    | none => .next s
    | some x => match placedOf x e, x.image with
      | some r, some img =>
        if !tokensDue q r then .next s
        else match tokens with
          | none => .next (recomposeWithout s p e (fun s => failRequest s e stBAD_PARAM false))
          | some l =>
            if l.length ≠ r.pos + r.count - q.tokens.length then .next s
            else if tokensBad x img.vocab q l then .next (recomposeWithout s p e (fun s => failRequest s e stBAD_PARAM false))
            else
              let s := setEntryM s e (takeTokens q l)
              .next (modPart s p (fun x => { x with next := x.next.map (fun st => { st with rows := st.rows.map (fun z =>
                if z.entry = e.val ∧ !z.head then { z with tokens := (q.tokens ++ l).drop r.pos } else z) }) }))
      | _, _ => .next s

/-- A parameter block returns from the host and is checked (R266, R267). -/
def execHsBlockReadDone (e : Fin 32768) (block : Option (BitVec 2048)) (s : State) : Res :=
  match getEntry? s e with
  | none => .next s
  | some q =>
    let p := entryPart q
    match getPart? s p with
    | none => .next s
    | some x => match placedOf x e, x.image with
      | some r, some img =>
        if !blockDue q r then .next s
        else match block with
          | some b =>
            if q.f.stopSet.toNat < bits x.hsTable 63 48 ∧ blockOk b img.vocab then .next (setEntry s e { q with block := some b })
            else .next (recomposeWithout s p e (fun s => failRequest s e stBAD_PARAM false))
          | none => .next (recomposeWithout s p e (fun s => failRequest s e stBAD_PARAM false))
      | _, _ => .next s

/-- Composition is done once its reads are in: the row maps are written into the idle halves (R11, R19 step 2, R241). Past 8 µs, with no
steep running, it was the host's token reads that delayed it (R240, R248 code 0x9). -/
def execCompositionDone (p : Fin 64) (s : State) : Res :=
  match getPart? s p with
  | none => .next s
  | some x => match x.next with
    | none => .next s
    | some st =>
      let ready := st.rows.all (fun r => r.dead || (match getEntry? s r.entry with | some e => !tokensDue e r && !blockDue e r | none => true))
      if st.composed ∨ !ready then .next s
      else
        let st := { st with composed := true }
        let late := x.phase = .none && decide (st.frozenAt + 8000 < now s)
        let s := writeRowMaps (setPart s p { x with next := some st, delayed := x.delayed || late }) p st
        let s := if x.phase = .none then settleMarks s p st.marks else s
        match groupsOf s p with
        | (g, q) :: _ => .next (if q.rank = 0 then emit s (.groupMsg g 2 st.n) else s)
        | [] => .next s

/-- The state of a context at steep release (R123, R125, R207). -/
def releaseCtx (k : Ctx) (entry : Option Nat) (rpt idx cnt s4 : Nat) : Ctx :=
  match entry with
  | some pc =>
    { k with st := .running, cause := 0, object := 0, held := none, loops := [], b := [], m := [], pc := pc,
             s := smSet (smSet (smSet (smSet [] 1 (BitVec.ofNat 64 rpt)) 2 (BitVec.ofNat 64 idx)) 3 (BitVec.ofNat 64 cnt)) 4 (BitVec.ofNat 64 s4) }
  | none => { k with st := .idle, cause := 0, object := 0, held := none, loops := [], b := [], m := [], s := [] }
/-- A tile at steep release (R123, R125, R170, R173, R191, R205, R211). -/
def releaseTile (x : Tile) (img : Image) (st : Steep) (idx : Nat) : Tile :=
  let s4 := (rowHalf x st.n).getD 0
  let ctxs := (List.range 4).map (fun c => (c, releaseCtx (getCtx x c) (img.entries.getD c none) st.rpt idx st.tiles.length s4))
  { x with ctx := ctxs, slots := [], flags := [], handles := [], tags := [], circs := [], claims := [], xlate := [], mats := [], drains := [],
           vecs := [], rescales := [], tracks := [], ringRound := 0, ringPos := 0, forwarded := false, lending := false }
/-- Rows of a steep that are valid at its release (R261). -/
def validRows (st : Steep) : Nat := ((st.rows.filter (fun r => !r.dead)).map (·.count)).sum
/-- What keeps a composed steep from its release (R8, R12, R19, R211, R242, R360, R408). -/
def canRelease (s : State) (p : Nat) (x : Part) (st : Steep) : Bool :=
  st.composed && st.rows.any (fun r => !r.dead) && x.phase = .none && groupsReady s p && deviceUp s && decide (x.pstate ≤ 1) &&
  s.sigs.all (fun g => !(decide (g.part = p) && match g.src with | .ctx _ _ => true | _ => false))
/-- The release barrier starts steep n + 1 (R19 step 7). A partition in A1 is in A0 from then on (R408). -/
def releaseSteep (s : State) (p : Nat) : State :=
  match getPart? s p with
  | none => s
  | some x => match x.next, x.image with
    | some st, some img =>
      if !canRelease s p x st then s
      else
        let st := { st with released := now s }
        let one := decide (img.layerMarks.length = 1)
        let v := validRows st
        let x := { x with phase := if one then .final else .body, steepNo := st.n, running := some st, next := none, arrived := [], uses := [], pstate := 0, idleCharged := false,
                          throttled := decide (0 < s.pwr.theta) || decide (0 < s.pwr.step),
                          slowPrev := (maskTiles x.tileMask).map (fun t => (t, slowSum (getTile s t))) }
        let x := partCtrOf (partCtrOf (partCtrOf x 0x138 1) 0x140 v) 0x148 (st.tiles.length * st.rpt - v)
        let s := setPart s p x
        let s := (List.range st.tiles.length).foldl (fun s i => modTile s (st.tiles.getD i 0) (fun y => releaseTile y img st i)) s
        let s := settleDomains (if reservedTiles st = [] then s else headFlags s p st .engine)
        let s := match groupsOf s p with | (g, q) :: _ => (if q.rank = 0 then emit s (.groupMsg g 3 st.n) else s) | [] => s
        let s := if x.delayed then (ridersOf st).foldl (fun s i => modEntryM s i (fun e => Sys2Proof.Machine.delayed e 9)) (modPart s p (fun y => { y with delayed := false })) else s
        if one then compositionPoint s p else s
    | _, _ => s
/-- The release of a steep; a member of a group that is not its leader waits for the leader's message (R360). -/
def execSteepRelease (p : Fin 64) (s : State) : Res :=
  if (groupRank s p).getD 0 ≠ 0 then .next s else .next (releaseSteep s p)

/-- What signals brought to a lost newt passes to the one that takes over (R214). -/
def passFlags (m : SMap 32) (n t : Nat) : SMap 32 :=
  (m.filter (fun q => decide (q.1 / 256 = n))).foldl (fun k q => smSet (smSet k q.1 0) (t * 256 + q.1 % 256) (smGet k (t * 256 + q.1 % 256) + q.2)) m
/-- A newt is lost (R263, R279): fenced, logged, its requests and signals pass to the live newts; the last one is a module
fault. -/
def loseNewt (s : State) (n : Nat) : State :=
  if s.iod.newtsLost.getLsbD n then s
  else
    let s := { s with iod := { s.iod with newtsLost := setBit s.iod.newtsLost n true } }
    let s := faultLog s 9 0 0xFF 5 n 0xFFFF 0
    match pickNewt s with
    | none => moduleStop s 5
    | some t =>
      let s := { s with sigs := s.sigs.map (fun (g : Sig) => if g.toNewt ∧ g.target = n then { g with target := t } else g),
                        iod := { s.iod with newtFlags := passFlags s.iod.newtFlags n t } }
      s.table.foldl (fun (s : State) (q : Nat × Entry) => if q.2.newt = some n then modEntry s q.1 (fun e => { e with newt := pickNewt s }) else s) s
/-- A newt without progress for 100 µs with work pending is lost (R263). -/
def execNewtHangTimeout (n : Fin 8) (s : State) : Res :=
  if s.table.any (fun q => q.2.newt = some n.val) ∨ s.sigs.any (fun g => g.toNewt && decide (g.target = n.val)) then .next (loseNewt s n) else .next s

/-- A head start ends (R237, R274, R276, R277): the last chunk gets its tokens, reserved rows are not filled. -/
def endHead (s : State) (p i : Nat) : State :=
  match getEntry? s i, getPart? s p with
  | some e, some x =>
    let n := e.emitted.length
    let result := e.f.result.getLsbD 63
    let e := { e with st := .pouring, newt := none, proposals := [], roundOut := false, resultDue := result, outBytes := if result then tokBytes e.emitted else [] }
    let s := setEntryM s i e
    let s := if n < 2 then modWaiting s p i (fun j => { j with wait := false, final := if j.chunk + 1 = promptChunks e.f then some (e.emitted, e.stop) else none })
      else if e.f.progress.toNat ≤ promptChunks e.f then
        queueJobs s p e.f [jobOf x i e (promptChunks e.f) e.f.length.toNat (n - 1) true (some (e.emitted, e.stop)) false]
      else s
    tryDone (killNext (giveUpRows s p i) p i) i
  | _, _ => s

/-- A newt takes the first token, or a round, of a PREFILL request (R269-R276). -/
def sampleTokens (s : State) (p i : Nat) (e : Entry) (img : Image) (rest : List Sample) (logits : List (List Word32)) (round : Bool) : State :=
  match e.block with
  | none => s
  | some b =>
    if !round then
      let (tok, stop) := firstToken img e.f b (logits.headD [])
      let s := setEntryM s i { e with samples := rest, emitted := [tok], stop := stop, base := e.f.length.toNat }
      if stop ≠ 0 ∨ e.st = .pouring then endHead s p i else modWaiting s p i (fun j => { j with wait := false })
    else
      let (em, stop, acc) := decideRound img e.f b e.tokens logits e.proposals e.emitted 0
      let s := setEntryM s i { e with samples := rest, emitted := em, stop := stop, rounds := e.rounds + 1, roundOut := false, base := e.f.length.toNat + em.length - 1 }
      let s := iodCtr (iodCtr s 0x100 1) 0x110 acc
      if stop ≠ 0 then endHead s p i else idleCompose (stirPart s p) p
/-- A newt takes SCORE or EMBED rows (R233, R234): the values gather until the last row, then the result is written. -/
def sampleRows (s : State) (i : Nat) (e : Entry) (img : Image) (rest : List Sample) (pos : Nat) (score : Bool) (logits : List (List Word32)) : State :=
  let g := if score then e.gathered ++ logits.mapIdx (fun k l => scoreLp l (e.tokens.getD (pos + k + 1) 0).toNat)
    else if img.poolMean then logits.foldl poolAdd e.gathered else logits.getLastD []
  let e := { e with samples := rest, gathered := g }
  setEntryM s i (if rest = [] ∧ e.st = .pouring then closeRows img e else e)
/-- Rows of the logit buffer that a sample takes: offset of the first, how many, FP32 values of each. -/
def sampleSpan (img : Image) : Sample → Nat × Nat × Nat
  | .first buf => (buf, 1, img.vocab)
  | .round d buf => (buf, d + 1, img.vocab)
  | .score _ n buf => (buf, n, img.vocab)
  | .embed _ n buf => (buf, n, img.embedDim)
/-- The next row's token, which a SCORE value needs, has been read (R234, R240). -/
def sampleReady (e : Entry) : Sample → Bool
  | .score pos n _ => decide (pos + n < e.tokens.length)
  | _ => true
/-- A newt samples, verifies and stop-tests, or scores or pools, the rows of a completed steep, from what the tiles wrote in the logit
buffer (R190, R263, R269, R270); granules of it that packages report are rebuilt on the way (R201). A cancelled request's rows are
dropped (R19, R278). -/
def execNewtSample (e : Fin 32768) (bad : List Nat) (chk : Check) (s : State) : Res :=
  match getEntry? s e with
  | none => .next s
  | some q =>
    let p := entryPart q
    match getPart? s p, q.samples with
    | some x, w :: rest => match x.image with
      | none => .next s
      | some img =>
        if !sampleReady q w then .next s
        else if q.st = .cancelling then .next (setEntry s e { q with samples := rest })
        else if !creditOk s p .newt then .next s
        else match chk with
          | .fail _ _ => .next (match (match q.newt with | some n => some n | none => pickNewt s) with | some n => loseNewt s n | none => s)
          | _ =>
            let (buf, n, len) := sampleSpan img w
            let step := 4 * max img.vocab img.embedDim
            let rows := (List.range n).map (fun k => memWords x.mem (buf + k * step) len)
            let span := (List.range n).map (fun k => (buf + k * step, 4 * len))
            let g := granulesOf span
            let s := caddyRead s p .newt false span
            let s := match w with
              | .first _ => sampleTokens s p e q img rest rows false
              | .round _ _ => sampleTokens s p e q img rest rows true
              | .score pos _ _ => sampleRows s e q img rest pos true rows
              | .embed pos _ _ => sampleRows s e q img rest pos false rows
            .next (reportRead s ((bad.filterMap (fun k => g[k]?)).map (fun k => firstGranule p + k)))
    | _, _ => .next s

/-- The newts write a request's base and proposals into its reserved rows of the running steep (R17, R270, R275, R278). -/
def execHeadstartFill (e : Fin 32768) (s : State) : Res :=
  match getEntry? s e with
  | none => .next s
  | some q =>
    let p := entryPart q
    match getPart? s p with
    | none => .next s
    | some x => match x.running, x.image, q.block with
      | some st, some img, some b =>
        match st.rows.find? (fun r => decide (r.entry = e.val) && r.head && !r.filled && !r.dead) with
        | none => .next s
        | some r =>
          if x.phase = .none ∨ q.st ≠ .headstart ∨ q.samples ≠ [] ∨ !creditOk s p .newt ∨ q.emitted = [] then .next s
          else
            let base := q.f.length.toNat + q.emitted.length - 1
            let d := min r.d (min (q.f.maxNew.toNat - q.emitted.length - 1) (img.contextMax - 1 - base))
            let props := proposals img b q.f.seed d (q.tokens ++ q.emitted)
            let r' := { r with pos := base, count := 1 + d, d := d, filled := true, tokens := q.emitted.getLastD 0 :: props }
            let rows := (List.range (1 + d)).map (fun k => (r.first + k, mapBytes (rowEntryOf q.f st.rpt r' k)))
              ++ (List.range (r.count - (1 + d))).map (fun k => (r.first + 1 + d + k, noRow))
            let st' := { st with rows := st.rows.map (fun z => if z.entry = e.val ∧ z.head then r' else z) }
            let s := setPart s p { x with running := some st' }
            let s := setEntry s e { q with proposals := props, d := d, base := base, roundOut := true }
            .next (headFlags (putRows (iodCtr s 0x108 d) st' rows) p st' (.newt (q.newt.getD 0)))
      | _, _, _ => .next s

/-- 10 µs after release, rows still unfilled are given up (R17). -/
def execHeadstartFillTimeout (p : Fin 64) (s : State) : Res :=
  match (getPart? s p).bind (·.running) with
  | none => .next s
  | some st =>
    let late := (st.rows.filter (fun r => r.head && !r.filled && !r.dead)).map (·.entry)
    if late = [] then .next s
    else
      let s := iodCtr { s with iod := { s.iod with gaveUp := true } } 0x118 late.length
      .next (late.foldl (fun s i => giveUpRows s p i) s)

/-- Every 100 µs: DRAFT_LIMIT follows the share of DCLK, in thousandths, that newts waited for DRAM credit (R275, R282). -/
def execDraftLimitTick (waitPermille : Nat) (s : State) : Res :=
  let i := s.iod
  let i := if 100 < waitPermille ∨ i.gaveUp then { i with draftLimit := max 1 (i.draftLimit - 1), calm := 0 }
    else if waitPermille < 20 then
      (if 10 ≤ i.calm + 1 then { i with draftLimit := min 8 (i.draftLimit + 1), calm := 0 } else { i with calm := i.calm + 1 })
    else { i with calm := 0 }
  .next (iodCtr { s with iod := { i with gaveUp := false } } 0x120 (120 * min waitPermille 1000))

/-- A live request's deadline passes: the reason code is the DELAY it holds (R248). -/
def execDeadlinePassed (e : Fin 32768) (s : State) : Res :=
  match getEntry? s e with
  | none => .next s
  | some q =>
    if q.f.deadline ≠ 0 ∧ q.f.deadline.toNat ≤ now s ∧ q.late.isNone ∧ !q.finalPosted then
      .next (setEntry s e { q with late := some q.f.delay })
    else .next s

end Sys2Proof.Machine
end

