-- ==== Sys2Proof/Machine/Requests.lean ====
section
/-! DEFINITION. Requests.lean: decoding a command from a submission ring, the express commands, and the request commands
(R230-R239, R252-R256, R295, R296, R302, R307-R313, R318-R321, R360, R375, R437, R472, R473). -/

namespace Sys2Proof.Machine

open Sys2Proof

/-- The 64 bytes of a command (R307). -/
def packetBits (opcode : BitVec 8) (p : Packet) : BitVec 512 :=
  p.params ++ p.handle ++ p.seq ++ p.tenantClass ++ p.flags ++ opcode

/-- The opcode table (R310). -/
def listedCommand (op : Nat) : Bool :=
  (decide (1 ≤ op) && decide (op ≤ 6)) || (decide (0x10 ≤ op) && decide (op ≤ 0x16)) || op = 0x20 || op = 0x21 || op = 0x30 || op = 0x31
  || op = 0x40 || op = 0x41 || (decide (0x50 ≤ op) && decide (op ≤ 0x52)) || op = 0x60 || op = 0x61 || (decide (0x70 ≤ op) && decide (op ≤ 0x72)) || op = 0x7F
/-- Opcodes of the tenant level (R295). -/
def tenantOp (op : Nat) : Bool := (decide (1 ≤ op) && decide (op ≤ 6)) || op = 0x15 || op = 0x16 || op = 0x20 || op = 0x21 || op = 0x7F
/-- Opcodes a level permits (R295). -/
def permitted (level op : Nat) : Bool :=
  match level with
  | 2 => [0x10, 0x11, 0x40, 0x41, 0x50, 0x51, 0x52, 0x60, 0x61, 0x70, 0x71, 0x72, 0x7F].contains op
  | 1 => tenantOp op || [0x12, 0x13, 0x14, 0x30, 0x31, 0x40, 0x60, 0x61].contains op
  | _ => tenantOp op
/-- Opcodes that act for a tenant (R296). -/
def actsForTenant (op : Nat) : Bool := tenantOp op && op ≠ 0x7F
/-- Express opcodes (R318). -/
def express (op : Nat) : Bool := op = 1 || op = 2 || op = 5 || op = 0x7F

/-- Status of a command that is turned away before any parameter is looked at (R295, R296, R6): status and RESULT. -/
def gate (s : State) (ring : Nat) (op : Nat) (p : Packet) : Option (BitVec 16 × Nat) :=
  let level := ringLevel s ring
  if !listedCommand op then some (stBAD_OPCODE, 0)
  else if !permitted level op then some (stNOT_PERMITTED, 0)
  else if level = 2 ∧ p.tenant ≠ 0 then some (stBAD_PARAM, 2)
  else if level = 0 ∧ p.tenant ≠ bits (getRing s ring).cfg 55 44 then some (stNOT_PERMITTED, 0)
  else if level ≠ 2 ∧ actsForTenant op ∧ ((ringPart s ring).bind (getPart? s)).elim true (fun x => (tabGet? p.tenant x.tenants).isNone) then some (stNOT_PERMITTED, 0)
  else if p.flags.toNat / 4 ≠ 0 ∨ (p.events ∧ op ≠ 1 ∧ op ≠ 0x15) then some (stBAD_PARAM, 1)
  else none

/-- The partition of a ring; 64 where there is none. -/
def partNo (s : State) (ring : Nat) : Nat := (ringPart s ring).getD 64
/-- A member that is not its group's leader (R360). -/
def follower (s : State) (p : Nat) : Bool := (groupRank s p).getD 0 ≠ 0
/-- The entry a command names: by HANDLE, of the ring's tenant on a tenant ring (R232, R437). -/
def namedEntry (s : State) (ring : Nat) (p : Packet) : Option (Nat × Entry) :=
  match findHandle s (partNo s ring) p.handle with
  | none => none
  | some i => match getEntry? s i with
    | none => none
    | some e => if ringLevel s ring = 0 ∧ e.f.tenant.toNat ≠ p.tenant then none else some (i, e)
/-- An adopted request that waits for an entry, named the same way (R384): its place in the order. -/
def namedWaiting (s : State) (ring : Nat) (p : Packet) : Option (Nat × ReqState × ReqFields) :=
  let l := s.pair.waitingEntries
  let hit := fun (q : ReqState × ReqFields) => decide (q.2.partition.toNat = partNo s ring) && decide (q.2.handle = p.handle) && (ringLevel s ring ≠ 0 || q.2.tenant.toNat = p.tenant)
  (l.find? hit).map (fun q => (l.findIdx hit, q))
/-- The pool less the pages of pinned prefixes (R235, R472). -/
def unpinnedPool (x : Part) : Nat := x.poolPages.toNat - (x.pins.map (fun q => q.2.pages.length)).sum
/-- The tenant's binding names a variant the image lacks (R256). -/
def variantLacks (x : Part) (img : Image) (tenant : Nat) : Bool :=
  match tabGet? tenant x.tenants with
  | some t => t.variant ≠ 0xFFFF && decide (img.variants ≤ t.variant.toNat)
  | none => false
/-- The extent of a RESULT (R342). -/
def resultExtent (img : Image) (kind cont maxNew : Nat) : Nat :=
  if kind = 1 then (let f := img.embedFmt.toNat; if isMx f then 32 * elemBits f / 8 * ((img.embedDim + 31) / 32) + (img.embedDim + 31) / 32 else img.embedDim * elemBits f / 8)
  else if kind = 2 then 4 * cont else 4 * maxNew
/-- The extent overlaps the control block or the log, which an empty one does not, or passes the end of the region (R235 check 2). -/
def extentBad (t : Target) (off n : Nat) : Bool :=
  decide (t.regionLen.toNat < off + n) ||
  (decide (n ≠ 0) && (decide (off < 64) || (match t.log with | some (lo, len) => decide (off < lo + len) && decide (lo < off + n) | none => false)))
/-- A target the request names exists and is the tenant's. -/
def targetOk (x : Part) (tenant n : Nat) : Bool := match tabGet? n x.targets with | some t => t.tenant = tenant | none => false
/-- A HANDLE live on the partner (R376). -/
def handleOnPartner (s : State) (p : Nat) (h : BitVec 64) : Bool :=
  mirroring s && s.pair.shadow.requests.any (fun q => decide (q.2.2.partition.toNat = p) && decide (q.2.2.handle = h))

/-- A check's outcome: status and RESULT value. -/
def failsIf (b : Bool) (st : BitVec 16) (field : Nat) : Option (BitVec 16 × Nat) := if b then some (st, field) else none
/-- The first check that fails. -/
def firstFail : List (Option (BitVec 16 × Nat)) → Option (BitVec 16 × Nat)
  | [] => none
  | some q :: _ => some q
  | none :: r => firstFail r

/-- Parameters of SUBMIT_PROMPT (R311). -/
def subLen (p : Packet) : Nat := p.le 48 4 % 2 ^ 21
def subKind (p : Packet) : Nat := p.le 48 4 / 2 ^ 21 % 4
def subPrio (p : Packet) : Nat := p.le 48 4 / 2 ^ 23 % 8
def subCont (p : Packet) : Nat := p.le 52 4 % 2 ^ 17
def subMax (p : Packet) : Nat := p.le 52 4 / 2 ^ 17 % 128
def subChunk (img : Image) (p : Packet) : Nat := if p.le 56 2 % 1024 = 0 then img.chunkDefault / 128 else p.le 56 2 % 1024
def subTarget (p : Packet) : Nat := p.le 58 2 % 1024
def subPin (p : Packet) : Nat := p.le 62 2 % 2 ^ 14
def subPinned (p : Packet) : Bool := p.le 62 2 / 2 ^ 14 % 2 = 1
def subResult (p : Packet) : BitVec 64 := BitVec.ofNat 64 (p.le 40 8)
def resValid (r : BitVec 64) : Bool := r.getLsbD 63
def resTarget (r : BitVec 64) : Nat := bits r 57 48
def resOffset (r : BitVec 64) : Nat := bits r 47 0
/-- A bit of a reserved field of SUBMIT_PROMPT is set (R6, R311). -/
def subReserved (p : Packet) : Option (BitVec 16 × Nat) :=
  firstFail [failsIf (p.le 48 4 / 2 ^ 26 ≠ 0) stBAD_PARAM 48, failsIf (p.le 52 4 / 2 ^ 24 ≠ 0) stBAD_PARAM 52, failsIf (p.le 56 2 / 1024 ≠ 0) stBAD_PARAM 56,
    failsIf (p.le 58 2 / 1024 ≠ 0) stBAD_PARAM 58, failsIf (p.le 62 2 / 2 ^ 15 ≠ 0) stBAD_PARAM 62]

/-- The checks of SUBMIT_PROMPT in their order (R235). -/
def submitChecks (s : State) (n : Nat) (x : Part) (img : Image) (p : Packet) : Option (BitVec 16 × Nat) :=
  let r := subResult p
  let k := subKind p
  let chunk := subChunk img p
  let lacksKind := (k = 0 && !img.prefill) || (k = 1 && !img.embed) || (k = 2 && !img.score) || k = 3
  firstFail [
    failsIf lacksKind stBAD_PARAM 48, failsIf (variantLacks x img p.tenant) stBAD_PARAM 2,
    failsIf (subLen p = 0 || decide (img.contextMax < subLen p)) stBAD_PARAM 48, failsIf (subPrio p = 0) stBAD_PARAM 48, failsIf (decide (64 < subMax p)) stBAD_PARAM 52,
    failsIf (chunk = 0 || decide (512 < chunk)) stBAD_PARAM 56, failsIf (k = 2 && (subCont p = 0 || decide (subLen p ≤ subCont p))) stBAD_PARAM 52,
    failsIf (handleInUse s n p.handle || handleOnPartner s n p.handle) stBAD_PARAM 8,
    failsIf ((r ≠ 0 && !resValid r) || bits r 62 58 ≠ 0) stBAD_PARAM 40, failsIf (k ≠ 0 && !resValid r) stBAD_PARAM 40,
    failsIf (resValid r && (match tabGet? (resTarget r) x.targets with | some t => extentBad t (resOffset r) (resultExtent img k (subCont p) (subMax p)) | none => false)) stBAD_PARAM 40,
    failsIf ((tabGet? p.tenant x.tenants).isNone || (k = 0 && !targetOk x p.tenant (subTarget p)) || (subPinned p && (match tabGet? (subPin p) x.pins with | some q => q.tenant ≠ p.tenant | none => true))
      || (resValid r && !targetOk x p.tenant (resTarget r))) stNOT_PERMITTED 0,
    failsIf (subPinned p && (match tabGet? (subPin p) x.pins with | some q => q.retiring || decide (subLen p - 1 < q.length) | none => false)) stBAD_PARAM 62,
    failsIf (x.imageCharged || (k = 0 && (tabGet? (subTarget p) x.targets).elim false (fun t => t.st = .errored)) || (resValid r && (tabGet? (resTarget r) x.targets).elim false (fun t => t.st = .errored))) stFAULT 0,
    failsIf (decide (x.entryQuota ≤ (entriesOf s n).length) || (freeEntry s).isNone) stNO_ENTRY 0,
    failsIf (decide (unpinnedPool x < totalPages img (subLen p))) stNO_PAGES 0]

/-- The entry fields of an admitted submission (R231, R311). -/
def submitFields (s : State) (n ring : Nat) (x : Part) (img : Image) (p : Packet) : ReqFields :=
  let late := p.le 32 8 ≠ 0 && decide (p.le 32 8 < now s)
  let f : ReqFields :=
    { partition := BitVec.ofNat 6 n, kind := BitVec.ofNat 2 (subKind p), handle := p.handle, seq := p.seq, ring := BitVec.ofNat 13 ring,
      tenant := BitVec.ofNat 12 p.tenant, variant := (tabGet? p.tenant x.tenants).elim 0xFFFF (·.variant), image := 0, length := BitVec.ofNat 21 (subLen p),
      contLen := BitVec.ofNat 17 (if subKind p = 2 then subCont p else 0), chunk := BitVec.ofNat 10 (subChunk img p), progress := 0, nextPos := 0,
      pin := BitVec.ofNat 15 (p.le 62 2), basePrio := BitVec.ofNat 3 (subPrio p), effPrio := BitVec.ofNat 3 (subPrio p), deadline := BitVec.ofNat 64 (p.le 32 8),
      admitAt := s.pwr.timebase, promoStart := 0, pourTarget := BitVec.ofNat 10 (subTarget p), result := subResult p, seed := BitVec.ofNat 64 (p.le 24 8),
      stopSet := BitVec.ofNat 16 (p.le 60 2), maxNew := BitVec.ofNat 7 (subMax p), pauses := 0, charges := 0, tokenAddr := BitVec.ofNat 64 (p.le 16 8),
      tokenCrc := 0, crcHwm := 0, delay := if late then 1 else 0, lastEvent := stACCEPTED, cmdFlags := p.flags, cls := BitVec.ofNat 4 p.cls, steps := 0,
      measurement := img.measurement, isPin := false }
  { f with nextPos := BitVec.ofNat 21 (startPos x f) }
/-- A request enters the table QUEUED and receives ACCEPTED (R8, R237, R313). -/
def admitRequest (s : State) (i : Nat) (f : ReqFields) : State :=
  let e := { entryFrom .queued f false (!mirroring s) with late := if f.delay = 1 then some 1 else none }
  let s := stirPart (setEntryM s i e) f.partition.toNat
  idleCompose (postReq s e stACCEPTED false false 0 (BitVec.ofNat 128 (resAt 16 i + resAt 20 f.admitAt.toNat))) f.partition.toNat
/-- SUBMIT_PROMPT takes effect (R235). -/
def doSubmit (s : State) (ring : Nat) (p : Packet) : State :=
  let n := partNo s ring
  match getPart? s n with
  | none => notPermitted s ring p
  | some x =>
    if follower s n then notPermitted s ring p
    else match subReserved p with
      | some (st, v) => finish s ring p st (BitVec.ofNat 128 v)
      | none => match x.image with
        | none => badParam s ring p 0xFF
        | some img => match submitChecks s n x img p with
          | some (st, v) => finish s ring p st (BitVec.ofNat 128 v)
          | none => match freeEntry s with
            | some i => admitRequest s i (submitFields s n ring x img p)
            | none => finish s ring p stNO_ENTRY 0

/-- A command without parameters has a parameter byte set (R6). -/
def noParams (p : Packet) : Option Nat := p.badByte []

/-- CANCEL takes effect (R19, R237, R238, R384). -/
def doCancel (s : State) (ring : Nat) (p : Packet) : State :=
  let n := partNo s ring
  if follower s n then notPermitted s ring p
  else match noParams p with
    | some b => badParam s ring p b
    | none => match namedEntry s ring p with
      | some (i, e) =>
        if e.st = .paused then
          let s := (orphanFlights (dropPours (finish s ring p stOK 0) n i) n i e).1
          idleAll (postReq (settleLent (freeEntryAt s i) n) e stCANCELLED true false 0 0)
        else if e.st = .queued ∨ e.st = .steeping ∨ e.st = .headstart ∨ e.st = .pouring then
          let s := finish (setEntryM s i { e with st := .cancelling, newt := none }) ring p stOK 0
          match getPart? s n with
          | some x => if x.phase = .none then idleAll (applyCancel s n i) else s
          | none => s
        else finish s ring p stTOO_LATE 0
      | none => match namedWaiting s ring p with
        | some (k, st, f) =>
          let s := finish { s with pair := { s.pair with waitingEntries := dropIdx s.pair.waitingEntries k } } ring p stOK 0
          postReq s (entryFrom st f true true) stCANCELLED true false 0 0
        | none => badParam s ring p 8

/-- The steep number at whose boundary a PAUSE that is accepted now takes effect (R9). -/
def pauseNumber (x : Part) : Nat := if x.phase = .final ∨ (x.phase = .none ∧ x.next.isSome) then x.steepNo + 1 else x.steepNo
/-- PAUSE takes effect (R9, R237, R238, R239). -/
def doPause (s : State) (ring : Nat) (p : Packet) : State :=
  let n := partNo s ring
  if follower s n then notPermitted s ring p
  else match noParams p with
    | some b => badParam s ring p b
    | none => match namedEntry s ring p, getPart? s n with
      | some (i, e), some x =>
        if e.st = .paused then finish s ring p stOK 0
        else if e.st = .queued ∨ e.st = .steeping ∨ e.st = .headstart then
          let s := setEntry s i { e with pauseAsked := e.pauseAsked ++ [(ring, p, pauseNumber x)] }
          if x.phase = .none ∧ x.next.isNone then pauseNow s n i else s
        else finish s ring p stTOO_LATE 0
      | _, _ => match namedWaiting s ring p with
        | some (k, st, f) => finish { s with pair := { s.pair with waitingEntries := s.pair.waitingEntries.set k (if st = .queued then .paused else st, f) } } ring p stOK 0
        | none => badParam s ring p 8

/-- RESUME takes effect (R237-R239): PAUSEs that have not reached their composition point complete first. -/
def doResume (s : State) (ring : Nat) (p : Packet) : State :=
  let n := partNo s ring
  if follower s n then notPermitted s ring p
  else match noParams p with
    | some b => badParam s ring p b
    | none => match namedEntry s ring p, getPart? s n with
      | some (i, e), some x =>
        if e.st = .paused then
          let e' := { e with st := .queued, computed := startPos x e.f, f := { e.f with nextPos := BitVec.ofNat 21 (startPos x e.f) } }
          idleCompose (finish (stirPart (setEntryM s i e') n) ring p stOK 0) n
        else if e.st = .queued ∨ e.st = .steeping ∨ e.st = .headstart ∨ e.st = .pouring then
          let open_ := e.pauseAsked.filter (fun q => decide (pauseNumber x ≤ q.2.2))
          let s := setEntry s i { e with pauseAsked := e.pauseAsked.filter (fun q => !decide (pauseNumber x ≤ q.2.2)) }
          finish (finishPauses s { e with pauseAsked := open_ } stOK) ring p stOK 0
        else finish s ring p stTOO_LATE 0
      | _, _ => match namedWaiting s ring p with
        | some (k, st, f) => finish { s with pair := { s.pair with waitingEntries := s.pair.waitingEntries.set k (if st = .paused then .queued else st, f) } } ring p stOK 0
        | none => badParam s ring p 8

/-- SET_PRIORITY takes effect (R237, R238, R247). -/
def doSetPriority (s : State) (ring : Nat) (p : Packet) : State :=
  match p.badByte [(16, 1)] with
  | some b => badParam s ring p b
  | none =>
    let v := p.le 16 1
    if v = 0 ∨ 7 < v then badParam s ring p 16
    else match namedEntry s ring p with
      | some (i, e) =>
        if e.st = .cancelling ∨ e.st = .done ∨ e.st = .failed then finish s ring p stTOO_LATE 0
        else finish (setEntryM s i { e with f := { e.f with basePrio := BitVec.ofNat 3 v } }) ring p stOK 0
      | none => match namedWaiting s ring p with
        | some (k, st, f) => finish { s with pair := { s.pair with waitingEntries := s.pair.waitingEntries.set k (st, { f with basePrio := BitVec.ofNat 3 v }) } } ring p stOK 0
        | none => badParam s ring p 8

/-- STATE codes of QUERY_REQUEST (R312). -/
def stateCode : ReqState → Nat
  | .queued => 1 | .steeping => 2 | .headstart => 3 | .pouring => 4 | .paused => 5 | .cancelling => 6 | .done => 7 | .failed => 8
/-- The 128 bytes QUERY_REQUEST writes (R312). -/
def queryBytes (i : Nat) (e : Entry) : List Byte :=
  let f := e.f
  let b := fun (n v : Nat) => natToBytes n v
  b 1 (stateCode e.st) ++ b 1 f.kind.toNat ++ b 1 f.basePrio.toNat ++ b 1 f.effPrio.toNat ++ b 2 f.tenant.toNat ++ b 2 f.variant.toNat ++ b 8 f.handle.toNat
    ++ b 4 f.seq.toNat ++ b 2 f.ring.toNat ++ b 1 f.image.toNat ++ b 1 f.delay.toNat ++ b 4 f.length.toNat ++ b 4 f.contLen.toNat ++ b 2 f.chunk.toNat
    ++ b 2 f.progress.toNat ++ b 4 f.nextPos.toNat ++ b 8 (Config.pageListOffset i).toNat ++ b 4 e.pages.length ++ b 2 f.pin.toNat ++ b 2 f.pourTarget.toNat
    ++ b 8 f.deadline.toNat ++ b 8 f.admitAt.toNat ++ b 8 f.promoStart.toNat ++ b 8 f.result.toNat ++ b 8 f.seed.toNat ++ b 2 f.stopSet.toNat ++ b 1 f.maxNew.toNat
    ++ b 1 f.pauses.toNat ++ b 1 f.charges.toNat ++ b 1 0 ++ b 2 f.lastEvent.toNat ++ b 8 f.tokenAddr.toNat ++ b 4 f.tokenCrc.toNat ++ b 4 f.crcHwm.toNat ++ b 8 0
/-- RESULT of QUERY_REQUEST (R313). -/
def queryResult (e : Entry) : BitVec 128 :=
  BitVec.ofNat 128 (resAt 16 (stateCode e.st) + resAt 17 e.f.effPrio.toNat + resAt 18 e.f.progress.toNat + resAt 20 e.f.nextPos.toNat + resAt 24 e.f.pauses.toNat)
/-- QUERY_REQUEST takes effect (R312, R316). -/
def doQuery (s : State) (ring : Nat) (p : Packet) (hostOk : Bool) : State :=
  match p.badByte [(16, 8)] with
  | some b => badParam s ring p b
  | none =>
    if p.le 16 8 % 64 ≠ 0 then badParam s ring p 16
    else
      let go := fun (i : Nat) (e : Entry) =>
        if hostOk then finish (emit s (.hostWrite (ringFunc s ring) (BitVec.ofNat 64 (p.le 16 8)) (queryBytes i e))) ring p stOK (queryResult e)
        else finish (emit s (.hostUndefined (BitVec.ofNat 64 (p.le 16 8)) 128)) ring p stFAULT 0
      match namedEntry s ring p with
      | some (i, e) => go i e
      | none => match namedWaiting s ring p with
        | some (_, st, f) => go Config.tableEntries (entryFrom st f true true)
        | none => badParam s ring p 8

/-- Pins of a partition, with the pin jobs that still run (R255, R472). -/
def pinJobs (s : State) (n : Nat) : List Entry := ((entriesOf s n).filter (fun q => q.2.f.isPin && q.2.st ≠ .done && q.2.st ≠ .failed)).map (·.2)
/-- PREFIX_PIN's checks in their order (R472). -/
def pinChecks (s : State) (n : Nat) (x : Part) (img : Image) (p : Packet) : Option (BitVec 16 × Nat) :=
  let len := p.le 24 4
  let need := totalPages img len
  let mine := ((x.pins.filter (fun q => q.2.tenant = p.tenant)).map (fun q => q.2.pages.length)).sum
    + (((pinJobs s n).filter (fun e => e.f.tenant.toNat = p.tenant)).map (fun e => totalPages img e.f.length.toNat)).sum
  firstFail [
    failsIf (!img.prefill) stBAD_PARAM 0xFF, failsIf (variantLacks x img p.tenant) stBAD_PARAM 2,
    failsIf (len = 0 || decide (img.contextMax ≤ len)) stBAD_PARAM 24, failsIf (p.le 28 1 = 0 || decide (7 < p.le 28 1)) stBAD_PARAM 28,
    failsIf (handleInUse s n p.handle || handleOnPartner s n p.handle) stBAD_PARAM 8,
    failsIf (tabGet? p.tenant x.tenants).isNone stNOT_PERMITTED 0, failsIf x.imageCharged stFAULT 0,
    failsIf ((freeEntry s).isNone || decide (x.entryQuota ≤ (entriesOf s n).length) || decide (16384 ≤ x.pins.length + (pinJobs s n).length)) stNO_ENTRY 0,
    failsIf (decide ((tabGet? p.tenant x.tenants).elim 0 (·.pinQuota) < mine + need)) stNO_PAGES 0, failsIf (decide (unpinnedPool x < need)) stNO_PAGES 0]
/-- PREFIX_PIN takes effect: a pin job enters the table (R252). -/
def doPin (s : State) (ring : Nat) (p : Packet) : State :=
  let n := partNo s ring
  match getPart? s n with
  | none => notPermitted s ring p
  | some x =>
    if follower s n then notPermitted s ring p
    else match p.badByte [(16, 13)] with
      | some b => badParam s ring p b
      | none => match x.image with
        | none => badParam s ring p 0xFF
        | some img => match pinChecks s n x img p with
          | some (st, v) => finish s ring p st (BitVec.ofNat 128 v)
          | none => match freeEntry s with
            | none => finish s ring p stNO_ENTRY 0
            | some i =>
              let f := submitFields s n ring x img { p with params := 0 }
              admitRequest s i { f with kind := 0, length := BitVec.ofNat 21 (p.le 24 4), basePrio := BitVec.ofNat 3 (p.le 28 1), effPrio := BitVec.ofNat 3 (p.le 28 1),
                                        tokenAddr := BitVec.ofNat 64 (p.le 16 8), isPin := true, pin := 0, nextPos := 0 }

/-- PREFIX_UNPIN takes effect (R254, R473). -/
def doUnpin (s : State) (ring : Nat) (p : Packet) : State :=
  let n := partNo s ring
  match getPart? s n with
  | none => notPermitted s ring p
  | some x => match p.badByte [(16, 2)] with
    | some b => badParam s ring p b
    | none => match tabGet? (p.le 16 2) x.pins with
      | none => badParam s ring p 16
      | some q =>
        if ringLevel s ring = 0 ∧ q.tenant ≠ p.tenant then badParam s ring p 16
        else idleCompose (settlePins (finish (setPart s n { x with pins := tabInsert (p.le 16 2) { q with retiring := true } x.pins }) ring p stOK 0) n) n

/-- NOP waits for the ring's firmware commands decoded before it (R321). -/
def doNop (s : State) (ring : Nat) (p : Packet) : State :=
  match noParams p with
  | some b => badParam s ring p b
  | none => settleNops (modRing s ring (fun x => { x with nops := x.nops ++ [(p, x.outstanding)] })) ring

/-- An express command takes effect at once; every other goes to the firmware queue, or is turned away when it is full
(R318, R320). -/
def carryOut (s : State) (c : FwCmd) : State :=
  match c.opcode.toNat with
  | 1 => doSubmit s c.ring c.p
  | 2 => doCancel s c.ring c.p
  | 5 => doSetPriority s c.ring c.p
  | 0x7F => doNop s c.ring c.p
  | _ =>
    if s.fwLimit.toNat ≤ s.fwQueue.length then finish s c.ring c.p stBUSY 0
    else modRing { s with fwQueue := s.fwQueue ++ [c] } c.ring (fun x => { x with outstanding := x.outstanding ++ [c.p.seq] })

/-- A command's completion ring has room for its first completion, or holds completions while it is disabled (R297, R302). -/
def cplRoom (s : State) (ring : Nat) (p : Packet) : Bool :=
  let x := getRing s (cplRing s ring p.cls)
  !ringEnabled x || decide ((x.tail - x.head).toNat + x.waiting.length < ringSize x)
/-- An express command waits behind a firmware command of its ring with the same HANDLE, queued or on its way into the queue (R319). -/
def handleWaits (s : State) (ring : Nat) (op : Nat) (p : Packet) : Bool :=
  (op = 1 || op = 2 || op = 5) &&
  (s.fwQueue ++ (s.pair.held.map (·.2)).filter (fun c => !express c.opcode.toNat)).any (fun c => c.ring = ring && c.p.handle = p.handle)
/-- Opcode and packet of a command's 64 bytes (R307). -/
def packetOf (b : BitVec 512) : BitVec 8 × Packet :=
  (b.setWidth 8, { flags := (b >>> 8).setWidth 8, tenantClass := (b >>> 16).setWidth 16, seq := (b >>> 32).setWidth 32, handle := (b >>> 64).setWidth 64, params := (b >>> 128).setWidth 384 })
/-- A submission ring has a command whose decode nothing holds back. -/
def ringDue (s : State) (ring : Nat) (x : Ring) : Bool :=
  ringEnabled x && !ringIsCpl x &&
  (match x.live with | b :: _ => let (op, p) := packetOf b; cplRoom s ring p && !handleWaits s ring op.toNat p | [] => false)
/-- Rings are served round-robin, one command per turn (R302): no ring between the last one served and this one has a command. -/
def ringTurn (s : State) (ring : Nat) : Bool :=
  let far := fun (r : Nat) => (r + 8191 - s.mod.lastRing) % 8192
  s.rings.all (fun q => !(decide (far q.1 < far ring) && ringDue s q.1 q.2))
/-- The command stands at the head of an enabled submission ring whose turn it is, and can be decoded (R299, R302, R319). -/
def canDecode (s : State) (ring : Nat) (op : BitVec 8) (p : Packet) : Bool :=
  let x := getRing s ring
  decide (ring < Config.rings) && deviceUp s && ringEnabled x && !ringIsCpl x && x.live.head? = some (packetBits op p) && cplRoom s ring p && !handleWaits s ring op.toNat p && ringTurn s ring
/-- Decode of one command: HEAD and RING_COUNT advance; on a pair that mirrors, its effect waits for its delta (R302, R318,
R375). -/
def decodeCmd (s : State) (ring : Nat) (op : BitVec 8) (p : Packet) (input : FwInput) : Res :=
  if !canDecode s ring op p then .next s
  else
    let x := getRing s ring
    let s := modRing { s with mod := { s.mod with lastRing := ring } } ring (fun x => { x with head := x.head + 1, count := x.count + 1, live := x.live.drop 1 })
    match gate s ring op.toNat p with
    | some (st, v) => .next (finish s ring p st (BitVec.ofNat 128 v))
    | none =>
      let c : FwCmd := { ring := ring, opcode := op, p := p, input := input }
      match sendDelta s (.command ring op p x.head) with
      | (s, none) => .next (carryOut s c)
      | (s, some n) => .next { s with pair := { s.pair with held := s.pair.held ++ [(n, c)] } }

def execSubmitPrompt (ring : Nat) (p : Packet) (s : State) : Res := decodeCmd s ring 0x01 p .none
def execCancel (ring : Nat) (p : Packet) (s : State) : Res := decodeCmd s ring 0x02 p .none
def execPause (ring : Nat) (p : Packet) (s : State) : Res := decodeCmd s ring 0x03 p .none
def execResume (ring : Nat) (p : Packet) (s : State) : Res := decodeCmd s ring 0x04 p .none
def execSetPriority (ring : Nat) (p : Packet) (s : State) : Res := decodeCmd s ring 0x05 p .none
def execQueryRequest (ring : Nat) (p : Packet) (hostOk : Bool) (s : State) : Res := decodeCmd s ring 0x06 p (.hostOk hostOk)
def execPrefixPin (ring : Nat) (p : Packet) (s : State) : Res := decodeCmd s ring 0x15 p .none
def execPrefixUnpin (ring : Nat) (p : Packet) (s : State) : Res := decodeCmd s ring 0x16 p .none
def execNop (ring : Nat) (p : Packet) (s : State) : Res := decodeCmd s ring 0x7F p .none
/-- A command whose opcode the table does not list (R295). -/
def execUnknownOpcodeCommand (ring : Nat) (opcode : BitVec 8) (p : Packet) (s : State) : Res :=
  if listedCommand opcode.toNat then .next s else decodeCmd s ring opcode p .none

end Sys2Proof.Machine
end

