-- ==== Sys2Proof/Machine/Power.lean ====
section
/-! DEFINITION. Power.lean: power states and wake sequencing, the power cap and the responses beside it, the kettle, thermal
and supply protections, and the checks of the sideband pins (R403-R422, R444-R457, R466). -/

namespace Sys2Proof.Machine

open Sys2Proof

/-- Compute domains off if partition `p` were in A2 (R413). -/
def offIf (s : State) (p : Nat) : Nat := 16 - (domainsKept s (fun n x => if n = p then 2 else x.pstate)).length
/-- Compute domains off now. -/
def offNow (s : State) : Nat := ((List.range 16).filter (fun d => !s.pwr.domains.getLsbD d)).length
/-- Worst-case A2 exit of a partition in µs (R413, R422). -/
def exitUs (s : State) (p : Nat) (x : Part) : Nat := 8 * (if x.pstate = 2 then offNow s else offIf s p) + 4
/-- Tolerance a partition chooses with, and the one the device chooses with, in µs (R409). -/
def tolPart (s : State) (x : Part) : Nat := min s.pwr.tolUs.toNat x.tolUs.toNat
def tolDevice (s : State) : Nat := s.parts.foldl (fun a q => min a q.2.tolUs.toNat) s.pwr.tolUs.toNat

/-- SET_WAKE_TOLERANCE completes once no partition of its scope wakes any more (R409). -/
def settleTol (s : State) : State :=
  let done := fun (q : Nat × Packet) => match ringPart s q.1 with
    | some p => (getPart? s p).elim true (fun x => x.waking.isNone)
    | none => s.parts.all (fun r => r.2.waking.isNone)
  let l := s.pwr.tolCmds.filter done
  let s' := { s with pwr := { s.pwr with tolCmds := s.pwr.tolCmds.filter (fun q => !done q) } }
  l.foldl (fun s q => finish s q.1 q.2 stOK 0) s'

/-- A partition reaches the state it wakes to; after A2 the program regions are loaded again, and a composed steep has been
delayed (R248, R408, R413). -/
def arriveState (s : State) (p w : Nat) : State :=
  match getPart? s p with
  | none => s
  | some x =>
    let s := setPart s p { x with pstate := w, waking := none, delayed := x.delayed || (x.pstate = 2 && x.next.isSome) }
    let s := if x.pstate = 2 then loadPrograms s p else s
    settleTol (settleDomains s)
/-- Order in which a wake's domains power on (R413): PD(4d + 3) first within its die. -/
def wakeOrder (l : List Nat) : List Nat :=
  let key := fun (d : Nat) => d / 4 * 4 + (if d % 4 = 3 then 0 else d % 4 + 1)
  sortBy (fun a b => decide (key a ≤ key b)) l
/-- A partition starts to wake to A0 or A1: the switches of its domains queue (R411, R413, R414). -/
def wakePart (s : State) (p w : Nat) : State :=
  match getPart? s p with
  | none => s
  | some x =>
    if x.pstate ≤ w then s
    else if x.pstate = 1 then settleTol (settleDomains (setPart s p { x with pstate := w }))
    else
      let w := match x.waking with | some v => min v w | none => w
      let need := (wakeOrder (partDomains s x w)).filter (fun d => !s.pwr.domains.getLsbD d)
      if need = [] then arriveState s p w
      else
        let s := setPart s p { x with waking := some w }
        { s with pwr := { s.pwr with switches := s.pwr.switches ++ need.filter (fun d => !s.pwr.switches.contains d) } }

/-- The next queued compute domain switch closes; partitions whose domains are all powered have woken (R413). -/
def execDomainSwitchClose (s : State) : Res :=
  match s.pwr.switches with
  | [] => .next s
  | d :: r =>
    let s := domainsUp s [d]
    let s := { s with pwr := { s.pwr with switches := r, domains := setBit s.pwr.domains d true } }
    .next (s.parts.foldl (fun s q => match getPart? s q.1 with
      | some x => match x.waking with
        | some w => if (partDomains s x w).all (fun d => s.pwr.domains.getLsbD d) then arriveState s q.1 w else s
        | none => s
      | none => s) s)

/-- No steep runs, is composed or is due (R12, R410). -/
def partIdle (s : State) (p : Nat) (x : Part) : Bool := x.phase = .none && x.next.isNone && !(x.image.isSome && anythingDue s p x.steepNo)
/-- What a tile loses with its domain's power (R408): its registers and counters read as they were. -/
def tileOff (x : Tile) : Tile := tileClear x
/-- A partition takes the next deeper state of A1 and A2 that its tolerance and R410 allow (R409, R410, R413). -/
def dwellPart (s : State) (p : Nat) : State :=
  match getPart? s p with
  | none => s
  | some x =>
    if !partIdle s p x ∨ x.waking.isSome ∨ !deviceUp s then s
    else if x.pstate = 0 then (if 2 ≤ tolPart s x then settleDomains (setPart s p { x with pstate := 1 }) else s)
    else if x.pstate = 1 then
      let us := 8 * offIf s p + 4
      if us ≤ tolPart s x ∧ s.parts.all (fun q => q.2.pstate ≠ 2 || decide (us ≤ tolPart s q.2)) then
        settleDomains (modTiles (setPart s p { x with pstate := 2 }) (maskTiles x.tileMask) tileOff)
      else s
    else s

/-- A live request (R237, R410): anything but PAUSED, DONE and FAILED. -/
def liveWork (s : State) : Bool :=
  s.table.any (fun q => q.2.st ≠ .paused && q.2.st ≠ .done && q.2.st ≠ .failed) || s.pair.waitingEntries.any (fun q => q.1 ≠ .paused)
/-- The conditions of A3 but for the dwell, the tolerance and the SLEEP handshake (R410). -/
def a3Ready (s : State) : Bool :=
  s.ready && s.parts.all (fun q => q.2.pstate = 2 || decide (q.2.tileMask = 0)) && !liveWork s && decide (s.fwQueue = []) &&
  s.parts.all (fun q => q.2.targets.all (fun r => decide (r.2.flights = []) && r.2.st ≠ .waiting)) &&
  s.pair.st ≠ 1 && s.pair.st ≠ 3 && s.pair.st ≠ 4
/-- SLEEP is confirmed, or there is no partner to send it to (R380, R410). -/
def sleepDone (s : State) : Bool := s.pair.st ≠ 2 || s.pair.sleepConfirmed
/-- The further conditions of A4 (R410); PME_Turn_Off comes once the PF is in D3hot. -/
def a4Ready (s : State) : Bool :=
  a3Ready s && sleepDone s && s.fab.groups.all (fun g => g.2.st = .broken) && s.pwr.pmeDone &&
  (match s.pwr.leftA4 with | some t => decide (t + 2000000000 ≤ now s) | none => true)

/-- TIMEBASE and tick are captured when PD18 powers down (R406). -/
def capture (w : Power) : Power := match w.captured with | some _ => w | none => { w with captured := some (w.timebase, w.tick) }
/-- TIMEBASE when PD18 powers up again (R406): one tick is 1 953 125 / 64 ns. -/
def reloaded (w : Power) : Power :=
  match w.captured with
  | none => w
  | some (t, k) => { w with timebase := BitVec.ofNat 64 (t.toNat + (w.tick.toNat - k.toNat) * 1953125 / 64), captured := none }

/-- What stays when every domain but PD19 loses power (R203, R279, R408, R426, R433, R439, R460): the kettle, the fuses and the flash,
and what is lost until service. -/
def kettleOnly (s : State) : State :=
  let w := capture s.pwr
  { State.reset with
    pending := s.pending, free := s.free, out := s.out, log := s.log, logNext := s.logNext, logLost := s.logLost
    iod := { lost := s.iod.lost, newtsLost := s.iod.newtsLost }
    pair := { partner := s.pair.partner, rank := s.pair.rank }
    pwr := { dev := w.dev, timebase := w.timebase, tick := w.tick, frac := w.frac, captured := w.captured, alarms := w.alarms, vinOut := w.vinOut,
             dieHot := w.dieHot, leakNow := w.leakNow, wakeIn := w.wakeIn, seen := w.seen, wakeCause := w.wakeCause, vin10mv := w.vin10mv,
             wakeMask := w.wakeMask, wakeSuppressed := w.wakeSuppressed, leftA4 := w.leftA4 }
    mod := { lifecycle := s.mod.lifecycle, fwSvn := s.mod.fwSvn, svnMin := s.mod.svnMin, fwVersion := s.mod.fwVersion, fwSlot := s.mod.fwSlot,
             staged := s.mod.staged, gen := s.mod.gen, salt := s.mod.salt, stopped := s.mod.stopped, restartOk := s.mod.restartOk,
             leakShutdown := s.mod.leakShutdown, pinFaults := s.mod.pinFaults, pinSeen := s.mod.pinSeen, lastPin := s.mod.lastPin,
             lastKind := s.mod.lastKind, alert := s.mod.leakShutdown && s.mod.alert, pinClear := s.mod.pinClear, testPin := s.mod.testPin, wakePinHeld := s.mod.wakePinHeld } }

/-- Fields of a partition that are no part of the save image of A4 (R408). -/
def savedPart (x : Part) : Part := { x with slowRuns := [], slowPrev := [], lastRpt := 0, lastT := 0, arrived := [], uses := [], counts := [], waking := none }
/-- Status registers and counters of a tile in the save image (R408). -/
def savedTile (x : Tile) : Tile :=
  { onSpare := x.onSpare, retired := x.retired, errStatus := x.errStatus, excStatus := x.excStatus, excInfo := x.excInfo, spadStatus := x.spadStatus, ctrs := x.ctrs }
/-- Entry into A4 (R408): the save image is written, then only PD19 and the DRAM keep their contents. -/
def enterA4 (s : State) : State :=
  let k := kettleOnly { s with pwr := { s.pwr with dev := 4 } }
  { k with
    saved := { valid := true, parts := s.parts.map (fun q => (q.1, savedPart q.2)), rings := s.rings, table := s.table.filter (fun q => q.2.st = .paused),
               tiles := s.tiles.map (fun q => (q.1, savedTile q.2)) }
    resetCause := s.resetCause
    funcs := s.funcs.map (fun q => (q.1, { errAccess := q.2.errAccess, enabled := q.2.enabled, resetCause := q.2.resetCause }))
    fab := { ports := s.fab.ports.map (fun q => (q.1, { status := s.fab.ports.foldl (fun a r => if r.1 = q.1 then r.2.status &&& 0x4000000000000000 else a) 0, sent := q.2.sent })) }
    iod := { ctrs := s.iod.ctrs, lost := s.iod.lost, scrubPass := s.iod.scrubPass, waysOff := s.iod.waysOff, newtsLost := s.iod.newtsLost,
             sparesUsed := s.iod.sparesUsed, badPhys := s.iod.badPhys, targetsAdded := s.iod.targetsAdded }
    pair := { s.pair with held := [], sent := [], aliveOut := .hz32, selfAsleep := true }
    pwr := { k.pwr with throttleNs := s.pwr.throttleNs, energyMj := s.pwr.energyMj, tolUs := s.pwr.tolUs, capW := s.pwr.capW, pmeDone := true }
    mod := { k.mod with sealReset := s.mod.sealReset, alertSeen := s.mod.alertSeen, ilimitSeen := s.mod.ilimitSeen, slotId := s.mod.slotId, flashWp := s.mod.flashWp, lifeStarted := true } }
/-- Entry into A5 (R408): DRAM contents are lost as well. -/
def enterA5 (s : State) : State := kettleOnly { s with pwr := { s.pwr with dev := 5 } }
/-- KETTLE_CTL.OFF (R410, R421): false when the conditions do not hold, so that the write is dropped and logged. -/
def offAllowed (s : State) : Bool := a4Ready s

/-- The device takes the next deeper state of A3 and A4 that the tolerances and R410 allow; a paired member first sends
SLEEP (R380, R408-R410). -/
def dwellDevice (s : State) : State :=
  if s.pwr.dev = 0 then
    if !a3Ready s ∨ tolDevice s < 3000 then s
    else if sleepDone s then
      { s with pwr := { s.pwr with dev := 3 }, iod := { s.iod with combining := [], caddy := [] } }
    else emit s (.sleepMsg s.pwr.tick)
  else if s.pwr.dev = 3 then (if a4Ready s ∧ 40000 ≤ tolDevice s then enterA4 s else s)
  else s

/-- A scope's conditions hold for the dwell and it enters a deeper state (R410). -/
def execStateDwellExpiry (scope : PwrScope) (s : State) : Res :=
  match scope with
  | .device => .next (dwellDevice s)
  | .part p => .next (dwellPart s p)

/-- A wake source is masked or suppressed (R419, R420, R453, R454). -/
def wakeMasked (s : State) (source : Nat) : Bool :=
  (source = 2 && (s.pwr.wakeMask.getLsbD 3 || s.mod.wakePinHeld)) || (source = 3 && s.pwr.wakeMask.getLsbD 0) ||
  (source = 4 && s.pwr.wakeMask.getLsbD 1) || (source = 5 && s.pwr.wakeMask.getLsbD 2) || (decide (4 ≤ s.pwr.dev) && (s.pwr.wakeSuppressed || s.mod.leakShutdown))
/-- The wake window of a mirroring member opens (R380): max(15 µs, 2 D), D = 40 × 10⁻⁶ of the sleep in own kettle ticks of
1 953 125 / 64 ns, so that 2 D is 625 / 256 ns a tick. -/
def openWindow (s : State) : State :=
  if s.pair.st ≠ 2 then s
  else { s with pair := { s.pair with window := true, windowEnd := now s + max 15000 ((s.pwr.tick - s.pair.sleepAt).toNat * 625 / 256) } }
/-- The device wakes (R411, R412, R420): out of A3 at once; from A4 and A5 by PME on WAKE_N, and A4_EXIT follows. -/
def wakeDevice (s : State) (source : Nat) : State :=
  if s.pwr.dev < 3 ∨ wakeMasked s source then s
  else
    let s := { s with pwr := { s.pwr with wakeCause := BitVec.ofNat 8 source } }
    if s.pwr.dev = 3 then
      openWindow { s with pwr := { s.pwr with dev := 0 }, pair := { s.pair with selfAsleep := false, sleepConfirmed := false, aliveOut := .mhz1 } }
    else emit s (.pin 2 false)
/-- A wake event (R411): a partition wakes when a steep of it is due or composed. -/
def execWakeEvent (scope : PwrScope) (source : BitVec 8) (s : State) : Res :=
  match scope with
  | .device => .next (if 1 ≤ source.toNat ∧ source.toNat ≤ 7 then wakeDevice s source.toNat else s)
  | .part p => match getPart? s p with
    | some x => .next (if deviceUp s ∧ !partIdle s p x then wakePart s p 0 else s)
    | none => .next s

/-- SET_WAKE_TOLERANCE takes effect (R409): device scope on the global ring, partition scope on a partition ring. -/
def doTolerance (s : State) (ring : Nat) (p : Packet) : State :=
  match p.badByte [(16, 4)] with
  | some b => badParam s ring p b
  | none =>
    let v := BitVec.ofNat 32 (p.le 16 4)
    let s := match ringPart s ring with
      | some n => modPart s n (fun x => { x with tolUs := v })
      | none => { s with pwr := { s.pwr with tolUs := v } }
    let s := s.parts.foldl (fun s q => match getPart? s q.1 with
      | some x =>
        if x.pstate = 2 ∧ tolPart s x < exitUs s q.1 x then wakePart s q.1 (if 2 ≤ tolPart s x then 1 else 0)
        else if x.pstate = 1 ∧ tolPart s x < 2 then wakePart s q.1 0 else s
      | none => s) s
    settleTol { s with pwr := { s.pwr with tolCmds := s.pwr.tolCmds ++ [(ring, p)] } }
/-- SET_POWER_CAP takes effect; it completes after the first loop period that uses the cap (R415). -/
def doPowerCap (s : State) (ring : Nat) (p : Packet) : State :=
  match p.badByte [(16, 2)] with
  | some b => badParam s ring p b
  | none =>
    let w := p.le 16 2
    if w < 800 ∨ 2600 < w then badParam s ring p 16
    else { s with pwr := { s.pwr with capW := BitVec.ofNat 16 w, capCmds := s.pwr.capCmds ++ [(ring, p)] } }

/-- Running steeps are throttled, or saw a step change: they do not count for the slow-tile rule (R396). -/
def markThrottled (s : State) (old : Nat) : State :=
  if s.pwr.theta = 0 ∧ s.pwr.step = 0 ∧ s.pwr.step = old then s
  else { s with parts := s.parts.map (fun q => (q.1, if q.2.phase = .none then q.2 else { q.2 with throttled := true })) }
/-- One period of the cap loop (R415, R416): `c` is the cap in force and `w` the mean power. -/
def capStep (x : Power) (c w : Nat) : Power :=
  let x :=
    if c < w then { x with theta := x.theta + max 1 (ceilDiv (64 * (w - c)) w), below := 0 }
    else if 100 * w < 97 * c then
      let x := { x with below := x.below + 1 }
      if 0 < x.theta then { x with theta := x.theta - 1 }
      else if 0 < x.step ∧ 10 ≤ x.below then { x with step := x.step - 1, below := 0 } else x
    else x
  let x := if 16 < x.theta then (if x.step < 3 then { x with step := x.step + 1, theta := 8 } else { x with theta := min x.theta 48, capUnmet := true }) else x
  if w ≤ c then { x with capUnmet := false } else x
/-- The cap loop's period (R415-R417, R421): mJ are tenths of watts of 100 µs. The supply's readings come with it (R421, R470; log entry
163). -/
def execPowerCapTick (i : InputSample) (s : State) : Res :=
  if !s.ready ∨ 3 < s.pwr.dev then .next s
  else
    let c := if s.pwr.brake ∨ s.pwr.limitBrake then 800 else s.pwr.capW.toNat
    let s := { s with mod := { s.mod with iin := BitVec.ofNat 16 i.iin, vinSns := BitVec.ofNat 16 i.vin } }
    let w := { s.pwr with measured := BitVec.ofNat 16 i.watts, vin10mv := BitVec.ofNat 16 i.vin, energyMj := s.pwr.energyMj + BitVec.ofNat 64 ((s.pwr.energyFrac + i.watts) / 10), energyFrac := (s.pwr.energyFrac + i.watts) % 10 }
    let w := if w.hot then (if i.watts ≤ c then { w with capUnmet := false } else w) else capStep w c i.watts
    let cmds := w.capCmds
    let s := markThrottled { s with pwr := { w with capCmds := [] } } s.pwr.step
    .next (cmds.foldl (fun s q => finish s q.1 q.2 stOK 0) s)

/-- s = 3 and θ of at least `th` (R417). -/
def slowDown (s : State) (th : Nat) : State := markThrottled { s with pwr := { s.pwr with step := 3, theta := max s.pwr.theta th } } s.pwr.step
/-- DIE_HOT asserts (R417, R419). -/
def hotAssert (s : State) : State :=
  let s := { s with pwr := { s.pwr with dieHot := true, seen := setBit s.pwr.seen 2 true } }
  if s.pwr.dev < 3 ∧ s.ready then slowDown { s with pwr := { s.pwr with hot := true } } 32 else s
def execDieHot (s : State) : Res := .next (hotAssert s)
/-- DIE_HOT has been clear for 10 ms: the loop goes on from the values in force (R417). -/
def execDieHotClearTimeout (s : State) : Res := .next (if s.pwr.dieHot then s else { s with pwr := { s.pwr with hot := false } })
/-- PWR_BRAKE_N goes low or high (R417). -/
def execPwrBrakeN (low : Bool) (s : State) : Res :=
  if low then .next (if s.ready then slowDown { s with pwr := { s.pwr with brake := true } } 48 else { s with pwr := { s.pwr with brake := true } })
  else .next { s with pwr := { s.pwr with brake := false } }


/-- The input current reaches its limit: the brake response (R448). -/
def execCurrentLimit (s : State) : Res :=
  let s := { s with mod := { s.mod with ilimit := true, ilimitSeen := true }, pwr := { s.pwr with limitBrake := true } }
  .next (if s.ready then slowDown s 48 else s)
/-- The limit is still engaged after 20 ms of braking (R448). -/
def execCurrentLimitTimeout (s : State) : Res := .next (if s.mod.ilimit then tripModule s 0x0C else s)
/-- The input current stayed below 60 A for 10 ms (R448). -/
def execCurrentLimitRelease (s : State) : Res := .next { s with mod := { s.mod with ilimit := false }, pwr := { s.pwr with limitBrake := false } }

/-- THERM_ALERT_N follows the thermal alert and a leak shutdown (R452, R453, R469). -/
def setAlert (s : State) (on : Bool) : State :=
  let now := on || s.mod.leakShutdown
  if now = s.mod.alert then s else emit { s with mod := { s.mod with alert := now, alertSeen := s.mod.alertSeen || now } } (.pin 9 (!now))
/-- A sample of the temperature sensors (R452, R466, R469). -/
def execThermalSample (x : Temps) (s : State) : Res :=
  let tj := x.dies.foldl max 0
  let hotDie := x.dies.findIdx (fun d => d = tj)
  let w := s.pwr.measured.toNat
  let psi := if w < 500 then s.mod.psi else BitVec.ofNat 16 ((tj - x.inlet) * 10000 / w)
  let s := { s with mod := { s.mod with tjMax := BitVec.ofNat 8 tj, hotDie := BitVec.ofNat 3 hotDie, inlet := BitVec.ofNat 8 x.inlet, outlet := BitVec.ofNat 8 x.outlet, psi := psi } }
  let s := if 100 ≤ tj ∨ 70 ≤ x.outlet then setAlert s true else if tj < 97 ∧ x.outlet < 67 then setAlert s false else s
  let s := if 104 ≤ tj then (if s.pwr.dieHot then s else hotAssert s) else if tj < 100 then { s with pwr := { s.pwr with dieHot := false } } else s
  let s := if s.mod.stopped = some 0x08 ∧ tj < 80 ∧ x.outlet < 60 then { s with mod := { s.mod with restartOk := true } } else s
  .next (if x.dieTrip ∨ x.outletTrip then tripModule s 0x08 else s)

/-- The supply is beyond the absolute maximum ratings (R445). -/
def beyondRatings (mv : Int) : Bool := decide (mv < -60000) || decide (80000 < mv)
/-- VIN falls below 30 V: the kettle stops and all state is lost but the flash and the fuses (R447, R460). -/
def supplyLost (s : State) : State :=
  let k := kettleOnly s
  { k with pwr := { vin10mv := 0, leakNow := s.pwr.leakNow }, mod := { k.mod with stopped := none, restartOk := !s.pwr.leakNow, leakShutdown := s.pwr.leakNow, pinFaults := 0, pinSeen := 0, lastPin := 0, lastKind := 0, pinClear := [], testPin := 0, wakePinHeld := false } }
/-- VIN leaves its window (R419, R445, R447). -/
def execVinOutOfWindow (mv : Int) (s : State) : Res :=
  if beyondRatings mv then .fault .beyondRatings
  else if 38000 ≤ mv ∧ mv ≤ 62000 then .next s
  else if mv < 30000 then .next (supplyLost s)
  else
    let s := { s with pwr := { s.pwr with vinOut := true, seen := setBit s.pwr.seen 3 true, vin10mv := BitVec.ofInt 16 (mv / 10) } }
    if 4 ≤ s.pwr.dev then .next { s with pwr := { s.pwr with wakeSuppressed := true } }
    else .next (tripModule s 0x09)
/-- VIN returns inside its window: wake suppression ends, and VIN valid is the restart condition of its trip (R419, R447,
R466). -/
def execVinBackInside (mv : Int) (s : State) : Res :=
  if beyondRatings mv then .fault .beyondRatings
  else if mv < 38000 ∨ 62000 < mv then .next s
  else
    let s := { s with pwr := { s.pwr with vinOut := false, vin10mv := BitVec.ofInt 16 (mv / 10), wakeSuppressed := s.mod.leakShutdown } }
    .next (if s.mod.stopped = some 0x09 ∧ 42000 ≤ mv ∧ mv ≤ 60000 then { s with mod := { s.mod with restartOk := true } } else s)
/-- A rail leaves regulation (R450). -/
def execRailFault (s : State) : Res :=
  if !s.mod.lifeStarted ∨ s.mod.stopped.isSome then .next s
  else .next (tripModule (emit { s with mod := { s.mod with pwrGood := false } } (.pin 11 false)) 0x0A)
/-- LEAK_N low for 1 ms (R453): the module stops and every domain but PD19 is switched off; in A4 and A5 wakes are
suppressed. THERM_ALERT_N is low as long as the shutdown lasts. -/
def execLeak (s : State) : Res :=
  let s := { s with pwr := { s.pwr with leakNow := true, seen := setBit s.pwr.seen 1 true } }
  let s := if 4 ≤ s.pwr.dev then { s with pair := { s.pair with aliveOut := .static }, pwr := { s.pwr with wakeSuppressed := true }, mod := { s.mod with restartOk := false } }
    else (let s := tripModule s 0x0B; { s with pwr := { capture s.pwr with domains := 0, switches := [] } })
  .next (setAlert { s with mod := { s.mod with leakShutdown := true } } true)
/-- LEAK_N has been high for 10 s: the restart condition of the leak shutdown (R453, R466). -/
def execLeakNHigh (s : State) : Res :=
  let s := { s with pwr := { s.pwr with leakNow := false } }
  .next (if s.mod.leakShutdown then { s with mod := { s.mod with restartOk := true } } else s)
/-- WAKE_N is driven low externally: wake source 2 (R419, R420). Before that it was released (R454; log entry 164). -/
def execWakeNExternal (s : State) : Res :=
  .next (wakeDevice { s with
    mod := { s.mod with wakePinHeld := false }
    pwr := { s.pwr with wakeIn := true, seen := setBit s.pwr.seen 0 true } } 2)
/-- A kettle alarm reaches its compare value (R418). -/
def execAlarmFire (i : Fin 4) (s : State) : Res :=
  let a := tabGetD s.pwr.alarms i 0
  if !bit a 63 ∨ s.pwr.tick.toNat % 2 ^ 48 < bits a 47 0 then .next s
  else
    let s := { s with pwr := { s.pwr with alarms := tabInsert i.val (setBit (setBit a 63 false) 61 true) s.pwr.alarms } }
    .next (if bit a 62 then wakeDevice s 1 else s)
/-- The host's PME_Turn_Off is acknowledged (R410). -/
def execPmeTurnOff (s : State) : Res := .next (emit { s with pwr := { s.pwr with pmeDone := true } } .pme)

/-- SB_PIN_STATUS (R468). -/
def sbPinStatus (m : Mod) : Word64 :=
  BitVec.ofNat 64 (m.lastPin.toNat * 2 ^ 59 + m.lastKind.toNat * 2 ^ 56 + m.pinFaults.toNat * 2 ^ 32 + b2n m.flashWp * 2 ^ 28 + m.slotId.toNat * 2 ^ 24 + m.pinSeen.toNat)
/-- A finding on a sideband pin (R456): one record of class 19, none while the pin stays faulted or has been clear for less
than 1 s. -/
def pinFinding (s : State) (pin kind : Nat) : State :=
  let quiet := s.mod.pinFaults.getLsbD pin || (match tabGet? pin s.mod.pinClear with | some t => decide (now s < t + 1000000000) | none => false)
  let s := { s with mod := { s.mod with pinFaults := setBit s.mod.pinFaults pin true, pinSeen := setBit s.mod.pinSeen pin true, lastPin := BitVec.ofNat 5 pin, lastKind := BitVec.ofNat 3 kind } }
  if quiet then s else faultLog s 19 kind 0xFF 0 pin 0xFFFF ((sbPinStatus s.mod).setWidth 128)
/-- A pin tests clear. -/
def pinCleared (s : State) (pin : Nat) : State :=
  if s.mod.pinFaults.getLsbD pin then { s with mod := { s.mod with pinFaults := setBit s.mod.pinFaults pin false, pinClear := tabInsert pin (now s) s.mod.pinClear } } else s
/-- Inputs marked test pull, in index order, and pins that are read back or sampled once (R454, R457). -/
def testPins : List Nat := [1, 3, 10, 12, 13, 14, 15, 16, 18]
def readbackPins : List Nat := [2, 6, 8, 9, 11, 12, 13, 14, 15, 16, 17]
/-- Every 50 ms the next input is pulled and read: held high is kind 2, every other pin that falls with it kind 3 (R456). -/
def execPinTestTimer (above2V : Bool) (bridged : List (Fin 21)) (s : State) : Res :=
  let pin := testPins.getD s.mod.testPin 1
  let s := { s with mod := { s.mod with testPin := (s.mod.testPin + 1) % testPins.length } }
  let s := if above2V then pinFinding s pin 2 else pinCleared s pin
  .next (bridged.foldl (fun s q => if q.val = pin then s else pinFinding s q.val 3) s)
/-- A driven level reads back otherwise for 100 µs, or a strap changed after start-up: kind 4 (R456, R457). -/
def execPinReadbackMismatch (pin : Fin 21) (s : State) : Res := .next (if readbackPins.contains pin.val then pinFinding s pin 4 else s)
/-- SMB_SCL or SMB_SDA low for 35 ms: the device releases the bus and reports it held low (R454). -/
def execSmbusHeldLowTimeout (pin : Fin 2) (s : State) : Res := .next (pinFinding s (4 + pin.val) 1)
/-- PERST_N low for more than 10 s, or WAKE_N driven low externally for more than 1 s (R454). -/
def execSidebandHeldTimeout (pin : Fin 21) (s : State) : Res :=
  if pin.val = 0 then .next (pinFinding s 0 1)
  else if pin.val = 2 ∧ s.pwr.wakeIn then .next (pinFinding { s with mod := { s.mod with wakePinHeld := true } } 2 1)
  else .next s
/-- REFCLK is lost: the PLLs take the local oscillator (R346, R405), reported as kind 5 on REFCLK_P. -/
def execRefclkLoss (s : State) : Res := .next (pinFinding { s with pwr := { s.pwr with refLocal := true } } 19 5)

end Sys2Proof.Machine
end

