-- ==== Sys2Proof/Machine/Registers.lean ====
section
/-! DEFINITION. Registers.lean: the register window BAR0 and BAR4: which register an offset names, what it reads, and what a
write does to it (R88, R154, R162, R203, R225, R259, R280-R297, R306, R320, R339, R340, R351, R355, R356, R359, R364, R369,
R393, R401, R402, R421, R422, R440, R441, R464, R468-R471). -/

namespace Sys2Proof.Machine

open Sys2Proof

/-- The registers of BAR0 (R284): a 64-bit register by block, with its offset in the block. -/
inductive Reg where
  | dev (k : Nat)
  | errAccess
  | fwBacklog
  | glob (off : Nat)
  | ring (n : Nat) (off : Nat)
  | part (p : Nat) (off : Nat)
  | target (p : Nat) (k : Nat)
  | group (p : Nat) (g : Nat) (lag : Bool)
  | tile (t : Nat) (off : Nat)
  deriving DecidableEq, Repr

/-- Offsets of the global status block that name a register (R284, R355, R356, R421, R471). -/
def globListed (o : Nat) : Bool :=
  [0x00, 0x08, 0x10, 0x18, 0x20, 0x28, 0x30, 0x38, 0x40, 0x48, 0x50, 0x58, 0x60, 0x80, 0x88, 0x90, 0x98, 0xA0, 0xA8, 0xB0, 0xB8, 0xC0, 0xC8, 0xD0, 0xD8,
   0xE0, 0xE8, 0xF0, 0xF8, 0x100, 0x108, 0x110, 0x118, 0x120].contains o
  || (decide (0x200 ≤ o) && decide (o < 0x200 + 8 * 18)) || (decide (0x300 ≤ o) && decide (o < 0x300 + 8 * 72)) || (decide (0x600 ≤ o) && decide (o < 0x600 + 8 * 22))
/-- Partition registers and counters (R284). -/
def partListed (o : Nat) : Bool := decide (o ≤ 0x048) || (decide (0x100 ≤ o) && decide (o ≤ 0x188))
/-- Tile registers and counters (R284). -/
def tileListed (o : Nat) : Bool := decide (o ≤ 0x20) || (decide (0x40 ≤ o) && decide (o ≤ 0xD8))
/-- Group `g` is FREE or belongs to partition `p`; another partition's reads as unmapped (R359). -/
def groupHere (s : State) (p g : Nat) : Bool := match tabGet? g s.fab.groups with | some q => q.part = p | none => true
/-- A register of partition block `p` (R284), `o` a multiple of 8. -/
def partReg (s : State) (p o : Nat) : Option Reg :=
  if o < 0x4000 then (if partListed o then some (.part p o) else none)
  else if o < 0x6000 then some (.target p ((o - 0x4000) / 8))
  else if o < 0x6100 then (if groupHere s p ((o - 0x6000) / 16) then some (.group p ((o - 0x6000) / 16) (o % 16 = 8)) else none)
  else if o < 0x8000 then none
  else
    let t := (o - 0x8000) / 512
    if decide (t < 64) && (match getPart? s p with | some x => x.tileMask.getLsbD t | none => false) && tileListed (o % 512) then some (.tile t (o % 512)) else none
/-- Rings a function's window shows (R284). -/
def ringsShown (s : State) (fn : Nat) : Nat := if fn = 0 then Config.rings else match getPart? s (fn - 1) with | some x => x.ringQuota | none => 0
/-- First ring of a function. -/
def ringFirst (s : State) (fn : Nat) : Nat := if fn = 0 then 0 else match getPart? s (fn - 1) with | some x => x.ringBase | none => 0
/-- The register at a BAR0 offset as a function sees it (R284); before READY only the DEV, ERR and global status blocks are
served (R464), and of a stopped module DEV and ERR (R466). -/
def regAt (s : State) (fn off : Nat) : Option Reg :=
  let o := off / 8 * 8
  if o < 0x1000 then (if o ≤ 0x10 then some (.dev o) else none)
  else if o < 0x2000 then (if o = 0x1000 then some .errAccess else none)
  else if s.mod.stopped.isSome ∧ !s.ready then none
  else if 0x10000 ≤ o ∧ o < 0x20000 then (if fn = 0 ∧ globListed (o - 0x10000) then some (.glob (o - 0x10000)) else none)
  else if !s.ready then none
  else if o = 0x2000 then (if fn = 0 then some .fwBacklog else none)
  else if 0x100000 ≤ o ∧ o < 0x180000 then
    let n := (o - 0x100000) / 64
    if n < ringsShown s fn ∧ o % 64 ≤ 0x28 then some (.ring (ringFirst s fn + n) (o % 64)) else none
  else if 0x1000000 ≤ o ∧ o < 0x1400000 then
    let q := (o - 0x1000000) / 0x10000
    if fn = 0 then partReg s q (o % 0x10000) else if q = 0 then partReg s (fn - 1) (o % 0x10000) else none
  else none

/-- The device's power state (R294, R408). -/
def deviceState (s : State) : Nat :=
  if 3 ≤ s.pwr.dev then s.pwr.dev else (s.parts.filter (fun q => q.2.tileMask ≠ 0)).foldl (fun a q => min a q.2.pstate) 2
/-- DEV_INFO, DEV_DRAM, DEV_STATUS (R293, R294). -/
def devValue (s : State) (fn k : Nat) : Word64 :=
  if k = 0 then
    let retired := (s.tiles.filter (fun q => q.2.retired)).length
    let spares := ((List.range 4).filter (fun d => spareFree s (16 * d))).length
    BitVec.ofNat 64 (0xB1 * 2 ^ 40 + Config.orderCode.toNat * 2 ^ 32 + (64 - retired) * 2 ^ 24 + spares * 2 ^ 16 + (32 - onesOf s.iod.lost) * 2 ^ 8 + b2n Config.bar4Present)
  else if k = 8 then BitVec.ofNat 64 (Config.usableMib * 2 ^ 32 + Config.partableMib)
  else if fn = 0 then
    BitVec.ofNat 64 (b2n s.ready * 2 ^ 63 + deviceState s * 2 ^ 59 + s.pair.st * 2 ^ 56 + b2n s.mod.fwSlot * 2 ^ 55 + b2n s.mod.staged.isSome * 2 ^ 54 + s.mod.fwVersion.toNat * 2 ^ 32 + s.resetCause.toNat)
  else
    let f := getFunc s fn
    let cause := if f.resetCause = 0 then s.resetCause else f.resetCause
    let x := getPart? s (fn - 1)
    BitVec.ofNat 64 (b2n s.ready * 2 ^ 63 + b2n (s.ready && f.enabled && x.isSome) * 2 ^ 62 + ((x.map (·.pstate)).getD 0) * 2 ^ 59 + s.mod.fwVersion.toNat * 2 ^ 32 + cause.toNat)
/-- FW_BACKLOG (R320). -/
def backlogValue (s : State) : Word64 :=
  BitVec.ofNat 64 (s.fwLimit.toNat * 2 ^ 32 + b2n (decide (s.fwLimit.toNat < 2 * s.fwQueue.length)) * 2 ^ 31 + s.fwQueue.length)

/-- Port i's bits of POUR_PORT_STATUS (R340). -/
def pourPortBits (i : Iod) (p : Nat) : Nat :=
  (b2n (i.portsUp.getLsbD p) * 2 ^ 15 + b2n (i.portsMacsec.getLsbD p) * 2 ^ 14 + b2n (i.portsFenced.getLsbD p) * 2 ^ 13 + bits i.portLanes (8 * p + 7) (8 * p)) * 2 ^ (16 * p)
/-- FAB_PORT_STATUS with the state changes of the last second (R354, R356). -/
def fabPortValue (s : State) (p : Nat) : Word64 :=
  let q := tabGetD s.fab.ports p {}
  setBits q.status 51 48 (min 15 (q.changes.filter (fun t => decide (now s < t + 1000000000))).length)
/-- A register of the global status block. -/
def globValue (s : State) (o : Nat) : Word64 :=
  let w := s.pwr
  if o = 0x00 then BitVec.ofNat 64 (b2n (s.iod.lost ≠ 0) * 2 ^ 63 + b2n (decide (2 ≤ onesOf s.iod.lost)) * 2 ^ 62 + s.iod.scrubPass.toNat * 2 ^ 32 + s.iod.lost.toNat)
  else if o = 0x08 then s.iod.waysOff.setWidth 64
  else if o = 0x10 then BitVec.ofNat 64 (s.iod.newtsLost.toNat * 2 ^ 40 + s.iod.draftLimit * 2 ^ 32 + (s.table.filter (fun q => q.2.newt.isSome)).length)
  else if o = 0x18 then BitVec.ofNat 64 (pourPortBits s.iod 0 + pourPortBits s.iod 1 + pourPortBits s.iod 2 + pourPortBits s.iod 3)
  else if o = 0x20 then
    BitVec.ofNat 64 (b2n s.fab.searching * 2 ^ 63 + b2n s.fab.published * 2 ^ 62 + s.fab.modules * 2 ^ 48 + s.fab.routeId.toNat * 2 ^ 32 + s.fab.pubEpoch.toNat * 2 ^ 16 + s.fab.epoch.toNat)
  else if o = 0x28 then s.fab.vcWeight
  else if o = 0x30 then s.iod.pourTc
  else if o = 0x38 then s.iod.collTc
  else if o = 0x40 then
    BitVec.ofNat 64 (s.pair.st * 2 ^ 61 + s.pair.rank * 2 ^ 60 + s.pair.aliveIn * 2 ^ 58 + s.pair.mirrorPort * 2 ^ 57 + b2n s.pair.wireFault * 2 ^ 56 + min s.pair.resyncs 0xFFFF * 2 ^ 32)
  else if o ≤ 0x60 then smGet s.pair.ctrs o
  else if o = 0x80 then
    BitVec.ofNat 64 (deviceState s * 2 ^ 61 + w.step * 2 ^ 59 + w.theta * 2 ^ 53 + b2n w.capUnmet * 2 ^ 52 + b2n w.hot * 2 ^ 51 + b2n (w.brake || w.limitBrake) * 2 ^ 50 + b2n w.refLocal * 2 ^ 49 + w.domains.toNat * 2 ^ 32 + w.tolUs.toNat)
  else if o = 0x88 then BitVec.ofNat 64 (w.measured.toNat * 2 ^ 32 + w.capW.toNat)
  else if o = 0x90 then w.timebase
  else if o = 0x98 then w.tick
  else if o ≤ 0xB8 then tabGetD w.alarms ((o - 0xA0) / 8) 0
  else if o = 0xC0 then
    BitVec.ofNat 64 (b2n w.vinOut * 2 ^ 63 + b2n w.dieHot * 2 ^ 62 + b2n w.leakNow * 2 ^ 61 + b2n w.wakeIn * 2 ^ 60 + w.seen.toNat * 2 ^ 52 + w.wakeCause.toNat * 2 ^ 40 + w.vin10mv.toNat * 2 ^ 16)
  else if o = 0xC8 then w.wakeMask.setWidth 64
  else if o = 0xD0 then w.throttleNs
  else if o = 0xD8 then w.energyMj
  else if o = 0xE0 then
    BitVec.ofNat 64 (s.mod.lifecycle.toNat * 2 ^ 62 + b2n s.mod.otherBad * 2 ^ 61 + b2n s.mod.sealReset * 2 ^ 60 + s.mod.sessions * 2 ^ 48 + s.mod.fwSvn.toNat * 2 ^ 32 + s.mod.svnMin.toNat * 2 ^ 16)
  else if o = 0xE8 then sbPinStatus s.mod
  else if o = 0xF0 then
    BitVec.ofNat 64 (b2n s.mod.alert * 2 ^ 63 + b2n s.mod.alertSeen * 2 ^ 62 + s.mod.tjMax.toNat * 2 ^ 48 + s.mod.hotDie.toNat * 2 ^ 45 + s.mod.inlet.toNat * 2 ^ 24 + s.mod.outlet.toNat * 2 ^ 16 + s.mod.psi.toNat)
  else if o = 0xF8 then BitVec.ofNat 64 (b2n s.mod.ilimit * 2 ^ 63 + b2n s.mod.ilimitSeen * 2 ^ 62 + b2n s.mod.pwrGood * 2 ^ 61 + s.mod.iin.toNat * 2 ^ 32 + s.mod.vinSns.toNat * 2 ^ 16)
  else if o < 0x200 then smGet s.iod.ctrs o
  else if o < 0x300 then fabPortValue s ((o - 0x200) / 8)
  else if o < 0x600 then smGet (tabGetD s.fab.ports ((o - 0x300) / 32) {}).sent ((o - 0x300) / 8 % 4)
  else tabGetD s.mod.lanes ((o - 0x600) / 8) 0
/-- A ring register (R295-R306). -/
def ringValue (s : State) (n o : Nat) : Word64 :=
  let x := getRing s n
  if o = 0 then setBits x.cfg 60 59 (ringLevel s n)
  else if o = 8 then x.base
  else if o = 0x10 then BitVec.ofNat 64 (x.head.toNat * 2 ^ 16 + x.tail.toNat)
  else if o = 0x18 then x.int
  else if o = 0x20 then x.status
  else x.count
/-- A partition register or counter (R190, R195, R225, R259, R260, R281, R286, R422, R440); of a partition that does not
exist, its reset value (R284). -/
def partValue (s : State) (p o : Nat) : Word64 :=
  match getPart? s p with
  | none => if o = 0x008 then 0x0C1840 else if o = 0x010 then 0xFFFF else if o = 0x018 then 0x000003F0000003E8 else if o = 0x028 then 0x7D0 else if o = 0x040 then 2 else 0
  | some x =>
    if o = 0x000 then BitVec.ofNat 64 (2 ^ 63 + b2n x.image.isSome * 2 ^ 62 + p * 2 ^ 56 + tileCount x * 2 ^ 48 + x.tenants.length * 2 ^ 32 + x.keyGen.toNat)
    else if o = 0x008 then x.regulator
    else if o = 0x010 then x.caddyWays
    else if o = 0x018 then x.schedCfg
    else if o = 0x020 then BitVec.ofNat 64 (x.poolPages.toNat * 2 ^ 32 + x.freePages.toNat)
    else if o = 0x028 then x.syncStatus
    else if o = 0x030 then x.hsTable
    else if o = 0x038 then (if Config.bar4Present then x.bar4Base else 0)
    else if o = 0x040 then
      BitVec.ofNat 64 (x.pstate * 2 ^ 61 + ((maskTiles x.tileMask).map (domainOf s)).dedup.length * 2 ^ 48 + exitUs s p x * 2 ^ 32 + x.tolUs.toNat)
    else if o = 0x048 then x.tileMask
    else smGet x.ctrs o
/-- PART_POUR_TGT (R339). -/
def targetValue (t : Target) : Word64 :=
  let st := match t.st with | .active => 1 | .waiting => 2 | .errored => 3
  BitVec.ofNat 64 (st * 2 ^ 62 + t.cause * 2 ^ 58 + t.port * 2 ^ 56 + b2n t.host * 2 ^ 55 + b2n t.moved * 2 ^ 54 + min t.retries 0xFF * 2 ^ 40 + t.produced / 64 % 2 ^ 40)
/-- FAB_GROUP_STATUS and FAB_GROUP_LAG (R359, R369). -/
def groupValue (g : Group) (lag : Bool) : Word64 :=
  let st := match g.st with | .forming => 1 | .active => 2 | .broken => 3
  if lag then BitVec.ofNat 64 (g.slowest * 2 ^ 52 + min g.slowestNs (2 ^ 48 - 1))
  else BitVec.ofNat 64 (st * 2 ^ 62 + b2n (g.rank = 0) * 2 ^ 61 + g.levelsUsed.toNat * 2 ^ 58 + g.list.members * 2 ^ 32 + g.rank * 2 ^ 16 + g.brokenRank.toNat)
/-- TILE_CTX_STATUS (R224). -/
def ctxStatus (x : Tile) : Word64 :=
  let st := fun (c : CtxState) => match c with | .idle => 0 | .running => 1 | .waiting => 2 | .ended => 3
  BitVec.ofNat 64 (((List.range 4).map (fun c => let k := getCtx x c; (st k.st * 2 ^ 14 + (if k.st = .waiting then k.cause * 2 ^ 10 + k.object else 0)) * 2 ^ (16 * c))).sum)
/-- A tile register or counter (R88, R154, R155, R162, R224, R226). -/
def tileValue (x : Tile) (o : Nat) : Word64 :=
  if o = 0 then x.errStatus
  else if o = 8 then x.excStatus
  else if o = 0x10 then x.excInfo
  else if o = 0x18 then setBit x.spadStatus 61 (x.poison ≠ [])
  else if o = 0x20 then ctxStatus x
  else smGet x.ctrs o
/-- What a register reads; a group that is FREE reads its registers' reset values (R284, R359). -/
def regValue (s : State) (fn : Nat) : Reg → Word64
  | .dev k => devValue s fn k
  | .errAccess => (getFunc s fn).errAccess
  | .fwBacklog => backlogValue s
  | .glob o => globValue s o
  | .ring n o => ringValue s n o
  | .part p o => partValue s p o
  | .target p k => match (getPart? s p).bind (fun x => tabGet? k x.targets) with | some t => targetValue t | none => 0
  | .group _ g lag => match tabGet? g s.fab.groups with | some q => groupValue q lag | none => if lag then 0 else 0xFFFF
  | .tile t o => tileValue (getTile s t) o

/-- The 64-bit counters (R76, R197, R226, R261, R282, R290, R339, R356, R402, R421). -/
def regCounter : Reg → Bool
  | .glob o => (decide (0x48 ≤ o) && decide (o ≤ 0x60)) || o = 0x90 || o = 0x98 || o = 0xD0 || o = 0xD8 || (decide (0x100 ≤ o) && decide (o ≤ 0x120)) || (decide (0x300 ≤ o) && decide (o < 0x600))
  | .ring _ o => o = 0x28
  | .part _ o => decide (0x100 ≤ o)
  | .tile _ o => decide (0x40 ≤ o)
  | _ => false
/-- Registers marked paired (R259, R281, R286, R297, R421). -/
def regPaired : Reg → Bool
  | .ring _ o => o = 0 || o = 8
  | .part _ o => o = 0x018 || o = 0x030 || o = 0x038
  | .glob o => decide (0xA0 ≤ o) && decide (o ≤ 0xB8)
  | _ => false
/-- The kind under which a function's write to a register is turned away whole, if it is: 4 for a read-only register or view,
5 for a locked one, 6 for PART_BAR4_BASE without BAR4 (R285, R286, R291, R297). -/
def regBarred (s : State) (fn : Nat) : Reg → Option Nat
  | .dev _ => some 4
  | .errAccess => none
  | .fwBacklog => none
  | .glob o => if [0x28, 0x30, 0x38, 0xA0, 0xA8, 0xB0, 0xB8, 0xC0, 0xC8, 0xE0, 0xE8, 0xF0, 0xF8].contains o || (decide (0x200 ≤ o) && decide (o < 0x300)) then none else some 4
  | .ring n o => if (fn = 0 ∧ 2 ≤ n) ∨ o = 0x10 ∨ o = 0x28 then some 4 else none
  | .part p o =>
    if fn = 0 ∨ (getPart? s p).isNone then some 4
    else if o = 0x008 ∨ o = 0x010 then some 5
    else if o = 0x038 ∧ !Config.bar4Present then some 6
    else if o = 0x018 ∨ o = 0x028 ∨ o = 0x030 ∨ o = 0x038 then none else some 4
  | .target p _ => if fn = 0 ∨ (getPart? s p).isNone then some 4 else none
  | .group _ _ _ => some 4
  | .tile _ o => if fn = 0 then some 4 else if o = 0 ∨ o = 8 ∨ o = 0x18 then none else some 4

/-- An interrupt of a ring is sent, or kept pending while its vector is masked (R306, R343): it signals every completion
written so far. -/
def raiseInt (s : State) (n : Nat) : State :=
  let fn := ringFunc s (if n < 8192 then n else n - 8192)
  let v := bits (getRing s n).int 42 32
  let f := getFunc s fn
  let s := modRing s n (fun x => { x with unsignalled := 0, intDue := false })
  if f.fnMask ∨ f.masked.contains v then modFunc s fn (fun f => { f with pend := if f.pend.contains v then f.pend else f.pend ++ [v] })
  else emit s (.interrupt fn v)
/-- MASK is 0, and COUNT completions or the final one of a command with FLAGS.INT are unsignalled (R306). -/
def settleInt (s : State) (n : Nat) : State :=
  let x := getRing s n
  if !bit x.int 63 ∧ (x.intDue ∨ (0 < x.unsignalled ∧ max 1 (bits x.int 31 24) ≤ x.unsignalled)) then raiseInt s n else s
/-- Ring state is mirrored on every change (R375). -/
def mirrorRing (s : State) (n : Nat) : State :=
  if 8192 ≤ n then s
  else
    let x := getRing s n
    if ringIsCpl x then mirror s (.ringState n x.cfg x.base x.int x.tail x.head) else mirror s (.ringState n x.cfg x.base x.int x.head x.tail)

/-- Writable bits of RING_CFG: all but LEVEL, bit 26 and bits 11:0 (R297). -/
def cfgMask : Word64 := 0xE7FFFFFFFBFFF000
/-- ENABLE may be set with this configuration (R295, R297): a submission ring is no completion ring of its own. -/
def enableOk (s : State) (fn n : Nat) (v : Word64) : Bool :=
  let o := ringFirst s fn
  let idx := n - o
  let lvl := ringLevel s n
  let quota := if fn = 0 then 2 else ringsShown s fn
  let units := if fn = 0 then 128 else match getPart? s (fn - 1) with | some x => x.pushUnits | none => 0
  let sub := !bit v 62
  let size := 32 * 2 ^ bits v 58 56
  (!sub || (List.range (bits v 43 40 + 1)).all (fun k => let c := bits v 39 27 + k; decide (c < quota) && decide (c ≠ idx) && ringIsCpl (getRing s (o + c)))) &&
  (!(sub && bit v 61) || decide (bits v 25 12 * 2048 + 64 * size ≤ units * 2048)) &&
  (lvl ≠ 0 || (match getPart? s (fn - 1) with | some x => (tabGet? (bits v 55 44) x.tenants).isSome | none => false)) &&
  (lvl = 0 || (if idx = 0 then sub else !sub))
/-- A write of RING_CFG (R297): enabling zeroes RING_PTR; a refused ENABLE leaves the bit 0. -/
def writeRingCfg (s : State) (fn n : Nat) (v : Word64) (off : Nat) : State :=
  let x := getRing s n
  let v := v &&& cfgMask
  if ringEnabled x then
    if (v ^^^ x.cfg) &&& 0x7FFFFFFFFFFFFFFF ≠ 0 then errAccess s fn 6 0 off
    else mirrorRing (modRing s n (fun x => { x with cfg := v })) n
  else if bit v 63 then
    if enableOk s fn n v then mirrorRing (modRing s n (fun x => { x with cfg := v, head := 0, tail := 0, live := [], unread := [], unsignalled := 0, intDue := false })) n
    else errAccess (mirrorRing (modRing s n (fun x => { x with cfg := setBit v 63 false })) n) fn 6 0 off
  else mirrorRing (modRing s n (fun x => { x with cfg := v })) n
/-- A write of a ring register other than RING_CFG (R297, R300, R306). -/
def writeRing (s : State) (fn n o : Nat) (mask v : Word64) (off : Nat) : State :=
  if o = 0 then writeRingCfg s fn n v off
  else if o = 8 then (if v &&& 0xFFF ≠ 0 then errAccess s fn 6 0 off else mirrorRing (modRing s n (fun x => { x with base := v })) n)
  else if o = 0x18 then
    let m : Word64 := mask &&& 0x800007FFFFFFFFFF
    settleInt (mirrorRing (modRing s n (fun x => { x with int := (x.int &&& ~~~m) ||| (v &&& m) })) n) n
  else modRing s n (fun x => { x with status := x.status &&& ~~~(v &&& mask) })

/-- A pair-owned register takes its value (R393). -/
def putPairReg (s : State) (p o : Nat) (v : Word64) : State :=
  modPart s p (fun x => if o = 0x018 then { x with schedCfg := v &&& 0x0000FFF0FFFFFFFF } else { x with hsTable := v })
/-- A write of a pair-owned register waits on a mirroring pair for its confirmation (R375, R393). -/
def writePairReg (s : State) (p o : Nat) (v : Word64) : State :=
  match sendDelta s (.pairReg p o v) with
  | (s, none) => putPairReg s p o v
  | (s, some n) => { s with pair := { s.pair with pairWrites := s.pair.pairWrites ++ [(n, p, o, v)] } }
/-- A write of a partition register by the partition's VF (R225, R259, R281, R286). -/
def writePart (s : State) (fn p o : Nat) (mask v : Word64) (off : Nat) : State :=
  if o = 0x018 then writePairReg s p o v
  else if o = 0x028 then modPart s p (fun x => { x with syncStatus := x.syncStatus &&& ~~~(v &&& mask &&& 0xC000000000000000) })
  else if o = 0x030 then (if v &&& 0xFF ≠ 0 then errAccess s fn 6 0 off else writePairReg s p o v)
  else modPart s p (fun x => { x with bar4Base := v &&& 0x0000FFFFC0000000 })
/-- A write of a tile's W1C bits (R88, R154, R162). -/
def writeTile (s : State) (t o : Nat) (mask v : Word64) : State :=
  modTile s t (fun x =>
    if o = 0 then { x with errStatus := x.errStatus &&& ~~~(v &&& mask &&& 0xE0) }
    else if o = 8 then { x with excStatus := x.excStatus &&& ~~~(v &&& mask &&& 0xC400000000000000) }
    else { x with spadStatus := x.spadStatus &&& ~~~(v &&& mask &&& 0xC000000000000000) })
/-- No port's two classes share a priority (R364). -/
def prioOk (a b : Word64) : Bool := (List.range 4).all (fun i => bits a (16 * i + 8) (16 * i + 6) ≠ bits b (16 * i + 8) (16 * i + 6))
/-- FAB_PORT_STATUS.FENCED is cleared (R354, R356). -/
def unfence (s : State) (p : Nat) : State :=
  { s with fab := { s.fab with ports := tabModify s.fab.ports p {} (fun q => { q with status := setBit q.status 62 false }) } }
/-- A write of a register of the global status block that has writable fields (R351, R354, R364, R421, R441, R468-R470). -/
def writeGlob (s : State) (o : Nat) (mask v : Word64) (off : Nat) : State :=
  let merge := fun (old m : Word64) => (old &&& ~~~(mask &&& m)) ||| (v &&& mask &&& m)
  let w1c := v &&& mask
  if o = 0x28 then
    let n := merge s.fab.vcWeight 0xFFFFFFFF
    if (List.range 4).any (fun i => bits n (8 * i + 7) (8 * i) = 0) then errAccess s 0 6 0 off else { s with fab := { s.fab with vcWeight := n } }
  else if o = 0x30 then
    let n := merge s.iod.pourTc 0x03FF03FF03FF03FF
    if prioOk n s.iod.collTc then { s with iod := { s.iod with pourTc := n } } else errAccess s 0 6 0 off
  else if o = 0x38 then
    let n := merge s.iod.collTc 0x03FF03FF03FF03FF
    if prioOk n s.iod.pourTc then { s with iod := { s.iod with collTc := n } } else errAccess s 0 6 0 off
  else if o ≤ 0xB8 then
    let i := (o - 0xA0) / 8
    let a := tabGetD s.pwr.alarms i 0
    let n := (v &&& 0xC000FFFFFFFFFFFF) ||| (a &&& 0x2000000000000000 &&& ~~~v)
    { s with pwr := { s.pwr with alarms := tabInsert i n s.pwr.alarms } }
  else if o = 0xC0 then { s with pwr := { s.pwr with seen := s.pwr.seen &&& ~~~(BitVec.ofNat 4 (bits w1c 55 52)) } }
  else if o = 0xC8 then
    if bit w1c 63 then (if offAllowed s then enterA5 s else errAccess s 0 6 0 off)
    else { s with pwr := { s.pwr with wakeMask := (merge (s.pwr.wakeMask.setWidth 64) 0xF).setWidth 4 } }
  else if o = 0xE0 then (if bit w1c 60 then { s with mod := { s.mod with sealReset := false } } else s)
  else if o = 0xE8 then { s with mod := { s.mod with pinSeen := s.mod.pinSeen &&& ~~~(w1c.setWidth 21) } }
  else if o = 0xF0 then (if bit w1c 62 then { s with mod := { s.mod with alertSeen := false } } else s)
  else if o = 0xF8 then (if bit w1c 62 then { s with mod := { s.mod with ilimitSeen := false } } else s)
  else if bit w1c 62 then unfence s ((o - 0x200) / 8) else s
/-- A write that was not turned away takes effect on the bytes it covers. A 32-bit write that covers only RO fields of a register with
writable ones changes nothing and is not logged (R6, R291; log entry 158). -/
def applyWrite (s : State) (fn : Nat) (r : Reg) (mask v : Word64) (off : Nat) : State :=
  match r with
  | .errAccess => modFunc s fn (fun f => { f with errAccess := f.errAccess &&& ~~~(v &&& mask &&& 0xC000000000000000) })
  | .fwBacklog =>
    if mask &&& 0xFFFF00000000 = 0 then s
    else (let n := bits v 47 32; if n < 16 ∨ 4096 < n then errAccess s fn 6 0 off else { s with fwLimit := BitVec.ofNat 16 n })
  | .glob o => writeGlob s o mask v off
  | .ring n o => writeRing s fn n o mask v off
  | .part p o => writePart s fn p o mask v off
  | .target p k => if bit (v &&& mask) 54 then modPart s p (fun x => match tabGet? k x.targets with
      | some t => { x with targets := tabInsert k { t with moved := false, retries := 0 } x.targets }
      | none => x) else s
  | .tile t o => writeTile s t o mask v
  | .dev _ => s
  | .group _ _ _ => s

/-- The host can reach a function: the link is up, and a VF is enabled (R283, R344, R412). -/
def hostReach (s : State) (fn : Nat) : Bool := s.mod.lifeStarted && decide (s.pwr.dev < 4) && (fn = 0 || (getFunc s fn).enabled)
def dropHeld (s : State) (fn off : Nat) : State := modFunc s fn (fun f => { f with heldLow := smSet f.heldLow off 0 })
/-- A register write, by its byte enables (R287-R289, R291, R292). -/
def regWrite (s : State) (fn off : Nat) (be : BitVec 8) (v : Word64) : State :=
  let off := off / 8 * 8
  if be = 0 then s
  else
    let first := off + ((List.range 8).find? (fun i => be.getLsbD i)).getD 0
    match regAt s fn off with
    | none => errAccess s fn 2 0 first
    | some r =>
      if be ≠ 0xFF ∧ be ≠ 0x0F ∧ be ≠ 0xF0 then errAccess s fn 3 0 first
      else match regBarred s fn r with
        | some k => errAccess s fn k 0 first
        | none =>
          let lo : Word64 := 0xFFFFFFFF
          if regPaired r then
            if be = 0xFF then applyWrite (dropHeld s fn off) fn r (BitVec.allOnes 64) v first
            else if be = 0x0F then modFunc s fn (fun f => { f with heldLow := smSet f.heldLow off (BitVec.ofNat 33 (2 ^ 32 + (v &&& lo).toNat)) })
            else
              let held := smGet (getFunc s fn).heldLow off
              let low : Word64 := if held.getLsbD 32 then (held.setWidth 32 : Word32).setWidth 64 else regValue s fn r &&& lo
              applyWrite (dropHeld s fn off) fn r (BitVec.allOnes 64) ((v &&& ~~~lo) ||| low) first
          else applyWrite s fn r (if be = 0xFF then BitVec.allOnes 64 else if be = 0x0F then lo else ~~~lo) v first

/-- The parts of an access of up to 8 bytes from a byte offset on that lie in the register there and in the next one (R287): offset of
the register, byte enables. -/
def busParts (offset : Nat) (be : BitVec 8) : List (Nat × BitVec 8) :=
  [(offset / 8 * 8, be <<< (offset % 8)), (offset / 8 * 8 + 8, be >>> (8 - offset % 8))]
/-- A write to a register, classified by its byte enables; one that crosses a 64-bit boundary is split there (R287). -/
def execRegisterWrite (fn : Fin 65) (offset : Nat) (be : BitVec 8) (v : Word64) (s : State) : Res :=
  let k := offset % 8
  .next (if hostReach s fn then regWrite (regWrite s fn (offset / 8 * 8) (be <<< k) (v <<< (8 * k))) fn (offset / 8 * 8 + 8) (be >>> (8 - k)) (v >>> (8 * (8 - k))) else s)
/-- RING_CFG is written whole with ENABLE set (R297). -/
def execRingEnable (fn : Fin 65) (index : Nat) (v : Word64) (s : State) : Res :=
  .next (if hostReach s fn ∧ bit v 63 then regWrite s fn (0x100000 + 64 * index) 0xFF v else s)
/-- RING_CFG is written whole with ENABLE clear (R297). -/
def execRingDisable (fn : Fin 65) (index : Nat) (v : Word64) (s : State) : Res :=
  .next (if hostReach s fn ∧ !bit v 63 then regWrite s fn (0x100000 + 64 * index) 0xFF v else s)
/-- The low half of a paired register is written alone (R289). -/
def execPairedLowWrite (fn : Fin 65) (offset : Nat) (v : Word32) (s : State) : Res :=
  match regAt s fn offset with
  | some r => .next (if hostReach s fn ∧ regPaired r then regWrite s fn offset 0x0F (v.setWidth 64) else s)
  | none => .next s
/-- 1 is written to FAB_PORT_STATUS.FENCED by the PF (R354, R356). -/
def execPortUnfence (port : Fin 18) (s : State) : Res :=
  .next (if hostReach s 0 then regWrite s 0 (0x10200 + 8 * port.val) 0xFF 0x4000000000000000 else s)
/-- 1 is written to KETTLE_CTL.OFF by the PF, in a write of the high half alone (R410, R421). -/
def execKettleOff (s : State) : Res := .next (if hostReach s 0 then regWrite s 0 0x100C8 0xF0 0x8000000000000000 else s)

/-- A 32-bit read of a counter (R290): the low half leaves a snapshot of the high half, which the next read of the high half
returns and ends. -/
def counterRead (s : State) (fn off : Nat) (r : Reg) (high : Bool) : State :=
  let v := regValue s fn r
  if !high then
    modFunc (emit s (.readData fn 0 off (v &&& 0xFFFFFFFF))) fn (fun f => { f with snaps := smSet f.snaps off (BitVec.ofNat 33 (2 ^ 32 + (v >>> 32).toNat)) })
  else
    let snap := smGet (getFunc s fn).snaps off
    let hi : Word64 := if snap.getLsbD 32 then (snap.setWidth 32 : Word32).setWidth 64 else v >>> 32
    modFunc (emit s (.readData fn 0 (off + 4) hi)) fn (fun f => { f with snaps := smSet f.snaps off 0 })
/-- A 32-bit read of a counter: of the low half, or of the high half where the offset names it (R290). -/
def execCounterLowRead (fn : Fin 65) (offset : Nat) (s : State) : Res :=
  if !hostReach s fn then .next s
  else
    let off := offset / 8 * 8
    match regAt s fn off with
    | none => .next s
    | some r => .next (if regCounter r then counterRead s fn off r (decide (4 ≤ offset % 8)) else s)
/-- First enabled byte. -/
def firstByte (be : BitVec 8) : Nat := ((List.range 8).find? (fun i => be.getLsbD i)).getD 0
/-- The bytes a narrow read returns (R288), with zeros at the others. -/
def beMask (be : BitVec 8) : Word64 := BitVec.ofNat 64 (((List.range 8).map (fun i => if be.getLsbD i then 0xFF * 2 ^ (8 * i) else 0)).sum)
/-- A read of what lies at one register's offset in BAR0 (R287, R288, R290, R292): an unmapped offset reads 0 and is logged; a narrow
read has no side effect. -/
def regRead (s : State) (fn off : Nat) (be : BitVec 8) : State :=
  if be = 0 then s
  else match regAt s fn off with
    | none => errAccess (emit s (.readData fn 0 (off + firstByte be) 0)) fn 1 0 (off + firstByte be)
    | some r =>
      if be = 0xFF then emit s (.readData fn 0 off (regValue s fn r))
      else if (be = 0x0F ∨ be = 0xF0) ∧ regCounter r then counterRead s fn off r (be = 0xF0)
      else emit s (.readData fn 0 (off + firstByte be) ((regValue s fn r &&& beMask be) >>> (8 * firstByte be)))

/-- First byte and length of a function's part of the push memory (R299). -/
def pushPart (s : State) (fn : Nat) : Nat × Nat :=
  if fn = 0 then (0, 128 * 2048) else match getPart? s (fn - 1) with | some x => (x.pushBase * 2048, x.pushUnits * 2048) | none => (0, 0)
/-- Whether a doorbell lies at an offset of BAR2 (R298, R386): of a ring by number or index, or of one of the partner's. -/
def doorbellHere (s : State) (fn off : Nat) : Bool := decide (off % 0x800000 / 8 < ringsShown s fn)
/-- A read of BAR2 (R292, R298, R299): doorbells read 0, push memory its bytes; elsewhere 0, which is logged. -/
def bar2Read (s : State) (fn off : Nat) (be : BitVec 8) : State :=
  if be = 0 then s
  else
    let at_ := off + firstByte be
    if off < 0x1000000 then
      if doorbellHere s fn off then emit s (.readData fn 1 at_ 0) else errAccess (emit s (.readData fn 1 at_ 0)) fn 1 1 at_
    else
      let (base, len) := pushPart s fn
      let inPart := fun (i : Nat) => s.ready && decide (off + i - 0x1000000 < len)
      let v := BitVec.ofNat 64 (bytesToNat ((List.range 8).map (fun i => if be.getLsbD i && inPart i then smGet s.push (base + (off + i - 0x1000000)) else 0)))
      let s := emit s (.readData fn 1 at_ (v >>> (8 * firstByte be)))
      match (List.range 8).find? (fun i => be.getLsbD i && !inPart i) with
      | some i => errAccess s fn 1 1 (off + i)
      | none => s
/-- A read of BAR0 or BAR2, split at 64-bit boundaries and classified by its byte enables (R287, R288, R290, R292, R298, R299): an
unmapped offset reads 0 and is logged. -/
def execUnmappedRead (fn : Fin 65) (r : WindowRead) (s : State) : Res :=
  .next (if hostReach s fn then (busParts r.offset r.be).foldl (fun s q => if r.bar2 then bar2Read s fn q.1 q.2 else regRead s fn q.1 q.2) s else s)

/-- A BAR4 read (R286): bytes past the share read zero and are logged. -/
def bar4Read (s : State) (vf p : Nat) (x : Part) (a off : Nat) (be : List Bool) : State :=
  let share := x.dramPages * 262144
  let ok := fun (i : Nat) => decide (a + i < share)
  let n := min be.length (share - a)
  let s := emit (if n = 0 then s else caddyRead s p .rm false [(a, n)]) (.readBytes vf off (be.mapIdx (fun i e => if e && ok i then smGet x.mem (a + i) else 0)))
  match (List.range be.length).find? (fun i => be.getD i false && !ok i) with
  | some i => errAccess s vf 7 2 (off + i)
  | none => s
/-- A BAR4 write (R286): bytes past the share or into the image are dropped and logged. -/
def bar4Write (s : State) (vf p : Nat) (x : Part) (a off : Nat) (be : List Bool) (b : List Byte) : State :=
  let share := x.dramPages * 262144
  let size := match x.image with | some img => img.size | none => 0
  let ok := fun (i : Nat) => decide (a + i < share) && !(decide (x.imageBase ≤ a + i) && decide (a + i < x.imageBase + size))
  let l := (be.mapIdx (fun i e => if e && ok i then some (b.getD i 0) else none)).take (share - a)
  let s := if l.any Option.isSome then memWrite s p .rm false [(a, l.length)] l else s
  match (List.range be.length).find? (fun i => be.getD i false && !ok i) with
  | some i => errAccess s vf 7 2 (off + i)
  | none => s
/-- A host access through BAR4, of any width, with byte enables (R286, R412, R435). It waits for the remote class's credit (R190). -/
def execBar4Access (vf : Fin 64) (offset : Nat) (be : List Bool) (write : Option (List Byte)) (s : State) : Res :=
  let fn := vf.val + 1
  if !hostReach s fn ∨ !Config.bar4Present ∨ 2 ^ 36 < offset + be.length then .next s
  else
    let s := wakeDevice s 6
    match getPart? s vf, write with
    | none, none => .next (errAccess (emit s (.readBytes fn offset (be.map (fun _ => 0)))) fn 1 2 offset)
    | none, some _ => .next (errAccess s fn 2 2 offset)
    | some x, w =>
      if !creditOk s vf .rm then .next (waitCredit s vf .rm)
      else
        let a := bits x.bar4Base 47 30 * 2 ^ 30 + offset
        .next (match w with | none => bar4Read s fn vf x a offset be | some b => bar4Write s fn vf x a offset be b)

end Sys2Proof.Machine
end

