-- ==== Sys2Proof/Machine/Rings.lean ====
section
/-! DEFINITION. Rings.lean: doorbells, push memory, pull fetches, completions and interrupts (R298-R306, R309, R343, R384,
R386, R412). -/

namespace Sys2Proof.Machine

open Sys2Proof

/-- Where entry `i` of a push ring lies in its function's part (R299). -/
def pushAt (x : Ring) (i : Nat) : Nat := bits x.cfg 25 12 * 2048 + 64 * (i % ringSize x)
/-- The entry in push memory (R299). -/
def pushEntry (s : State) (fn : Nat) (x : Ring) (i : Nat) : BitVec 512 := readLE s.push ((pushPart s fn).1 + pushAt x i) 64 512
/-- A push-mode submission ring in service. -/
def pushRing (x : Ring) : Bool := ringEnabled x && !ringIsCpl x && bit x.cfg 61
/-- The ring whose live entry holds a byte of a function's part, if any (R301). -/
def liveAt (s : State) (fn a : Nat) : Option Nat :=
  let first := ringFirst s fn
  let n := if fn = 0 then 2 else ringsShown s fn
  ((s.rings.filter (fun q => decide (first ≤ q.1) && decide (q.1 < first + n) && pushRing q.2)).find? (fun q =>
    (List.range (q.2.tail - q.2.head).toNat).any (fun k => let b := pushAt q.2 (q.2.head.toNat + k); decide (b ≤ a) && decide (a < b + 64)))).map Prod.fst

/-- A dropped doorbell (R300). -/
def badDoorbell (s : State) (fn off : Nat) (ring : Option Nat) : State :=
  let s := errAccess s fn 8 1 off
  match ring with
  | some n => modRing s n (fun x => { x with status := setBit x.status 63 true })
  | none => s
/-- Completions the host has taken are left out. -/
def keepWritten (host : BitVec 16) (l : List (BitVec 16 × Completion)) : List (BitVec 16 × Completion) := l.filter (fun q => decide ((q.1 - host).toNat < 32768))
/-- A new TAIL or HEAD is taken (R298-R300). -/
def takeDoorbell (s : State) (fn n off : Nat) (v : BitVec 16) : State :=
  let x := getRing s n
  if !ringEnabled x then badDoorbell s fn off (some n)
  else if ringIsCpl x then
    if (x.tail - x.head).toNat < (v - x.head).toNat then badDoorbell s fn off (some n)
    else mirrorRing (modRing s n (fun x => { x with head := v, unread := keepWritten v x.unread })) n
  else if ringSize x < (v - x.head).toNat ∨ (v - x.head).toNat < (x.tail - x.head).toNat then badDoorbell s fn off (some n)
  else
    let new := if bit x.cfg 61 then (List.range (v - x.tail).toNat).map (fun k => pushEntry s fn x (x.tail.toNat + k)) else []
    mirrorRing (modRing s n (fun x => { x with tail := v, live := x.live ++ new })) n
/-- The ring a doorbell offset names: the function's own rings, and from 0x80_0000 on the partner's adopted completion rings
(R298, R386). -/
def doorbellRing (s : State) (fn off : Nat) : Option Nat :=
  let shown := if fn = 0 then 2 else ringsShown s fn
  if off < 0x800000 then (if off / 8 < shown then some (ringFirst s fn + off / 8) else none)
  else
    let n := ringFirst s fn + (off - 0x800000) / 8
    if (off - 0x800000) / 8 < shown ∧ (tabGet? n s.pair.adopted).isSome then some (8192 + n) else none
/-- What a write does to the doorbell at an offset (R287, R288, R292, R298, R300): in A3 it starts the exit (R412). -/
def doorbellPart (s : State) (fn off : Nat) (be : BitVec 8) (v : Word64) : State :=
  if be = 0 then s
  else if !doorbellHere s fn off then errAccess s fn 2 1 (off + firstByte be)
  else if be ≠ 0xFF ∧ be ≠ 0x0F ∧ be ≠ 0xF0 then errAccess s fn 3 1 (off + firstByte be)
  else if !s.ready then badDoorbell s fn off (doorbellRing s fn off)
  else
    let s := wakeDevice s 6
    match doorbellRing s fn off with
    | none => badDoorbell s fn off none
    | some n =>
      if be = 0xF0 then badDoorbell s fn (off + 4) (some n)
      else if bits v (if be = 0xFF then 63 else 31) 16 ≠ 0 then s
      else takeDoorbell s fn n off (v.setWidth 16)
/-- A doorbell write (R298, R300, R412), split where it crosses a 64-bit boundary (R287). -/
def execDoorbellWrite (fn : Fin 65) (offset : Nat) (be : BitVec 8) (v : Word64) (s : State) : Res :=
  if !hostReach s fn ∨ 0x1000000 ≤ offset then .next s
  else
    let k := offset % 8
    .next (doorbellPart (doorbellPart s fn (offset / 8 * 8) (be <<< k) (v <<< (8 * k))) fn (offset / 8 * 8 + 8) (be >>> (8 - k)) (v >>> (8 * (8 - k))))

/-- A host write into push memory: bytes of live entries are dropped (R299, R301). -/
def execPushWrite (fn : Fin 65) (offset : Nat) (bytes : List Byte) (s : State) : Res :=
  if !hostReach s fn ∨ offset < 0x1000000 ∨ bytes = [] then .next s
  else
    let a := offset - 0x1000000
    let (base, len) := pushPart s fn
    let inPart := if s.ready then bytes.take (len - a) else []
    let s := if inPart.length < bytes.length then errAccess s fn 2 1 (offset + inPart.length) else s
    let hit := fun (i : Nat) => liveAt s fn (a + i)
    let push := (inPart.mapIdx (fun i b => (i, b))).foldl (fun m q => if (hit q.1).isSome then m else smSet m (base + a + q.1) q.2) s.push
    let s' := { s with push := push }
    let rings := ((List.range inPart.length).filterMap hit).dedup
    let s' := rings.foldl (fun s n => modRing s n (fun x => { x with status := setBit x.status 62 true })) s'
    .next (match (List.range inPart.length).find? (fun i => (hit i).isSome) with
      | some i => errAccess s' fn 9 1 (offset + i)
      | none => s')

/-- A failed fetch or completion write disables the ring (R299, R303, R386). -/
def fetchError (s : State) (n : Nat) : State :=
  mirrorRing (modRing s n (fun x => { x with status := setBit x.status 60 true, cfg := if n < 8192 then setBit x.cfg 63 false else x.cfg })) n
/-- Where the entries that a read of `n` entries fetches lie in host memory (R299). -/
def pullReads (s : State) (ring n : Nat) : List Out :=
  let x := getRing s ring
  (List.range n).map (fun k => .hostRead (ringFunc s ring) (x.base + BitVec.ofNat 64 (64 * ((x.head.toNat + x.live.length + k) % ringSize x))) 64)
/-- A pull-mode read of up to 8 entries returns (R299). -/
def execPullFetchDone (ring : Nat) (entries : Option (List (BitVec 512))) (s : State) : Res :=
  let x := getRing s ring
  if Config.rings ≤ ring ∨ !deviceUp s ∨ !ringEnabled x ∨ ringIsCpl x ∨ bit x.cfg 61 then .next s
  else
    let left := (x.tail - x.head).toNat - x.live.length
    match entries with
    | none => .next (if left = 0 then s else fetchError (emits s (pullReads s ring (min 8 left))) ring)
    | some l => .next (if l = [] ∨ 8 < l.length ∨ left < l.length then s else modRing (emits s (pullReads s ring l.length)) ring (fun x => { x with live := x.live ++ l }))

/-- The 32 bytes of a completion written at count `c` of a ring of `size` entries (R304, R309). -/
def cplBytes (c : Completion) (count size : Nat) : List Byte :=
  let phase := 1 - count / size % 2
  natToBytes 4 c.seq.toNat ++ natToBytes 2 c.status.toNat ++ natToBytes 2 (phase * 2 ^ 15 + b2n c.final * 2 ^ 14 + b2n c.event * 2 ^ 13 + b2n c.degraded * 2 ^ 12 + c.detail.toNat * 2 ^ 8)
    ++ natToBytes 8 c.handle.toNat ++ natToBytes 16 c.result.toNat
/-- A request whose final completion has been written leaves the table (R237, R305). -/
def releaseEntry (s : State) (ring : Nat) (c : Completion) : State :=
  match s.table.find? (fun q => q.2.finalPosted && (q.2.st = .done || q.2.st = .failed) && q.2.f.seq = c.seq && q.2.f.handle = c.handle && decide (cplRing s (reqRing q.2) q.2.f.cls.toNat = ring)) with
  | none => s
  | some (i, e) =>
    let s := (orphanFlights s (entryPart e) i e).1
    idleAll (freeEntryAt s i)
/-- The oldest waiting completion of a ring is written, once its mirror delta is confirmed and the ring has room (R303-R306,
R376). -/
def execCompletionWrite (ring : Nat) (hostOk : Bool) (s : State) : Res :=
  let x := getRing s ring
  match x.waiting with
  | [] => .next s
  | (c, n) :: rest =>
    let held : Bool := match n with | some k => s.pair.sent.any (fun q => q.1 = k) | none => false
    if held ∨ !deviceUp s ∨ !ringEnabled x ∨ !ringIsCpl x then .next s
    else if ringSize x ≤ (x.tail - x.head).toNat then .next (modRing s ring (fun x => { x with status := setBit x.status 61 true }))
    else if !hostOk then .next (fetchError s ring)
    else
      let fn := ringFunc s (if ring < 8192 then ring else ring - 8192)
      let a := x.base + BitVec.ofNat 64 (32 * (x.tail.toNat % ringSize x))
      let s := emit s (.hostWrite fn a (cplBytes c x.tail.toNat (ringSize x)))
      let s := modRing s ring (fun x => { x with waiting := rest, unread := x.unread ++ [(x.tail, c)], tail := x.tail + 1, count := x.count + 1, unsignalled := x.unsignalled + 1, intDue := x.intDue || (c.final && c.int) })
      let s := settleInt s ring
      .next (if c.final then releaseEntry s ring c else s)

/-- The oldest unsignalled completion is TIME_NS old (R306). -/
def execInterruptAgeExpiry (ring : Nat) (s : State) : Res :=
  let x := getRing s ring
  .next (if !bit x.int 63 ∧ bits x.int 23 0 ≠ 0 ∧ 0 < x.unsignalled ∧ deviceUp s then raiseInt s ring else s)

end Sys2Proof.Machine
end

