-- ==== Sys2Proof/Machine/Pour.lean ====
section
/-! DEFINITION. Pour.lean: pour targets, records, commits, results and the pour ports (R15, R16, R18, R248, R315,
R322-R342, R473). -/

namespace Sys2Proof.Machine

open Sys2Proof

/-- Round up to a multiple of 64. -/
def pad64 (n : Nat) : Nat := (n + 63) / 64 * 64
/-- Bytes with zeros up to a multiple of 64. -/
def padBytes (l : List Byte) : List Byte := l ++ List.replicate (pad64 l.length - l.length) 0

/-- Kinds 1 to 3 hold positions; 4 and 5 a snapshot (R328). -/
def isState (g : SegLayout) : Bool := decide (4 ≤ g.kind.toNat)
/-- Blocks of a head (R328). -/
def headBlocks (g : SegLayout) : Nat := (g.dim + 31) / 32
/-- Element bytes of one head at one position, fillers included (R328). -/
def headBytes (g : SegLayout) : Nat := if isMx g.fmt.toNat then headBlocks g * 32 * elemBits g.fmt.toNat / 8 else g.dim * elemBits g.fmt.toNat / 8
/-- HEADS of a segment: 1 for latent KV and state (R328). -/
def segHeads (g : SegLayout) : Nat := if isState g ∨ g.kind = 3 then 1 else g.heads
/-- Bytes of the elements of `n` positions, then with the scale bytes (R328). -/
def elemPart (g : SegLayout) (n : Nat) : Nat := n * segHeads g * headBytes g
def segLen (g : SegLayout) (n : Nat) : Nat :=
  if isState g then g.stateLen else if isMx g.fmt.toNat then pad64 (elemPart g n) + n * segHeads g * headBlocks g else elemPart g n
/-- Where a position's data lies in its object's pages (log entry 7). -/
def segAt (g : SegLayout) (p h : Nat) : Nat := g.elemBase + p / g.blk * g.blkStride + p % g.blk * g.posStride + h * g.headStride
def scaleAt (g : SegLayout) (p h : Nat) : Nat := g.scaleBase + p / g.blk * g.blkStride + p % g.blk * g.scalePosStride + h * g.scaleHeadStride

/-- Pages of a job's position: the pin's below its length (R253, R329). -/
def pagesAt (j : PourJob) (p : Nat) : List Nat := if p < j.pinLen then j.pinPages else j.pages
/-- Bytes of an object's pages. -/
def objBytes (mem : SMap 8) (pages : List Nat) (off n : Nat) : List Byte :=
  match pageChunks pages off n with
  | some l => readChunks mem l
  | none => List.replicate n 0
/-- Elements of one head at one position, the fillers of a partial block zero (R328). -/
def headElems (mem : SMap 8) (j : PourJob) (g : SegLayout) (p h : Nat) : List Byte :=
  let b := objBytes mem (pagesAt j p) (segAt g p h) (headBytes g)
  natToBytes (headBytes g) (bytesToNat b % 2 ^ (g.dim * elemBits g.fmt.toNat))
/-- The leader itself holds a head (R360). -/
def headHere (g : SegLayout) (h : Nat) : Bool := g.ranks.getD h 0 = 0
/-- Bytes of a segment that a gather has brought (R360). -/
def farBytes (l : List Byte) (off n : Nat) : List Byte := let b := (l.drop off).take n; b ++ List.replicate (n - b.length) 0
/-- A segment of a record's positions (R328); `far` is the segment as the gathers bring it, for the heads other members hold (R360). -/
def segBytes (mem : SMap 8) (j : PourJob) (g : SegLayout) (first n : Nat) (far : List Byte) : List Byte :=
  if isState g then (if headHere g 0 then objBytes mem (pagesAt j (first + n - 1)) (segAt g (first + n - 1) 0) g.stateLen else farBytes far 0 g.stateLen)
  else
    let each := fun (f : Nat → Nat → List Byte) => (List.range n).flatMap (fun k => (List.range (segHeads g)).flatMap (fun h => f k h))
    let el := each (fun k h => if headHere g h then headElems mem j g (first + k) h else farBytes far ((k * segHeads g + h) * headBytes g) (headBytes g))
    if isMx g.fmt.toNat then
      padBytes el ++ each (fun k h =>
        if headHere g h then objBytes mem (pagesAt j (first + k)) (scaleAt g (first + k) h) (headBlocks g)
        else farBytes far (pad64 (elemPart g n) + (k * segHeads g + h) * headBlocks g) (headBlocks g))
    else el

/-- Segments of a layer in a run, in the order K, V, latent KV, state; state only in the run with the chunk's last position
(R328, R329). -/
def layerSegs (img : Image) (layer : Nat) (lastRun : Bool) : List SegLayout :=
  [1, 2, 3, 4, 5].flatMap (fun k => img.segs.filter (fun g => decide (g.layer = layer) && decide (g.kind.toNat = k) && (k ≤ 3 || lastRun)))
/-- One data record of a chunk: positions and layers (R329). -/
structure Cut where
  first : Nat
  count : Nat
  layers : List Nat
  last : Bool
  deriving DecidableEq, Repr
/-- Layers in groups of at most 4 MiB of segment bytes, never fewer than one (R329). -/
def groupLayers (size : Nat → Nat) : List Nat → List Nat → Nat → List (List Nat)
  | [], cur, _ => if cur = [] then [] else [cur]
  | l :: r, cur, n =>
    if cur = [] ∨ n + size l ≤ 4194304 then groupLayers size r (cur ++ [l]) (n + size l)
    else cur :: groupLayers size r [l] (size l)
/-- The data records of a chunk in REC_INDEX order (R329). -/
def cutChunk (img : Image) (first count : Nat) : List Cut :=
  let runs := ceilDiv count 512
  (List.range runs).flatMap (fun k =>
    let lo := first + 512 * k
    let n := min 512 (first + count - lo)
    let last := decide (k + 1 = runs)
    (groupLayers (fun l => ((layerSegs img l last).map (fun g => segLen g n)).sum) (List.range img.layers) [] 0).map (fun g => { first := lo, count := n, layers := g, last := last }))
/-- Segments of a record. -/
def cutSegs (img : Image) (c : Cut) : List SegLayout := c.layers.flatMap (fun l => layerSegs img l c.last)
/-- RECORD_LEN of a data record (R326). -/
def cutLen (img : Image) (c : Cut) : Nat := 64 + pad64 (16 * (cutSegs img c).length) + ((cutSegs img c).map (fun g => pad64 (segLen g c.count))).sum + 64
/-- The largest data record an image cuts (R315, R323): of a run that is not its chunk's last, or of a last one of any length (R329). -/
def largestRecord (img : Image) : Nat :=
  ((cutChunk img 0 1024 ++ (List.range 512).flatMap (fun n => cutChunk img 0 (n + 1))).map (cutLen img)).foldl max 0

/-- The 64-byte header of a record (R326). -/
def recHeader (p : Nat) (j : PourJob) (type fmt first count layer layers segs len idx : Nat) : List Byte :=
  let b := natToBytes
  b 4 0x5250514B ++ b 2 1 ++ b 1 type ++ b 1 fmt ++ b 8 j.f.handle.toNat ++ b 2 j.f.tenant.toNat ++ b 1 p ++ b 1 (b2n j.final.isSome + 2 * b2n j.headstart)
    ++ b 4 j.chunk ++ b 4 first ++ b 4 count ++ b 2 layer ++ b 2 layers ++ b 4 segs ++ b 4 len ++ b 4 idx ++ b 8 j.f.measurement.toNat ++ b 8 0
/-- ELEM_FMT of a data record (R326). -/
def recFmt (l : List SegLayout) : Nat :=
  match l.filter (fun g => !isState g) with
  | [] => 0xFF
  | g :: r => if r.all (fun q => q.fmt = g.fmt) then g.fmt.toNat else 0xFE
/-- Append the CRC of what precedes (R326, R327). -/
def withCrc (l : List Byte) : List Byte := l ++ natToBytes 4 (crc32c l).toNat
/-- Segment descriptors with their offsets (R328). -/
def segDescs (n : Nat) : List SegLayout → Nat → List Byte
  | [], _ => []
  | g :: r, off =>
    natToBytes 2 g.layer ++ [g.kind, g.fmt] ++ natToBytes 2 (segHeads g) ++ natToBytes 2 g.dim ++ natToBytes 4 off ++ natToBytes 4 (segLen g n)
      ++ segDescs n r (off + pad64 (segLen g n))
/-- A data record (R326-R329), with what the gathers bring of its segments (R360). -/
def dataRecord (mem : SMap 8) (p : Nat) (img : Image) (j : PourJob) (c : Cut) (idx : Nat) (far : List (List Byte)) : List Byte :=
  let segs := cutSegs img c
  withCrc (recHeader p j 1 (recFmt segs) c.first c.count (c.layers.headD 0) c.layers.length segs.length (cutLen img c) idx
    ++ padBytes (segDescs c.count segs (64 + pad64 (16 * segs.length)))
    ++ (segs.mapIdx (fun i g => padBytes (segBytes mem j g c.first c.count (far.getD i [])))).flatten ++ List.replicate 60 0)
/-- The commit record of a chunk (R331). -/
def commitRecord (p : Nat) (img : Image) (j : PourJob) (crcs : List Word32) : List Byte :=
  let toks := match j.final with | some (t, _) => t | none => []
  let stop : Byte := match j.final with | some (_, r) => r | none => 0
  withCrc (recHeader p j 2 0xFF j.first j.count 0 img.layers 0 448 0
    ++ natToBytes 4 crcs.length ++ natToBytes 4 (crc32c (crcs.flatMap (fun c => natToBytes 4 c.toNat))).toNat
    ++ natToBytes 4 (if j.final.isSome then cacheEnd j.f toks.length else 0) ++ natToBytes 1 toks.length ++ [stop] ++ List.replicate 50 0
    ++ toks.flatMap (fun t => natToBytes 4 t.toNat) ++ List.replicate (256 - 4 * toks.length) 0 ++ List.replicate 60 0)
/-- A pad record (R324, R326). -/
def padRecord (n : Nat) : List Byte :=
  withCrc (natToBytes 4 0x5250514B ++ natToBytes 2 1 ++ [3] ++ List.replicate 33 0 ++ natToBytes 4 n ++ List.replicate (n - 48) 0)

/-- A target of a partition. -/
def getTarget (s : State) (p k : Nat) : Option Target := (getPart? s p).bind (fun x => tabGet? k x.targets)
def modTarget (s : State) (p k : Nat) (f : Target → Target) : State :=
  modPart s p (fun x => match tabGet? k x.targets with | some t => { x with targets := tabInsert k (f t) x.targets } | none => x)

/-- CANCELLED is posted once no record of the request is in flight any more (R19). -/
def settleCancelled (s : State) (p : Nat) : State :=
  match getPart? s p with
  | none => s
  | some x =>
    let open_ := fun (m : Nat) => x.targets.any (fun q => q.2.flights.any (fun u => decide (u.entry = m)))
    let done := x.cancelled.filter (fun q => !open_ q.1)
    let s := setPart s p { x with cancelled := x.cancelled.filter (fun q => open_ q.1) }
    done.foldl (fun s q => postCancelled s q.2) s
/-- A live request names the target, for its chunks or for its result. -/
def names (e : Entry) (k : Nat) : Bool :=
  (e.f.kind = 0 && !e.f.isPin && decide (e.f.pourTarget.toNat = k)) || (resValid e.f.result && decide (resTarget e.f.result = k))
/-- What an ERRORED target keeps a request from: a chunk not committed, or its result (R338). -/
def owes (e : Entry) (k : Nat) : Bool :=
  e.st ≠ .pouring || e.f.kind ≠ 0 || decide (e.f.progress.toNat < totalChunks e) || (resValid e.f.result && decide (resTarget e.f.result = k))
/-- States in which a request still lives (R237). -/
def lives (e : Entry) : Bool := e.st ≠ .done && e.st ≠ .failed
/-- A target becomes ERRORED (R337, R338): nothing more is sent to it, and the live requests that need it fail. -/
def errTarget (s : State) (p k cause : Nat) : State :=
  match getTarget s p k with
  | none => s
  | some t =>
    if t.st = .errored then s
    else
      let s := modTarget s p k (fun t => { t with st := .errored, cause := cause, queue := [], flights := [], recIdx := 0, crcs := [], rnr := false })
      let hit := (entriesOf s p).filter (fun q => lives q.2 && q.2.st ≠ .cancelling && names q.2 k && owes q.2 k)
      let s := hit.foldl (fun s q => failRequest s q.1 stFAULT false) s
      let wait := s.pair.waitingEntries.filter (fun q => decide (q.2.partition.toNat = p) && names (entryFrom q.1 q.2 true true) k)
      let s := { s with pair := { s.pair with waitingEntries := s.pair.waitingEntries.filter (fun q => !wait.contains q) } }
      let s := wait.foldl (fun s q => postReq s (entryFrom q.1 q.2 true true) stFAULT true false 0 0) s
      let s := settleLent (settleCancelled s p) p
      idleAll (match getPart? s p with | some x => if x.phase = .none then settleIdle s p else s | none => s)

/-- Next record of a chunk: data, or the commit record after the last (R330). -/
def nextRecord (mem : SMap 8) (p : Nat) (img : Image) (t : Target) (j : PourJob) (far : List (List Byte)) : List Byte :=
  match (cutChunk img j.first j.count)[t.recIdx]? with
  | some c => dataRecord mem p img j c t.recIdx far
  | none => commitRecord p img j t.crcs
/-- Pad before a record of `n` bytes (R324). -/
def padBefore (t : Target) (len n : Nat) : Nat := let rem := len - t.pos % len; if rem < n then rem else 0
/-- Bytes sent to a target's region: by RDMA WRITE, or by a PCIe write under the partition's VF (R332, R341). -/
def sendBytes (s : State) (p k : Nat) (t : Target) (off : Nat) (b : List Byte) (imm : Option Word32) : State :=
  if t.host then emit s (.hostWrite (p + 1) (t.regionAddr + BitVec.ofNat 64 off) b) else emit s (.rdmaWrite p k t.port off b imm)
/-- The read of a target's control block: an RDMA READ, or a host read under the partition's VF (R323, R334, R341). -/
def blockRead (p k : Nat) (t : Target) : Out := if t.host then .hostRead (p + 1) t.regionAddr 64 else .rdmaRead p k t.port
/-- The gathers of a data record: K, V and state that other members hold, over VC1 (R360). -/
def cutGathers (p : Nat) (img : Image) (c : Cut) : List Out :=
  (cutSegs img c).flatMap (fun g => ((((List.range (segHeads g)).map (fun h => g.ranks.getD h 0)).filter (fun r => decide (r ≠ 0))).dedup).map (fun r => .gather p r g.layer g.kind c.first c.count))
/-- Memory of this module that a chunk's data record reads. -/
def cutReads (img : Image) (j : PourJob) (c : Cut) : List (Nat × Nat) :=
  (cutSegs img c).flatMap (fun g =>
    if isState g then (if headHere g 0 then (pageChunks (pagesAt j (c.first + c.count - 1)) (segAt g (c.first + c.count - 1) 0) g.stateLen).getD [] else [])
    else (List.range c.count).flatMap (fun k => ((List.range (segHeads g)).filter (headHere g)).flatMap (fun h =>
      (pageChunks (pagesAt j (c.first + k)) (segAt g (c.first + k) h) (headBytes g)).getD [])))
/-- The next record of the chunk at the front of a target's queue is written into the log, if it fits (R324, R326, R330,
R332, R341). -/
def writeRecord (s : State) (p k : Nat) (x : Part) (img : Image) (t : Target) (j : PourJob) (rest : List PourJob) (logOff len : Nat) (far : List (List Byte)) : State :=
  let cuts := cutChunk img j.first j.count
  let b := nextRecord x.mem p img t j far
  let n := b.length
  let pad := padBefore t len n
  if len < n then errTarget s p k 5
  else if !creditOk s p .rm ∧ t.recIdx < cuts.length then waitCredit s p .rm
  else if len < t.pos + pad + n - t.consumed then modTarget s p k (fun t => { t with st := .waiting })
  else
    let commit := decide (cuts.length ≤ t.recIdx)
    let s := if pad = 0 then s else sendBytes s p k t (logOff + t.pos % len) (padRecord pad) none
    let pos := t.pos + pad
    let s := sendBytes s p k t (logOff + pos % len) b (if commit ∧ !t.host then some (BitVec.ofNat 32 (pos / 64)) else none)
    let s := if commit ∧ t.host then emit (emit s (.hostWrite (p + 1) (t.regionAddr + 32) (natToBytes 8 (pos + n)))) (blockRead p k t) else s
    let s := match cuts[t.recIdx]? with | some c => caddyRead (emits s (cutGathers p img c)) p .rm false (cutReads img j c) | none => s
    let s := partCtr (partCtr s p 0x170 (pad + n)) p 0x178 (if pad = 0 then 1 else 2)
    let fl : Flight := { pos := pos, len := n, entry := j.entry, chunk := j.chunk, commit := commit, sent := now s }
    let s := modTarget s p k (fun t => { t with
      st := .active, pos := pos + n, produced := if commit then pos + n else t.produced, queue := if commit then rest else t.queue,
      recIdx := if commit then 0 else t.recIdx + 1, crcs := if commit then [] else t.crcs ++ [BitVec.ofNat 32 (bytesToNat (b.drop (n - 4)))],
      flights := t.flights ++ [fl] })
    if commit then idleCompose (settleLent s p) p else s
/-- The pour engine writes the next record of a target (R15, R324, R330): not before sampling, nor before the control block
has been read. `far` is what the gathers of the record's segments bring (R360). -/
def execPourRecordWrite (p : Fin 64) (tgt : Fin 1024) (input : RecordInput) (s : State) : Res :=
  match getPart? s p, getTarget s p tgt with
  | some x, some t =>
    if !deviceUp s ∨ t.st = .errored ∨ t.rnr then .next s
    else match x.image, t.queue with
      | some img, j :: rest =>
        if j.wait then .next s
        else match t.log with
          | none => .next (emit s (blockRead p tgt t))
          | some (o, len) => .next (if t.host ∧ !input.ok then errTarget s p tgt 7 else if !input.ok then s else writeRecord s p tgt x img t j rest o len input.far)
      | _, _ => .next s
  | _, _ => .next s
/-- A WAITING target's CONSUMED is read again (R324). -/
def execConsumedPoll (p : Fin 64) (tgt : Fin 1024) (s : State) : Res :=
  match getTarget s p tgt with
  | some t => .next (if t.st = .waiting ∧ deviceUp s then emit s (blockRead p tgt t) else s)
  | none => .next s

/-- The oldest commit in flight to a target is acknowledged (R15, R248, R339, R375). Where none is, the acknowledgement is of data
records alone (R19). PROGRESS only rises (R237). -/
def ackCommit (s : State) (p k : Nat) : State :=
  match getTarget s p k with
  | none => s
  | some t => match t.flights.find? (·.commit) with
    | none => if t.flights = [] then s else settleCancelled (modTarget s p k (fun t => { t with flights := [], tries := 0, triedPorts := [] })) p
    | some f =>
      let s := modTarget s p k (fun t => { t with flights := (t.flights.dropWhile (fun u => !u.commit)).drop 1, tries := 0, triedPorts := [] })
      let s := settleCancelled (partCtr s p 0x180 1) p
      match getEntry? s f.entry with
      | none => s
      | some e =>
        let n := BitVec.ofNat 14 (max e.f.progress.toNat (f.chunk + 1))
        let s := mirror s (.progress f.entry n)
        let e := { e with f := { e.f with progress := n } }
        let slow := decide (e.st = .pouring) && decide (totalChunks e ≤ f.chunk + 1) && decide (f.sent + 100000 < now s)
        tryDone (if slow then setEntryM s f.entry (delayed e 8) else setEntry s f.entry e) f.entry
/-- The commit's acknowledgement at the RC transport level (R15, R332). -/
def execCommitAck (p : Fin 64) (tgt : Fin 1024) (s : State) : Res :=
  match getTarget s p tgt with
  | some t => .next (if t.host ∨ t.st = .errored then s else ackCommit s p tgt)
  | none => .next s

/-- Fields of a control block (R323). -/
def cbField (b : BitVec 512) (off n : Nat) : Nat := (b.toNat >>> (8 * off)) % 2 ^ (8 * n)
/-- The first read of a control block passes (R323). -/
def cbOk (x : Part) (t : Target) (b : BitVec 512) : Bool :=
  let o := cbField b 8 8
  let n := cbField b 16 8
  decide (4096 ≤ o) && o % 4096 = 0 && n % 4096 = 0 && decide (16777216 ≤ n) && decide (o + n ≤ t.regionLen.toNat) &&
  cbField b 24 8 = 0 && cbField b 40 24 = 0 && (match x.image with | some img => decide (largestRecord img ≤ n) | none => true)
/-- A read of a target's control block returns (R323, R324, R333, R341). -/
def execControlBlockRead (p : Fin 64) (tgt : Fin 1024) (block : Option (BitVec 512)) (s : State) : Res :=
  match getPart? s p, getTarget s p tgt with
  | some x, some t =>
    if t.st = .errored then .next s
    else match block with
      | none => .next (if t.host then errTarget s p tgt 7 else s)
      | some b =>
        if t.log.isNone ∧ !cbOk x t b then .next (errTarget s p tgt 5)
        else
          let c := cbField b 0 8
          let s := if t.log.isNone then modTarget s p tgt (fun t => { t with log := some (cbField b 8 8, cbField b 16 8) }) else s
          if c % 64 ≠ 0 ∨ t.pos < c ∨ c < t.consumed then .next (errTarget s p tgt 6)
          else
            let s := modTarget s p tgt (fun t => { t with consumed := c })
            .next (if t.host then ackCommit s p tgt else s)
  | _, _ => .next s

/-- A result has been written (R15, R277, R342): the write's bytes leave, and the completion may be posted. -/
def execResultWriteDone (e : Fin 32768) (ok : Bool) (s : State) : Res :=
  match getEntry? s e with
  | none => .next s
  | some q =>
    let p := entryPart q
    let k := resTarget q.f.result
    match getTarget s p k with
    | none => .next s
    | some t =>
      if !q.resultDue ∨ q.st ≠ .pouring ∨ t.st = .errored ∨ !deviceUp s then .next s
      else if !ok then .next (if t.host then errTarget s p k 7 else s)
      else
        let s := sendBytes s p k t (resOffset q.f.result) q.outBytes none
        let s := if t.host then emit s (blockRead p k t) else s
        .next (tryDone (setEntry s e { q with resultDue := false }) e)

/-- Pour ports a target may use: up, of its PORTS mask (R325). -/
def portsFor (s : State) (mask : BitVec 4) : List Nat := (List.range 4).filter (fun i => s.iod.portsUp.getLsbD i && (mask = 0 || mask.getLsbD i))
/-- Targets that a port carries. -/
def portLoad (s : State) (i : Nat) : Nat := (s.parts.map (fun q => (q.2.targets.filter (fun r => !r.2.host && r.2.port = i)).length)).sum
/-- The least loaded of some ports, the lower number on a tie (R325). -/
def leastLoaded (s : State) : List Nat → Option Nat
  | [] => none
  | i :: r => match leastLoaded s r with
    | none => some i
    | some j => if portLoad s i ≤ portLoad s j then some i else some j
/-- Position of the oldest unacknowledged write (R336). -/
def oldestFlight (t : Target) : Nat := (t.flights.head?.map (·.pos)).getD t.pos
/-- A queue pair moves to another permitted port with the same MACsec setting, or its target is ERRORED (R335, R336). -/
def movePair (s : State) (p k : Nat) (tried : List Nat) : State :=
  match getTarget s p k with
  | none => s
  | some t =>
    let ok := (portsFor s t.ports).filter (fun i => !tried.contains i && s.iod.portsMacsec.getLsbD i = s.iod.portsMacsec.getLsbD t.port)
    match leastLoaded s ok with
    | none => errTarget s p k 4
    | some i => emit (modTarget s p k (fun t => { t with port := i, moved := true, tries := 0, triedPorts := tried })) (.retransmit p k i (oldestFlight t))
/-- A remote NAK (R337). -/
def execTargetNak (p : Fin 64) (tgt : Fin 1024) (cause : Fin 3) (s : State) : Res :=
  match getTarget s p tgt with
  | some t => .next (if t.host then s else errTarget s p tgt (cause.val + 1))
  | none => .next s
/-- The local ACK timeout (R334, R336): seven retries, then each other permitted port once. -/
def execTransportAckTimeout (p : Fin 64) (tgt : Fin 1024) (s : State) : Res :=
  match getTarget s p tgt with
  | none => .next s
  | some t =>
    if t.host ∨ t.st = .errored ∨ t.flights = [] then .next s
    else if t.tries < 7 then
      .next (emit (modTarget s p tgt (fun t => { t with tries := t.tries + 1, retries := min 255 (t.retries + 1) })) (.retransmit p tgt t.port (oldestFlight t)))
    else .next (movePair s p tgt (t.triedPorts ++ [t.port]))
/-- A congestion notification slows the queue pair (R334); rates are timing (log entry 10). -/
def execCnpReceived (p : Fin 64) (tgt : Fin 1024) (s : State) : Res := .next (modTarget s p tgt (fun t => if t.host then t else { t with cnps := t.cnps + 1 }))
/-- An RNR NAK: the queue pair waits for its RNR timer (R334). -/
def execRnrNak (p : Fin 64) (tgt : Fin 1024) (s : State) : Res :=
  .next (modTarget s p tgt (fun t => if t.host ∨ t.st = .errored ∨ t.flights = [] then t else { t with rnr := true }))
/-- The RNR timer expires: the refused write is sent again (R334). -/
def execRnrTimerExpiry (p : Fin 64) (tgt : Fin 1024) (s : State) : Res :=
  match getTarget s p tgt with
  | some t => .next (if t.rnr then emit (modTarget s p tgt (fun t => { t with rnr := false })) (.retransmit p tgt t.port (oldestFlight t)) else s)
  | none => .next s
/-- A pour port fails (R336): fenced, its queue pairs move. -/
def execPourPortFail (port : Fin 4) (s : State) : Res :=
  if !s.iod.portsUp.getLsbD port then .next s
  else
    let s := { s with iod := { s.iod with portsUp := setBit s.iod.portsUp port false, portsFenced := setBit s.iod.portsFenced port true } }
    let s := faultLog s 6 0 0xFF 4 (32 + port.val) 0xFFFF 0
    .next (s.parts.foldl (fun s q => q.2.targets.foldl (fun s r => if !r.2.host ∧ r.2.st ≠ .errored ∧ r.2.port = port.val then movePair s q.1 r.1 [port.val] else s) s) s)
/-- A failed port has been up for 1 s (R336). -/
def execPourPortReturn (port : Fin 4) (s : State) : Res :=
  if s.iod.portsFenced.getLsbD port then .next { s with iod := { s.iod with portsUp := setBit s.iod.portsUp port true, portsFenced := setBit s.iod.portsFenced port false } } else .next s

/-- POUR_TARGET_ADD's parameters (R315). -/
def targetParams (p : Packet) : Option Nat :=
  if 1023 < p.le 16 2 then some 16
  else if 1 < p.le 18 1 then some 18
  else if p.le 18 1 = 1 then ((List.range 29).find? (fun i => p.le (19 + i) 1 ≠ 0)).map (· + 19)
  else if 16 ≤ p.le 19 1 then some 19
  else if p.le 23 1 = 0 ∨ 3 < p.le 23 1 then some 23
  else if p.le 47 1 ≠ 0 then some 47
  else none
/-- POUR_TARGET_ADD takes effect (R315, R322, R325). -/
def doTargetAdd (s : State) (ring : Nat) (p : Packet) : State :=
  let n := partNo s ring
  match getPart? s n with
  | none => notPermitted s ring p
  | some x => match targetParams p with
    | some b => badParam s ring p b
    | none =>
      let k := p.le 16 2
      let host := decide (p.le 18 1 = 1)
      let mask := BitVec.ofNat 4 (p.le 19 1)
      if (tabGet? k x.targets).isSome then notPermitted s ring p
      else if 1024 ≤ (s.parts.map (fun q => q.2.targets.length)).sum then finish s ring p stNO_ENTRY 0
      else match (if host then some 0 else leastLoaded s (portsFor s mask)) with
        | none => finish s ring p stFAULT 0
        | some port =>
          let m := s.iod.targetsAdded
          let qpn := if host then 0 else Config.localQpn m
          let psn := if host then 0 else Config.localPsn m
          let t : Target :=
            { tenant := p.tenant, host := host, ports := mask, destQpn := BitVec.ofNat 24 (p.le 20 3), pmtu := BitVec.ofNat 8 (p.le 23 1), gid := BitVec.ofNat 128 (p.le 24 16),
              rkey := BitVec.ofNat 32 (p.le 40 4), startPsn := BitVec.ofNat 24 (p.le 44 3), regionAddr := BitVec.ofNat 64 (p.le 48 8), regionLen := BitVec.ofNat 64 (p.le 56 8),
              qpn := qpn, psn := psn, port := port, st := .active, cause := 0, moved := false, retries := 0, tries := 0, triedPorts := [], rnr := false, log := none,
              consumed := 0, pos := 0, produced := 0, queue := [], recIdx := 0, crcs := [], flights := [], cnps := 0 }
          let s := { setPart s n { x with targets := tabInsert k t x.targets } with iod := { s.iod with targetsAdded := m + 1 } }
          finish s ring p stOK (BitVec.ofNat 128 (resAt 16 qpn.toNat + resAt 19 port + resAt 20 psn.toNat))
/-- POUR_TARGET_REMOVE takes effect (R315, R473). -/
def doTargetRemove (s : State) (ring : Nat) (p : Packet) : State :=
  let n := partNo s ring
  match getPart? s n with
  | none => notPermitted s ring p
  | some x => match p.badByte [(16, 2)] with
    | some b => badParam s ring p b
    | none =>
      let k := p.le 16 2
      match tabGet? k x.targets with
      | none => badParam s ring p 16
      | some t =>
        if ringLevel s ring = 0 ∧ t.tenant ≠ p.tenant then badParam s ring p 16
        else if (entriesOf s n).any (fun q => lives q.2 && names q.2 k) ∨ s.pair.waitingEntries.any (fun q => decide (q.2.partition.toNat = n) && names (entryFrom q.1 q.2 true true) k) then
          notPermitted s ring p
        else finish (settleCancelled (settleLent (setPart s n { x with targets := tabErase k x.targets }) n) n) ring p stOK 0
def execPourTargetAdd (ring : Nat) (p : Packet) (s : State) : Res := decodeCmd s ring 0x20 p .none
def execPourTargetRemove (ring : Nat) (p : Packet) (s : State) : Res := decodeCmd s ring 0x21 p .none

end Sys2Proof.Machine
end

