-- ==== Sys2Proof/Machine/Setup.lean ====
section
/-! DEFINITION. Setup.lean: partitions, tenants and model images (R1, R4, R46, R50, R119, R149, R163, R164, R190, R195, R217,
R227-R229, R254, R256, R265, R314, R315, R365, R373, R433-R437, R473). -/

namespace Sys2Proof.Machine

open Sys2Proof

/-- The first of the listed fields whose test fails. -/
def firstBad : List (Bool × Nat) → Option Nat
  | [] => none
  | (b, f) :: r => if b then some f else firstBad r
/-- The lowest start of `n` free units in [lo, hi), given the taken ranges (R314). -/
def lowestRange (taken : List (Nat × Nat)) (lo hi n : Nat) : Option Nat :=
  let starts := sortBy (fun a b => decide (a ≤ b)) (lo :: taken.map (fun q => q.1 + q.2))
  starts.find? (fun a => decide (lo ≤ a) && decide (a + n ≤ hi) && taken.all (fun q => decide (a + n ≤ q.1) || decide (q.1 + q.2 ≤ a) || decide (q.2 = 0)))

/-- PARTITION_CREATE's parameters (R314). -/
structure CreateArgs where
  num : Nat
  rings : Nat
  mask : BitVec 64
  pages : Nat
  share : Nat
  rd : Nat
  wr : Nat
  rm : Nat
  ways : Nat
  entries : Nat
  tenants : Nat
  push : Nat
  context : BitVec 64
  deriving DecidableEq, Repr
def createArgs (p : Packet) : CreateArgs :=
  { num := p.le 16 1, rings := p.le 18 2, mask := BitVec.ofNat 64 (p.le 20 8), pages := p.le 28 4, share := p.le 32 2, rd := p.le 34 1, wr := p.le 35 1, rm := p.le 36 1,
    ways := p.le 38 2, entries := p.le 40 2, tenants := p.le 42 2, push := p.le 44 2, context := BitVec.ofNat 64 (p.le 48 8) }
/-- Sum of a quota over the partitions. -/
def quotaSum (s : State) (f : Part → Nat) : Nat := (s.parts.map (fun q => f q.2)).sum
def ringsTaken (s : State) : List (Nat × Nat) := s.parts.map (fun q => (q.2.ringBase, q.2.ringQuota))
def pushTaken (s : State) : List (Nat × Nat) := s.parts.map (fun q => (q.2.pushBase, q.2.pushUnits))
/-- The first failing field of a PARTITION_CREATE (R190, R195, R309, R314). -/
def createBad (s : State) (a : CreateArgs) : Option Nat :=
  firstBad [
    (decide (63 < a.num) || (getPart? s a.num).isSome, 16),
    (decide (a.rings < 2) || decide (8190 < a.rings) || decide (8190 < quotaSum s (·.ringQuota) + a.rings) || (lowestRange (ringsTaken s) 2 8192 a.rings).isNone, 18),
    (s.parts.any (fun q => q.2.tileMask &&& a.mask ≠ 0) || (maskTiles a.mask).any (fun t => (getTile s t).retired), 20),
    (decide (4 * Config.partableMib < quotaSum s (·.dramPages) + a.pages), 28),
    (decide (a.share = 0) || decide (1024 < a.share) || decide (1024 < quotaSum s (fun x => bits x.regulator 42 32) + a.share), 32),
    (decide (a.rd = 0), 34), (decide (a.wr = 0), 35), (decide (a.rm = 0), 36),
    (decide (a.ways = 0), 38),
    (decide (a.entries = 0) || decide (32768 < a.entries) || decide (32768 < quotaSum s (·.entryQuota) + a.entries), 40),
    (decide (a.tenants = 0) || decide (4096 < a.tenants) || decide (4096 < quotaSum s (·.tenantQuota) + a.tenants), 42),
    (decide (16256 < quotaSum s (·.pushUnits) + a.push) || (lowestRange (pushTaken s) 128 16384 a.push).isNone, 44),
    (decide (a.rd + a.wr + a.rm ≠ 100), 0xFF)]
/-- A tile as a partition receives it (R290, R434): zeroed, its counters at zero; its status registers are kept. -/
def tileGiven (x : Tile) : Tile := { tileClear x with ctrs := [] }
/-- A partition is created (R314, R433, R434): ring base and first push unit. -/
def createPart (s : State) (a : CreateArgs) : State × Nat × Nat :=
  let rb := (lowestRange (ringsTaken s) 2 8192 a.rings).getD 2
  let pb := (lowestRange (pushTaken s) 128 16384 a.push).getD 128
  let gen := s.mod.gen + 1
  let x : Part :=
    { tileMask := a.mask, ringBase := rb, ringQuota := a.rings, pushBase := pb, pushUnits := a.push, dramPages := a.pages, entryQuota := a.entries, tenantQuota := a.tenants,
      keyGen := gen, keyContext := a.context, regulator := BitVec.ofNat 64 (a.share * 2 ^ 32 + a.rm * 2 ^ 16 + a.wr * 2 ^ 8 + a.rd), caddyWays := BitVec.ofNat 64 a.ways }
  let s := modTiles s (maskTiles a.mask) tileGiven
  let s := { s with mod := { s.mod with gen := gen }, rings := s.rings.filter (fun q => decide (q.1 < rb) || decide (rb + a.rings ≤ q.1)),
                    push := clearRange s.push (pb * 2048) (a.push * 2048) }
  (settleDomains (setPart s a.num x), rb, pb)
/-- A configuration command on a mirroring pair waits until its change is confirmed (R373, R375). -/
def configure (s : State) (c : FwCmd) (d : Delta) (now_ : State → State) : State :=
  match sendDelta s d with
  | (s, none) => now_ s
  | (s, some n) => { s with pair := { s.pair with configs := s.pair.configs ++ [(n, c)] } }
/-- PARTITION_CREATE once nothing waits any more. -/
def createNow (s : State) (ring : Nat) (p : Packet) : State :=
  match createBad s (createArgs p) with
  | some b => badParam s ring p b
  | none =>
    if s.mod.gen = BitVec.allOnes 32 then notPermitted s ring p
    else
      let (s, rb, pb) := createPart s (createArgs p)
      finish s ring p stOK (BitVec.ofNat 128 (resAt 16 rb + resAt 18 pb))
/-- PARTITION_CREATE takes effect (R314, R373, R433). -/
def doPartitionCreate (s : State) (c : FwCmd) : State :=
  let p := c.p
  match p.badByte [(16, 1), (18, 19), (38, 8), (48, 8)] with
  | some b => badParam s c.ring p b
  | none =>
    if (createBad s (createArgs p)).isSome ∨ s.mod.gen = BitVec.allOnes 32 then createNow s c.ring p
    else configure s c (.partition p.params) (fun s => createNow s c.ring p)

/-- A partition goes (R195, R314, R434, R435): its commands are discarded, its tiles zeroed, every resource returned. -/
def destroyPart (s : State) (n : Nat) (x : Part) : State :=
  let mine := fun (r : Nat) => decide (x.ringBase ≤ r) && decide (r < x.ringBase + x.ringQuota)
  let gone := (s.fab.groups.filter (fun g => g.2.part = n)).map Prod.fst
  let s := modTiles { s with iod := { s.iod with caddy := s.iod.caddy.filter (fun k => decide (k.part ≠ n)) } } (maskTiles x.tileMask) tileClear
  let s := { s with
    parts := tabErase n s.parts
    rings := s.rings.filter (fun q => !mine q.1)
    fwQueue := s.fwQueue.filter (fun c => !mine c.ring)
    sigs := s.sigs.filter (fun g => g.part ≠ n)
    remotes := s.remotes.filter (fun r => r.part ≠ n)
    fab := { s.fab with groups := s.fab.groups.filter (fun g => g.2.part ≠ n) }
    pair := { s.pair with held := s.pair.held.filter (fun q => !mine q.2.ring), configs := s.pair.configs.filter (fun q => !mine q.2.ring), pairWrites := s.pair.pairWrites.filter (fun q => q.2.1 ≠ n) }
    pwr := { s.pwr with tolCmds := s.pwr.tolCmds.filter (fun q => !mine q.1) } }
  settleDomains (gone.foldl (fun s g => emit s (.groupMsg g 4 0)) s)
/-- PARTITION_DESTROY may not run while a request, pin or target exists (R314). -/
def destroyHeld (s : State) (n : Nat) (x : Part) : Bool :=
  entriesOf s n ≠ [] || x.pins ≠ [] || x.targets ≠ [] || s.pair.waitingEntries.any (fun q => q.2.partition.toNat = n)
/-- RING_COUNT outlives a partition (R290): its rings keep that alone. -/
def keepCounts (s : State) (x : Part) (old : Tab Ring) : State :=
  { s with rings := (old.filter (fun q => decide (x.ringBase ≤ q.1) && decide (q.1 < x.ringBase + x.ringQuota))).foldl (fun m q => if q.2.count = 0 then m else tabInsert q.1 { count := q.2.count } m) s.rings }
def destroyNow (s : State) (ring : Nat) (p : Packet) : State :=
  match getPart? s (p.le 16 1) with
  | none => badParam s ring p 16
  | some x => if destroyHeld s (p.le 16 1) x then notPermitted s ring p else finish (keepCounts (destroyPart s (p.le 16 1) x) x s.rings) ring p stOK 0
/-- PARTITION_DESTROY takes effect (R314, R373, R435, R473). -/
def doPartitionDestroy (s : State) (c : FwCmd) : State :=
  match c.p.badByte [(16, 1)] with
  | some b => badParam s c.ring c.p b
  | none => match getPart? s (c.p.le 16 1) with
    | none => badParam s c.ring c.p 16
    | some x => if destroyHeld s (c.p.le 16 1) x then notPermitted s c.ring c.p else configure s c (.partitionGone (c.p.le 16 1)) (fun s => destroyNow s c.ring c.p)

/-- A tenant holds a request, a pin or a target (R314). -/
def tenantHeld (s : State) (n : Nat) (x : Part) (t : Nat) : Bool :=
  (entriesOf s n).any (fun q => q.2.f.tenant.toNat = t) || x.pins.any (fun q => q.2.tenant = t) || x.targets.any (fun q => q.2.tenant = t) ||
  s.pair.waitingEntries.any (fun q => q.2.partition.toNat = n && q.2.tenant.toNat = t)
/-- A ring index that TENANT_CONFIGURE may name (R314). -/
def tenantRing (x : Part) (i : Nat) : Bool := i = 0 || (decide (2 ≤ i) && decide (i < x.ringQuota))
/-- A named ring is in service for another tenant (R297, R314). -/
def ringTaken (s : State) (x : Part) (i t : Nat) : Bool := i ≠ 0 && ringEnabled (getRing s (x.ringBase + i)) && bits (getRing s (x.ringBase + i)).cfg 55 44 ≠ t
/-- Why a TENANT_CONFIGURE fails: status and RESULT value (R256, R309, R314, R437, R473). -/
def tenantBad (s : State) (n : Nat) (x : Part) (p : Packet) : Option (BitVec 16 × Nat) :=
  let t := p.le 16 2
  let act := p.le 18 1
  let v := p.le 20 2
  if 4096 ≤ t then some (stBAD_PARAM, 16)
  else if 1 < act then some (stBAD_PARAM, 18)
  else if act = 1 then
    if (tabGet? t x.tenants).isNone then some (stBAD_PARAM, 16) else if tenantHeld s n x t then some (stNOT_PERMITTED, 0) else none
  else if v ≠ 0xFFFF && (match x.image with | some img => decide (img.variants ≤ v) | none => false) then some (stBAD_PARAM, 20)
  else if !tenantRing x (p.le 22 2) then some (stBAD_PARAM, 22)
  else if !tenantRing x (p.le 24 2) then some (stBAD_PARAM, 24)
  else if ringTaken s x (p.le 22 2) t ∨ ringTaken s x (p.le 24 2) t then some (stNOT_PERMITTED, 0)
  else if (tabGet? t x.tenants).isNone ∧ (x.tenantQuota ≤ x.tenants.length ∨ 4096 ≤ quotaSum s (fun y => y.tenants.length)) then some (stNO_ENTRY, 0)
  else none
/-- RING_CFG.TENANT of a named ring that is disabled (R314). -/
def bindRing (s : State) (x : Part) (i t : Nat) : State :=
  let r := x.ringBase + i
  if i = 0 ∨ ringEnabled (getRing s r) then s else mirrorRing (modRing s r (fun y => { y with cfg := setBits y.cfg 55 44 t })) r
/-- A tenant is created, updated or removed (R437). -/
def setTenant (s : State) (n : Nat) (x : Part) (p : Packet) : State :=
  let t := p.le 16 2
  if p.le 18 1 = 1 then setPart s n { x with tenants := tabErase t x.tenants }
  else
    let q : Tenant := { variant := BitVec.ofNat 16 (p.le 20 2), pinQuota := p.le 28 4, subRing := p.le 22 2, cplRing := p.le 24 2 }
    bindRing (bindRing (setPart s n { x with tenants := tabInsert t q x.tenants }) x (p.le 22 2) t) x (p.le 24 2) t
def tenantNow (s : State) (n ring : Nat) (p : Packet) : State :=
  match getPart? s n with
  | none => notPermitted s ring p
  | some x => match tenantBad s n x p with
    | some (st, v) => finish s ring p st (BitVec.ofNat 128 v)
    | none => finish (setTenant s n x p) ring p stOK 0
/-- TENANT_CONFIGURE takes effect (R314, R373, R437). -/
def doTenantConfigure (s : State) (c : FwCmd) : State :=
  let n := partNo s c.ring
  match c.p.badByte [(16, 3), (20, 6), (28, 4)] with
  | some b => badParam s c.ring c.p b
  | none => match (getPart? s n).map (fun x => tenantBad s n x c.p) with
    | some none => configure s c (.tenant n c.p.params) (fun s => tenantNow s n c.ring c.p)
    | _ => tenantNow s n c.ring c.p

/-- A scratchpad-map entry's fields hold no reserved value (R163), and it does not give f255 to a region (R209). -/
def mapEntryOk (e : MapEntry) : Bool :=
  let plain := e.reads = 0 && e.init = 0
  let noFlags := e.tailFlag = 0 && e.flagEn = 0 && e.headFlag = 0
  e.rsvd = 0 && decide (e.sizeLog.toNat ≤ 7) && decide (entBase e + entLen e ≤ 0x1000000) && entBase e % entRec e = 0 &&
  (if e.kind = 1 then e.sizeLog = 0 && decide (e.count.toNat ≤ 2048) && plain && noFlags
   else if e.kind = 2 then e.sizeLog = 0 && e.count = 32 && plain && noFlags
   else if e.kind = 3 then decide (1 ≤ e.count.toNat) && decide (e.count.toNat ≤ 16384) && decide (e.init.toNat ≤ 1) && noFlags
   else if e.kind = 4 then decide (2 ≤ e.count.toNat) && decide (e.count.toNat ≤ 32768) && plain && decide (e.flagEn.toNat ≤ 3) &&
     !(e.flagEn.getLsbD 0 && e.tailFlag = 255) && !(e.flagEn.getLsbD 1 && e.headFlag = 255)
   else false)
/-- No two entries of a map overlap. -/
def mapApart : List MapEntry → Bool
  | [] => true
  | e :: r => r.all (fun q => !meets (entBase e, entLen e) (entBase q, entLen q)) && mapApart r
/-- A tile's map obeys R164. -/
def mapOk (m : List MapEntry) : Bool :=
  decide (m.length ≤ 128) && m.all mapEntryOk && mapApart m && (m.filter (fun e => e.kind = 1)).length = 1 && (m.filter (fun e => e.kind = 2)).length = 1 &&
  decide (((m.filter (fun e => e.kind = 3)).map (fun e => e.count.toNat)).sum ≤ 16384) && decide ((m.filter (fun e => e.kind = 4)).length ≤ 32)
/-- A collective region is a circular region of its tile's map (R365). -/
def regionOk (img : Image) (r : CollRegion) : Bool := (img.maps.getD r.tile (img.maps.getLastD [])).any (fun e => e.kind = 4 && e.base = r.base)
/-- The draft model's limits (R265). -/
def draftOk (img : Image) : Bool :=
  match img.draft with
  | some d => decide (d.weightBytes ≤ 8388608) && d.weightFmts.all (fun f => decide (f.toNat ≤ 8)) && d.tokensOnly && d.vocab = img.vocab && decide (d.window ≤ 2048) && decide (1 ≤ d.draftMax) && decide (d.draftMax ≤ 8)
  | none => true
/-- The leaves of a round share its N range from end to end, and its K range (R46). -/
def leavesSplit (k : Nat × Nat) (lo hi : Nat) : List LeafRange → Bool
  | [] => lo = hi
  | l :: r => l.nLo = lo && decide (l.nLo ≤ l.nHi) && (l.kLo, l.kHi) = k && leavesSplit k l.nHi hi r
def roundK (r : LeafRound) : Nat × Nat := match r.leaves with | l :: _ => (l.kLo, l.kHi) | [] => (0, 0)
/-- Rounds of the same columns follow in ascending K (R46). -/
def roundsRise : List LeafRound → Bool
  | [] => true
  | r :: l => l.all (fun q => decide (q.nHi ≤ r.nLo) || decide (r.nHi ≤ q.nLo) || decide ((roundK r).2 ≤ (roundK q).1)) && roundsRise l
/-- A leaf cut keeps R46. -/
def cutOk (c : LeafCut) : Bool :=
  c.rounds.all (fun r => r.leaves.length = c.tiles && decide ((roundK r).1 < (roundK r).2) && leavesSplit (roundK r) r.nLo r.nHi r.leaves) && roundsRise c.rounds
/-- Every leaf cut for a legal partition size, P_MIN to 64 tiles, keeps R46. -/
def leafCutsOk (img : Image) : Bool := img.leafCuts.all (fun c => decide (c.tiles < img.pMin) || decide (64 < c.tiles) || cutOk c)
/-- V is stored as fixed-scale MX, BF16 or FP16, and no operand that is reduced along the key dimension is dynamic MX (R119). -/
def vStorageOk (img : Image) : Bool :=
  img.segs.all (fun g => g.kind ≠ 2 || g.fmt = 6 || g.fmt = 7 || (isMx g.fmt.toNat && !g.dynamicKey)) && img.keyOperands.all (fun q => !(isMx q.1.toNat && q.2))
/-- The checks of MODEL_LOAD on an image (R4, R46, R119, R149, R164, R191, R217, R219, R221, R227, R265, R365), and that no data record
passes 64 MiB (R326; log entry 160). -/
def imageOk (x : Part) (img : Image) : Bool :=
  img.stepping = 0xB1 && decide (img.contextMax ≤ 1048576) && decide (img.vocab ≤ 262144) && img.kvBytes % 64 = 0 &&
  decide (img.pMin ≤ tileCount x) && img.rptMask ≠ 0 && img.chunkDefault % 128 = 0 && decide (128 ≤ img.chunkDefault) && decide (img.chunkDefault ≤ 65536) &&
  decide (img.ringSchedule.length ≤ 8192) && img.ringSchedule.all (fun n => n % 64 = 0 && decide (n ≤ 1048576)) && decide (img.barrierTable.length ≤ 16) &&
  (img.waitLimit = 0 || (decide (20 ≤ img.waitLimit) && decide (img.waitLimit ≤ 16777215))) && img.layerMarks.length = img.layers && leafCutsOk img && vStorageOk img && decide (1 ≤ img.kvBlock) &&
  img.maps.all mapOk && img.maps ≠ [] && decide (img.sharedExperts ≤ 512) && decide (img.topK ≤ 16) && decide (img.privateMax ≤ 8) && decide (img.variants ≤ 4096) && draftOk img &&
  img.collRegions.all (regionOk img) && decide (largestRecord img ≤ 67108864)
/-- Pages an image takes (R228). -/
def imagePages (img : Image) : Nat := ceilDiv img.size 262144
/-- The image is placed at the start of the share (log entry 30) and its programs are loaded (R149, R221, R228). Its writes are of the
remote class (R190). -/
def placeImage (s : State) (n : Nat) (x : Part) (img : Image) : State :=
  let pool := (List.range (x.dramPages - imagePages img)).map (· + imagePages img)
  let lim := if img.waitLimit = 0 then 2000 else img.waitLimit
  let mem := img.bytes.foldl (fun m q => if q.1 < img.size then smSet m q.1 q.2 else m) (clearRange x.mem 0 img.size)
  let s := setPart s n { x with image := some img, imageBase := 0, imageCharges := 0, imageCharged := false, mem := mem, pool := pool, returned := [], lent := [], memberPages := [],
                                poolPages := BitVec.ofNat 32 pool.length, syncStatus := setBits x.syncStatus 23 0 lim }
  mirror (chargePaced (partCtr (loadPrograms s n) n 0x120 img.size) n (2 * img.size)) (.imageMeas n img.measurement)
/-- MODEL_LOAD takes effect (R1, R227-R229, R315). -/
def doModelLoad (s : State) (ring : Nat) (p : Packet) (rd : ImageRead) : State :=
  let n := partNo s ring
  match getPart? s n with
  | none => notPermitted s ring p
  | some x => match p.badByte [(16, 17), (40, 8)] with
    | some b => badParam s ring p b
    | none =>
      if 1 < p.le 32 1 then badParam s ring p 32
      else if x.image.isSome then notPermitted s ring p
      else if p.le 32 1 = 1 ∧ x.dramPages * 262144 < p.le 16 8 + p.le 24 8 then badParam s ring p 16
      else match rd with
        | .hostFail => finish s ring p stFAULT 0
        | .notAnImage => badParam s ring p 0xFF
        | .image img expected =>
          if img.headerLen ≠ p.le 24 8 then badParam s ring p 24
          else if p.le 40 8 ≠ 0 ∧ expected ≠ img.measurement then badParam s ring p 40
          else if !imageOk x img then badParam s ring p 0xFF
          else if x.dramPages < imagePages img + totalPages img img.contextMax then finish s ring p stNO_PAGES 0
          else finish (placeImage s n x img) ring p stOK
            (BitVec.ofNat 128 (resAt 17 (ceilDiv (largestRecord img) 1048576) + resAt 20 (x.dramPages - imagePages img) + resAt 24 (img.measurement.toNat % 2 ^ 64)))
/-- A request still bound to the image (R50). -/
def boundLive (e : ReqState) : Bool := e = .queued || e = .steeping || e = .headstart || e = .pouring || e = .paused
/-- MODEL_UNLOAD takes effect (R50, R229, R254, R473). -/
def doModelUnload (s : State) (ring : Nat) (p : Packet) : State :=
  let n := partNo s ring
  match getPart? s n with
  | none => notPermitted s ring p
  | some x => match noParams p with
    | some b => badParam s ring p b
    | none =>
      if x.image.isNone then badParam s ring p 0xFF
      else if (entriesOf s n).any (fun q => boundLive q.2.st) ∨ s.pair.waitingEntries.any (fun q => q.2.partition.toNat = n) ∨ x.pins ≠ [] then notPermitted s ring p
      else
        let s := setPart s n { x with image := none, imageCharges := 0, imageCharged := false, pool := [], returned := [], lent := [], memberPages := [], poolPages := 0, freePages := 0,
                                      next := none, targets := x.targets.map (fun q => (q.1, { q.2 with queue := [], recIdx := 0, crcs := [] })) }
        finish (mirror s (.imageMeas n 0)) ring p stOK 0

def execPartitionCreate (ring : Nat) (p : Packet) (s : State) : Res := decodeCmd s ring 0x10 p .none
def execPartitionDestroy (ring : Nat) (p : Packet) (s : State) : Res := decodeCmd s ring 0x11 p .none
def execTenantConfigure (ring : Nat) (p : Packet) (s : State) : Res := decodeCmd s ring 0x12 p .none
def execModelLoad (ring : Nat) (p : Packet) (rd : ImageRead) (s : State) : Res := decodeCmd s ring 0x13 p (.image rd)
def execModelUnload (ring : Nat) (p : Packet) (s : State) : Res := decodeCmd s ring 0x14 p .none

end Sys2Proof.Machine
end

