-- ==== Sys2Proof/Machine/Fabric.lean ====
section
/-! DEFINITION. Fabric.lean: the Strelmal link layer, the search, port loss, groups, fabric records and lockstep
(R347-R370). -/

namespace Sys2Proof.Machine

open Sys2Proof

/-- A fabric ID as the search ranks it (R352): byte 0 of the hash most significant. -/
def idKey (id : BitVec 64) : Nat := (natToBytes 8 id.toNat).foldl (fun a b => a * 256 + b.toNat) 0
/-- This module's fabric ID (R352): the first 8 bytes of its identity hash. -/
def ownId : BitVec 64 := Config.identityHash.setWidth 64
def byId (l : List (BitVec 64)) : List (BitVec 64) := sortBy (fun a b => decide (idKey a ≤ idKey b)) l

/-- Fabric ports (R356): 0-15 S, 16 and 17 M. -/
def getPort (s : State) (p : Nat) : FabPort := tabGetD s.fab.ports p {}
def modPort (s : State) (p : Nat) (f : FabPort → FabPort) : State := { s with fab := { s.fab with ports := tabModify s.fab.ports p {} f } }
def portUp (q : FabPort) : Bool := bit q.status 63
def portFenced (q : FabPort) : Bool := bit q.status 62
def getVc (q : FabPort) (v : Nat) : LinkVc := tabGetD q.vcs v {}
def setVc (q : FabPort) (v : Nat) (x : LinkVc) : FabPort := { q with vcs := tabInsert v x q.vcs }
/-- Lanes trained and the width they give (R348, R356). -/
def withLanes (st : Word64) (lanes : BitVec 4) : Word64 :=
  let n := onesOf lanes
  setBits (setBits st 59 58 (if n = 4 then 3 else if 2 ≤ n then 2 else n)) 55 52 lanes.toNat

/-- A packet header (R349). -/
def header (dst src vc type group seq : Nat) (payload : List Byte) : BitVec 128 :=
  let b := natToBytes 2 dst ++ natToBytes 2 src ++ natToBytes 1 (vc + 16 * type) ++ natToBytes 1 group ++ natToBytes 2 (payload.length / 64) ++ natToBytes 4 seq
  BitVec.ofNat 128 (bytesToNat (b ++ natToBytes 4 (crc32c (b ++ payload)).toNat))
/-- The CRC and the length of a packet fit (R349). -/
def headerOk (h : BitVec 128) (payload : List Byte) : Bool :=
  payload.length = 64 * bits h 63 48 && decide (bits h 63 48 ≤ 64) && bits h 127 96 = (crc32c (natToBytes 12 (h.toNat % 2 ^ 96) ++ payload)).toNat

/-- Group of a packet, and how long its turn is after that of group `last` (R349, R366). -/
def groupDistance (last : Nat) (h : BitVec 128) : Nat := (bits h 47 40 + 255 - last) % 256
/-- The packet that a VC sends next, with its place in the queue: on VC0 the groups take turns by packet (R366). -/
def vcHead (q : FabPort) (v : Nat) : Option (Nat × BitVec 128 × List Byte) :=
  let l := (getVc q v).queue
  let i := if v = 0 then (let best := (l.map (fun u => groupDistance q.lastGroup u.1)).foldl min 256; l.findIdx (fun u => groupDistance q.lastGroup u.1 = best)) else 0
  (l[i]?).map (fun u => (i, u))
/-- A VC holds a packet and the credit for it (R350, R351). -/
def vcReady (q : FabPort) (v : Nat) : Bool := match vcHead q v with | some (_, _, b) => decide (b.length / 64 ≤ (getVc q v).credits) | none => false
/-- The next packet of a VC takes its SEQ and is sent (R350); 64 B units sent are counted (R356). -/
def sendHead (s : State) (p v : Nat) : State :=
  match vcHead (getPort s p) v with
  | none => s
  | some (i, h, b) =>
    let n := b.length / 64
    let seq := (getVc (getPort s p) v).nextSend
    let g := header (bits h 15 0) (bits h 31 16) v (bits h 39 36) (bits h 47 40) seq.toNat b
    let s := modPort s p (fun q =>
      let x := getVc q v
      { setVc q v { x with queue := dropIdx x.queue i, unacked := x.unacked ++ [(g, b)], credits := x.credits - n, nextSend := seq + 1 } with
        sent := smSet q.sent v (smGet q.sent v + BitVec.ofNat 64 n), deficit := tabModify q.deficit v 0 (· - n), lastGroup := if v = 0 then bits h 47 40 else q.lastGroup })
    let mark := fun (u : FabSend) => if v = 0 ∧ u.port = p ∧ !u.sent ∧ u.seq.toNat = bits h 95 64 then { u with seq := seq, sent := true } else u
    emit { s with fab := { s.fab with sends := s.fab.sends.map mark } } (.fabric p g b)
/-- One step of the output's deficit round-robin (R351): a VC's turn gives it weight × 64 B, and lasts while its packets fit. -/
def pumpStep (s : State) (p : Nat) : State :=
  let q := getPort s p
  let v := q.turn % 4
  let n := match vcHead q v with | some (_, _, b) => b.length / 64 | none => 0
  if !vcReady q v then modPort s p (fun q => { q with turn := v + 1, given := false, deficit := if (getVc q v).queue = [] then tabErase v q.deficit else q.deficit })
  else if !q.given then modPort s p (fun q => { q with given := true, deficit := tabModify q.deficit v 0 (· + bits s.fab.vcWeight (8 * v + 7) (8 * v)) })
  else if n ≤ tabGetD q.deficit v 0 then sendHead s p v
  else modPort s p (fun q => { q with turn := v + 1, given := false })
def pumpPort : Nat → State → Nat → State
  | 0, s, _ => s
  | k + 1, s, p => if (List.range 4).any (vcReady (getPort s p)) then pumpPort k (pumpStep s p) p else s
/-- Send what the peer has granted credit for, VC by VC (R350, R351): a packet of at most 64 units waits at most 64 rounds. -/
def pump (s : State) (p : Nat) : State :=
  pumpPort ((((List.range 4).map (fun v => (getVc (getPort s p) v).queue.length)).sum + 1) * 600) s p
/-- Queue a packet on a port; answers its number in the queue. -/
def queueOn (s : State) (p v dst src type group : Nat) (b : List Byte) : State × Word32 :=
  let n := (getVc (getPort s p) v).nextTicket
  (modPort s p (fun q => let x := getVc q v; setVc q v { x with nextTicket := n + 1, queue := x.queue ++ [(header dst src v type group n.toNat b, b)] }), n)
/-- Queue a packet and send what can be sent. -/
def sendOn (s : State) (p v dst src type group : Nat) (b : List Byte) : State := pump (queueOn s p v dst src type group b).1 p

/-- The port a packet takes (R352): one of the up to four equal-cost first hops. -/
def routePort (s : State) (dst src group : Nat) : Option Nat :=
  match s.fab.routes.find? (fun r => decide (r.dst.toNat = dst)) with
  | none => none
  | some r =>
    let l := r.ports.filter (fun p => portUp (getPort s p))
    if l = [] then none else l[Config.routeHash src group % l.length]?

/-- Pour ports in service. -/
def pourUp (s : State) : BitVec 4 := s.iod.portsUp &&& ~~~s.iod.portsFenced
/-- A member of a group can be reached (R367, R368). -/
def reachable (s : State) (q : Group) (r : Nat) : Bool :=
  if r = q.rank then true
  else if q.far.contains r then pourUp s ≠ 0
  else match q.list.entries[r]? with
    | none => false
    | some m => s.fab.moduleIds.contains m.fabricId && (routePort s (s.fab.moduleIds.idxOf m.fabricId) s.fab.routeId.toNat 0).isSome
/-- A group becomes BROKEN (R368): the running steep is aborted, uncharged. -/
def breakGroup (s : State) (g : Nat) (q : Group) (r : Nat) : State :=
  abortHere { s with fab := { s.fab with groups := tabInsert g { q with st := .broken, brokenRank := BitVec.ofNat 16 r } s.fab.groups } } q.part .none
/-- Groups follow what can be reached (R368): an ACTIVE one with a lost member becomes BROKEN; a BROKEN one whose members
can all be reached repeats the check of R358. -/
def settleReach (s : State) (published : Bool) : State :=
  s.fab.groups.foldl (fun s g =>
    let lost := (List.range g.2.list.members).find? (fun r => !reachable s g.2 r)
    match g.2.st, lost with
    | .active, some r => breakGroup s g.1 g.2 r
    | .broken, none => if published then emit s (.groupMsg g.1 0 g.2.list.crc.toNat) else s
    | _, _ => s) s

/-- This module's neighbour table (R352). -/
def ownTable (s : State) : List Neighbour :=
  s.fab.ports.filterMap (fun q => match q.2.nbr with
    | some (id, port, sw) => if q.1 < 16 ∧ portUp q.2 then some { port := q.1, id := id, peerPort := port, isSwitch := sw } else none
    | none => none)
/-- All tables the module holds, its own first. -/
def allTables (s : State) : List (BitVec 64 × Bool × List Neighbour) := (ownId, false, ownTable s) :: s.fab.tables.filter (fun t => t.1 ≠ ownId)
/-- Every node that a table names has its table, and every S port that is up knows its peer. -/
def tablesClosed (s : State) : Bool :=
  let l := allTables s
  l.all (fun t => t.2.2.all (fun n => l.any (fun u => u.1 = n.id))) && s.fab.ports.all (fun q => decide (16 ≤ q.1) || !portUp q.2 || q.2.nbr.isSome)
def tableModules (s : State) : List (BitVec 64) := byId (((allTables s).filter (fun t => !t.2.1)).map (·.1))
def tableSwitches (s : State) : List (BitVec 64) := byId (((allTables s).filter (fun t => t.2.1)).map (·.1))
/-- The module with the lowest fabric ID leads (R352). -/
def leads (s : State) : Bool := (tableModules s).head? = some ownId
/-- Distances to a node, breadth first: nodes seen with their distance, the last layer. -/
def distances (l : List (BitVec 64 × Bool × List Neighbour)) : Nat → Nat → List (BitVec 64) → List (BitVec 64 × Nat) → List (BitVec 64 × Nat)
  | 0, _, _, seen => seen
  | k + 1, d, layer, seen =>
    let next := ((l.filter (fun t => !(seen.any (fun q => q.1 = t.1)) && t.2.2.any (fun n => layer.contains n.id))).map (·.1))
    distances l k (d + 1) next (seen ++ next.map (fun i => (i, d + 1)))
def distTo (l : List (BitVec 64 × Bool × List Neighbour)) (dst : BitVec 64) : List (BitVec 64 × Nat) := distances l l.length 0 [dst] [(dst, 0)]
def distOf (l : List (BitVec 64 × Nat)) (id : BitVec 64) : Option Nat := (l.find? (fun q => q.1 = id)).map (·.2)
/-- The shortest routes of this module, with up to four equal-cost first hops, the lowest ports (R352). -/
def computeRoutes (s : State) : List Route :=
  let l := allTables s
  let mods := tableModules s
  (List.range mods.length).filterMap (fun i =>
    let d := distTo l (mods.getD i 0)
    match distOf d ownId with
    | none => none
    | some 0 => none
    | some (k + 1) => some { dst := BitVec.ofNat 16 i, ports := (((ownTable s).filter (fun n => distOf d n.id = some k)).map (·.port)).take 4 })
/-- A published result is installed (R353, R355, R356). -/
def install (s : State) (mods sws : List (BitVec 64)) (routes : List Route) : State :=
  let peer := fun (q : FabPort) => match q.nbr with
    | some (id, _, false) => if mods.contains id then mods.idxOf id else 0
    | some (id, _, true) => if sws.contains id then 0x8000 + sws.idxOf id else 0
    | none => 0
  let s := { s with fab := { s.fab with
    published := true, pubEpoch := s.fab.epoch, searching := false, prepared := none, confirms := [], modules := mods.length, moduleIds := mods
    routeId := BitVec.ofNat 16 (mods.idxOf ownId), routes := routes
    ports := s.fab.ports.map (fun q => (q.1, if q.1 < 16 ∧ portUp q.2 then { q.2 with status := setBits q.2.status 31 16 (peer q.2) } else q.2)) } }
  settleReach s true
/-- The leader, once it holds every table, sends PREPARE; alone in its domain it publishes at once (R352, R353). -/
def trySearch (s : State) : State :=
  if !s.fab.searching ∨ !leads s ∨ !tablesClosed s ∨ s.fab.prepared.isSome then s
  else if tableModules s = [ownId] then install s [ownId] (tableSwitches s) []
  else emit { s with fab := { s.fab with prepared := some s.fab.epoch, confirms := [ownId] } } (.prepareMsg s.fab.epoch)
/-- A search starts under an epoch (R352, R353): the epoch floods, and the module's table goes to the leader. -/
def startSearch (s : State) (epoch : BitVec 16) : State :=
  trySearch (emits { s with fab := { s.fab with epoch := epoch, searching := true, tables := [], confirms := [], prepared := none } } [.epochMsg epoch, .neighbours ownId])
/-- A change this module sees (R353). -/
def bumpEpoch (s : State) : State := startSearch s (s.fab.epoch + 1)
/-- One epoch comes after another, modulo 2^16 (log entry 31). -/
def laterEpoch (a b : BitVec 16) : Bool := a ≠ b && decide ((a - b).toNat < 32768)

/-- HELLOs leave every S port that is up (R352). -/
def execHelloTimer (s : State) : Res :=
  .next (emits s ((s.fab.ports.filter (fun q => decide (q.1 < 16) && portUp q.2)).map (fun q => .hello q.1 ownId s.fab.epoch)))
/-- A HELLO names the peer of its port (R352, R356). -/
def execHello (port : Fin 16) (id : BitVec 64) (peerPort : Fin 32) (epoch : BitVec 16) (isSwitch : Bool) (s : State) : Res :=
  if !portUp (getPort s port) then .next s
  else
    let s := modPort s port (fun q => { q with nbr := some (id, peerPort.val, isSwitch), status := setBits (setBits q.status 61 60 (if isSwitch then 2 else 1)) 47 43 peerPort.val })
    .next (if laterEpoch epoch s.fab.epoch then startSearch s epoch else trySearch s)
/-- A flooded epoch is taken, and a search in progress restarts under it (R353). -/
def execEpochMessage (epoch : BitVec 16) (s : State) : Res := .next (if laterEpoch epoch s.fab.epoch then startSearch s epoch else s)
/-- A node's neighbour table reaches the leader (R352). -/
def execNeighbourTable (id : BitVec 64) (isSwitch : Bool) (nbrs : List Neighbour) (s : State) : Res :=
  if !s.fab.searching ∨ id = ownId then .next s
  else .next (trySearch { s with fab := { s.fab with tables := s.fab.tables.filter (fun t => t.1 ≠ id) ++ [(id, isSwitch, nbrs)] } })
/-- PREPARE is confirmed if the epoch is still the same (R353). -/
def execPrepare (epoch : BitVec 16) (s : State) : Res :=
  if epoch = s.fab.epoch then .next (emit { s with fab := { s.fab with prepared := some epoch } } (.confirmMsg epoch)) else .next s
/-- The leader sends COMMIT once every module has confirmed, and installs the result itself (R353). -/
def execPrepareConfirmation (id : BitVec 64) (epoch : BitVec 16) (s : State) : Res :=
  if !s.fab.searching ∨ !leads s ∨ epoch ≠ s.fab.epoch ∨ s.fab.prepared ≠ some epoch ∨ !(tableModules s).contains id then .next s
  else
    let c := if s.fab.confirms.contains id then s.fab.confirms else s.fab.confirms ++ [id]
    let s := { s with fab := { s.fab with confirms := c } }
    if (tableModules s).all (fun m => c.contains m) then .next (install (emit s (.commitMsg epoch)) (tableModules s) (tableSwitches s) (computeRoutes s)) else .next s
/-- COMMIT installs the routes (R353). -/
def execCommit (epoch : BitVec 16) (modules switches : List (BitVec 64)) (routes : List Route) (s : State) : Res :=
  if epoch = s.fab.epoch ∧ s.fab.prepared = some epoch then .next (install s modules switches routes) else .next s

/-- Sends whose last packet a link acknowledgement covers complete (R365): HEAD and HEAD_FLAG advance. -/
def ackSends (s : State) (p : Nat) (seq : Word32) : State :=
  let done := fun (q : FabSend) => q.port = p && q.sent && decide ((seq - q.seq).toNat < 2 ^ 31)
  let l := s.fab.sends.filter done
  l.foldl (fun s q => modTile s q.tile (fun x => completeOp x q.op)) { s with fab := { s.fab with sends := s.fab.sends.filter (fun q => !done q) } }
/-- A link acknowledgement and credit (R350): SEQ acknowledges, the payload's first four bytes grant units. -/
def linkAck (s : State) (p v : Nat) (seq : Word32) (payload : List Byte) : State :=
  let s := modPort s p (fun q => let x := getVc q v
    setVc q v { x with unacked := x.unacked.filter (fun u => !decide ((seq - BitVec.ofNat 32 (bits u.1 95 64)).toNat < 2 ^ 31)), credits := x.credits + bytesToNat (payload.take 4) })
  pump (if v = 0 then ackSends s p seq else s) p
/-- A packet arrives on a port (R349, R350, R353): checked, acknowledged in SEQ order, or dropped; one for another module
goes on by its DST_ROUTE. -/
def execFabricLinkPacket (port : Fin 18) (header : BitVec 128) (payload : List Byte) (s : State) : Res :=
  let v := bits header 33 32
  let type := bits header 39 36
  let seq := BitVec.ofNat 32 (bits header 95 64)
  let x := getVc (getPort s port) v
  let vcOk := if port.val < 16 then decide (v ≤ 2) else decide (2 ≤ v)
  if !portUp (getPort s port) ∨ !headerOk header payload ∨ !vcOk then .next s
  else if type = 6 then .next (linkAck s port v seq payload)
  else if (v ≤ 1 ∧ !s.fab.published) ∨ seq ≠ x.nextRecv then .next s
  else
    let s := modPort s port (fun q => setVc q v { getVc q v with nextRecv := seq + 1 })
    let grant := natToBytes 64 (payload.length / 64)
    let s := emit s (.fabric port (Sys2Proof.Machine.header (bits header 31 16) (bits header 15 0) v 6 0 seq.toNat grant) grant)
    let dst := bits header 15 0
    if v ≤ 1 ∧ dst ≠ s.fab.routeId.toNat then
      match routePort s dst (bits header 31 16) (bits header 47 40) with
      | some q => .next (sendOn s q v dst (bits header 31 16) type (bits header 47 40) payload)
      | none => .next s
    else .next s
/-- 2 µs without acknowledgement: go back to the oldest unacknowledged SEQ (R350). -/
def resend (s : State) (p v : Nat) : State :=
  let l := (getVc (getPort s p) v).unacked
  let n := (l.map (fun q => q.2.length / 64)).sum
  emits (modPort s p (fun q => { q with sent := smSet q.sent v (smGet q.sent v + BitVec.ofNat 64 n) })) (l.map (fun q => .fabric p q.1 q.2))
def execLinkRetransmitTimeout (port : Fin 18) (vc : Fin 4) (s : State) : Res :=
  if portUp (getPort s port) ∧ (getVc (getPort s port) vc).unacked ≠ [] then .next (resend s port vc) else .next s

/-- A packet of a lost port, sent or not, takes another route (R367). -/
def movePacket (s : State) (p v : Nat) (sent : Bool) (h : BitVec 128) (b : List Byte) : State :=
  match routePort s (bits h 15 0) (bits h 31 16) (bits h 47 40) with
  | none => s
  | some q =>
    let old := BitVec.ofNat 32 (bits h 95 64)
    let (s, n) := queueOn s q v (bits h 15 0) (bits h 31 16) (bits h 39 36) (bits h 47 40) b
    let mark := fun (u : FabSend) => if v = 0 ∧ u.port = p ∧ u.sent = sent ∧ u.seq = old then { u with port := q, seq := n, sent := false } else u
    pump { s with fab := { s.fab with sends := s.fab.sends.map mark } } q
/-- Traffic of a lost port moves to the other routes (R367 steps 2 to 4). -/
def moveTraffic (s : State) (p : Nat) : State :=
  let l := (List.range 2).flatMap (fun v => let x := getVc (getPort s p) v; x.unacked.map (fun u => (v, true, u)) ++ x.queue.map (fun u => (v, false, u)))
  let s := modPort s p (fun q => { q with vcs := [] })
  l.foldl (fun s u => movePacket s p u.1 u.2.1 u.2.2.1 u.2.2.2) (if l = [] then s else { s with fab := { s.fab with rerouted := some (now s) } })
/-- Status of a port that is down. -/
def downStatus (st : Word64) : Word64 := st &&& 0x4200000000000000
/-- A link state change is counted; more than four within 1 s fence the port (R354). -/
def countChange (s : State) (p : Nat) : State :=
  modPort s p (fun q => { q with changes := q.changes.filter (fun t => decide (now s < t + 1000000000)) ++ [now s] })
def overFlaps (s : State) (p : Nat) : Bool := decide (4 < (getPort s p).changes.length)
/-- An S port goes down (R353, R354, R367): logged, its traffic moved, the epoch advanced, and fenced when it flaps. -/
def portDown (s : State) (p : Nat) : State :=
  let s := countChange (modPort s p (fun q => { q with status := downStatus q.status, nbr := none })) p
  let fence := overFlaps s p
  let s := if fence then modPort s p (fun q => { q with status := setBit q.status 62 true }) else s
  let s := faultLog s 5 (b2n fence) 0xFF 4 p 0xFFFF 0
  let s := settleReach (moveTraffic s p) false
  if fence then bumpEpoch (bumpEpoch s) else bumpEpoch s
/-- An S port comes up with these lanes (R348, R353, R354). -/
def portRise (s : State) (p : Nat) (lanes : BitVec 4) : State :=
  let s := countChange s p
  if overFlaps s p then
    bumpEpoch (bumpEpoch (faultLog (modPort s p (fun q => { q with status := setBit (downStatus q.status) 62 true })) 5 1 0xFF 5 p 0xFFFF 0))
  else bumpEpoch (modPort s p (fun q => { q with vcs := [], status := setBit (withLanes q.status lanes) 63 true }))
/-- A port has trained and found nothing (R458, R471). -/
def trained (s : State) (port : Nat) : State :=
  { s with mod := { s.mod with lanes := tabModify s.mod.lanes port 0 (fun w => BitVec.ofNat 64 (min 0xFFFF (bits w 31 16 + 1) * 2 ^ 16)) } }
/-- An S port goes down or comes up (R354, R367); a fenced port is held down. -/
def execSPortStateChange (port : Fin 16) (up : Bool) (s : State) : Res :=
  let q := getPort s port
  if portFenced q ∨ portUp q = up ∨ !s.ready then .next s
  else .next (if up then portRise (trained s port) port 0xF else portDown s port)

/-- The level at which a member is reached (R363): 0 tray, 1 rack, 2 between racks. -/
def memberLevel (s : State) (id : BitVec 64) : Nat :=
  if (ownTable s).any (fun n => n.id = id && !n.isSwitch) then 0 else if s.fab.moduleIds.contains id then 1 else 2
/-- What R358 finds wrong in the command or the list, as the packet offset of the field. -/
def listBad (n : Nat) (img : Image) (p : Packet) (l : MemberList) : Option Nat :=
  let rank := p.le 20 2
  firstBad [
    (l.levels.toNat ≠ p.le 17 1, 17), (l.members ≠ p.le 18 2, 18), (l.groupKey.toNat ≠ p.le 32 8, 32),
    (l.rsvd ≠ 0 || l.entries.any (fun e => e.rsvd ≠ 0 || e.rsvd2 ≠ 0) || l.entries.length ≠ l.members, 24),
    ((match l.entries[rank]? with | some e => e.fabricId ≠ ownId || e.partition ≠ n | none => true), 20),
    ((l.entries.map (·.fabricId)).dedup.length ≠ l.entries.length, 24),
    (img.collMembers ≠ some l.members, 0xFF)]
/-- GROUP_CREATE takes effect (R358): the group forms, and tells the members that this one has joined. -/
def doGroupCreate (s : State) (ring : Nat) (p : Packet) (list : Option MemberList) : State :=
  let n := partNo s ring
  match getPart? s n with
  | none => notPermitted s ring p
  | some x => match p.badByte [(16, 6), (24, 16)] with
    | some b => badParam s ring p b
    | none =>
      if 15 < p.le 16 1 then badParam s ring p 16
      else match x.image with
      | none => notPermitted s ring p
      | some img =>
        if (tabGet? (p.le 16 1) s.fab.groups).isSome then notPermitted s ring p
        else if 7 < p.le 17 1 then badParam s ring p 17
        else if p.le 18 2 < 2 ∨ 4096 < p.le 18 2 then badParam s ring p 18
        else match list with
        | none => finish s ring p stFAULT 0
        | some l => match listBad n img p l with
          | some b => badParam s ring p b
          | none =>
            let rank := p.le 20 2
            let lv := fun r => memberLevel s ((l.entries[r]?.map (·.fabricId)).getD 0)
            let others := (List.range l.members).filter (fun r => decide (r ≠ rank))
            let used := others.map lv
            if used.any (fun k => (p.le 17 1 >>> k) % 2 = 0) then finish s ring p stBAD_PARAM (BitVec.ofNat 128 (resAt 16 0xFF + resAt 18 4 + resAt 20 1))
            else
              let g : Group :=
                { st := .forming, part := n, key := BitVec.ofNat 64 (p.le 32 8), rank := rank, levelsAsked := BitVec.ofNat 8 (p.le 17 1),
                  levelsUsed := used.foldl (fun b k => setBit b k true) 0, list := l, brokenRank := 0xFFFF, joined := 1, waits := [], slowest := 0, slowestNs := 0,
                  tagWaits := [], far := others.filter (fun r => decide (lv r = 2)), destroying := false, cmd := some (ring, p), endCmd := none }
              emit { s with fab := { s.fab with groups := tabInsert (p.le 16 1) g s.fab.groups } } (.groupMsg (p.le 16 1) 0 l.crc.toNat)
/-- GROUP_DESTROY takes effect (R359, R473): at the running steep's B(n), or at once. -/
def doGroupDestroy (s : State) (ring : Nat) (p : Packet) : State :=
  let n := partNo s ring
  match getPart? s n, p.badByte [(16, 1)] with
  | none, _ => notPermitted s ring p
  | _, some b => badParam s ring p b
  | some x, none => match tabGet? (p.le 16 1) s.fab.groups with
    | none => badParam s ring p 16
    | some g =>
      if g.part ≠ n then badParam s ring p 16
      else if g.destroying then finish s ring p stOK 0
      else
        let g := { g with destroying := true, endCmd := some (ring, p) }
        let s := { s with fab := { s.fab with groups := tabInsert (p.le 16 1) g s.fab.groups } }
        if x.phase = .none then settleGroups s n else s
/-- A group not ACTIVE within 10 s is freed (R358). -/
def execGroupFormTimeout (g : Fin 16) (s : State) : Res :=
  match tabGet? g s.fab.groups with
  | some q => if q.st = .forming then .next (freeGroup s g q) else .next s
  | none => .next s
/-- Bytes whose sums differ from one value at all members (R370): N × Q ≠ S². -/
def unequalBytes (n : Nat) (sums : List Word32) : List Nat :=
  (List.range 52).filter (fun b => n * (sums.getD (2 * b + 1) 0).toNat ≠ (sums.getD (2 * b) 0).toNat ^ 2)
/-- The sums of the check return from rank 0 (R358, R368, R370). -/
def execInPassingReduction (g : Fin 16) (joined : Nat) (sums : List Word32) (s : State) : Res :=
  match tabGet? g s.fab.groups with
  | none => .next s
  | some q =>
    if q.st = .active then .next s
    else
      let q := { q with joined := min joined q.list.members }
      if q.joined < q.list.members ∨ sums.length ≠ 104 then .next { s with fab := { s.fab with groups := tabInsert g.val q s.fab.groups } }
      else
        let bad := unequalBytes q.list.members sums
        let mask := b2n (bad.any (fun b => decide (48 ≤ b))) + 2 * b2n (bad.any (fun b => decide (b < 48)))
        if bad = [] then
          let s := { s with fab := { s.fab with groups := tabInsert g.val { q with st := .active, cmd := none, brokenRank := 0xFFFF, waits := [], tagWaits := [] } s.fab.groups } }
          let s := match q.cmd with | some c => finish s c.1 c.2 stOK (BitVec.ofNat 128 (resAt 20 q.joined)) | none => s
          .next (idleCompose s q.part)
        else
          let s := match q.cmd with | some c => finish s c.1 c.2 stBAD_PARAM (BitVec.ofNat 128 (resAt 16 0xFF + resAt 18 mask + resAt 20 q.joined)) | none => s
          .next (freeGroup s g { q with cmd := none })

/-- Add a wait to a rank's total. -/
def addWait (l : Tab Nat) (r n : Nat) : Tab Nat := tabModify l r 0 (· + n)
/-- Members exchange their totals; the rank with the largest is published, the lower one on a tie (R369). -/
def execLagExchangeTimer (g : Fin 16) (totals : List (Nat × Nat)) (s : State) : Res :=
  match tabGet? g s.fab.groups with
  | none => .next s
  | some q =>
    if q.st ≠ .active then .next s
    else
      let all := totals.foldl (fun m t => if t.1 < q.list.members then addWait m t.1 t.2 else m) q.waits
      let best := all.foldl (fun a t => if a.2 < t.2 then t else a) (0, 0)
      let s := { s with fab := { s.fab with groups := tabInsert g.val { q with slowest := best.1, slowestNs := best.2 } s.fab.groups } }
      .next (emits s (q.waits.map (fun t => .groupMsg g (16 + t.1) t.2)))

/-- Fields of a record's header (R365). -/
def recLE (b : List Byte) (off n : Nat) : Nat := bytesToNat ((b.drop off).take n)
/-- A record that may not be sent (R365). -/
def recordRefused (s : State) (p idx : Nat) (img : Image) (recLen : Nat) (b : List Byte) : Bool :=
  let len := recLE b 8 4
  recLE b 6 2 ≠ 0 || recLE b 19 1 ≠ 0 || recLE b 22 42 ≠ 0 || len % 64 ≠ 0 || decide (recLen - 64 < len) ||
  (match tabGet? (recLE b 3 1) s.fab.groups with
   | some q => q.part ≠ p || q.st ≠ .active || decide (q.list.members ≤ recLE b 0 2) ||
       !img.collRegions.any (fun r => !r.send && decide (r.tile = recLE b 2 1) && decide (r.base.toNat = recLE b 4 2) && decide (r.srcRank = q.rank) && decide (r.srcTile = idx))
   | none => true)
/-- The rank this module charged most for a TAG, its own where it charged none (R369). -/
def slowRank (q : Group) (tag : Nat) : Nat :=
  let l := (q.tagWaits.filter (fun t => t.1 = tag)).foldl (fun m t => addWait m t.2.1 t.2.2) ([] : Tab Nat)
  (l.foldl (fun a t => match a with | none => some t | some b => if b.2 < t.2 then some t else some b) (none : Option (Nat × Nat))).elim q.rank Prod.fst
/-- A record cut into packets (R349). -/
def cutRecord : Nat → List Byte → List (List Byte)
  | 0, _ => []
  | k + 1, b => if b.length ≤ 4096 then [b] else b.take 4096 :: cutRecord k (b.drop 4096)
/-- Circular region of a tile at a base (R365). -/
def regionAt (x : Tile) (base : Nat) : Option Nat :=
  let i := x.map.findIdx (fun e => decide (e.kind = 4) && decide (e.base.toNat = base))
  if i < x.map.length then some i else none
/-- A record goes to its destination: over S ports packet by packet, or over the between-rack queue pair (R363, R365). -/
def launch (s : State) (t op : Nat) (q : Group) (b : List Byte) : State :=
  let dst := recLE b 0 2
  let id := ((q.list.entries[dst]?).map (·.fabricId)).getD 0
  if dst = q.rank ∨ q.far.contains dst then modTile (emit s (.collective (recLE b 3 1) dst b)) t (fun x => completeOp x op)
  else
    let route := s.fab.moduleIds.idxOf id
    match routePort s route s.fab.routeId.toNat (recLE b 3 1) with
    | none => s
    | some port =>
      let (s, n) := (cutRecord (b.length / 4096 + 1) b).foldl (fun a c => queueOn a.1 port 0 route s.fab.routeId.toNat 1 (recLE b 3 1) c) (s, (0 : Word32))
      pump { s with fab := { s.fab with sends := s.fab.sends ++ [{ tile := t, op := op, port := port, seq := n, sent := false }] } } port
/-- The fabric engine claims the next record of a send region and sends it (R365, R369). -/
def execFabricRecordSend (t : Fin 64) (base : BitVec 16) (s : State) : Res :=
  match partOfTile s t with
  | none => .next s
  | some p => match getPart? s p with
    | none => .next s
    | some part => match part.image, regionAt (getTile s t) base.toNat with
      | some img, some e =>
        let x := getTile s t
        let idx := tileIndex part t
        let c : Claim := { entry := e, index := 0, opnd := 0, circ := true, writer := false, remote := true, who := t, op := x.nextOp, taken := false }
        if part.phase = .none ∨ !canClaim x c ∨ !img.collRegions.any (fun r => r.send && decide (r.tile = idx) && r.base = base) then .next s
        else match x.map[e]? with
          | none => .next s
          | some m =>
            let (y, c) := takeClaim x c
            let a := entBase m + (c.index % max 1 m.count.toNat) * entRec m
            match poisoned x [(a, 64)] with
            | some w => .next (spadFault s t w 0)
            | none =>
              let h := readBytes x.spad a 64
              let n := 64 + recLE h 8 4
              if recordRefused s p idx img (entRec m) h then .next (abortSteep s p .image)
              else match poisoned x [(a, n)], tabGet? (recLE h 3 1) s.fab.groups with
                | some w, _ => .next (spadFault s t w 0)
                | none, none => .next s
                | none, some q =>
                  if recLE h 0 2 ≠ q.rank ∧ !reachable s q (recLE h 0 2) then .next s
                  else
                    let b := h.take 16 ++ natToBytes 2 q.rank ++ natToBytes 1 idx ++ [0] ++ natToBytes 2 (slowRank q (recLE h 12 4)) ++ List.replicate 42 0 ++ readBytes x.spad (a + 64) (n - 64)
                    let y := correctReads { y with claims := y.claims ++ [c], nextOp := x.nextOp + 1 } [(a, n)]
                    .next (launch (setTile s t y) t x.nextOp q b)
      | _, _ => .next s
/-- A wait of a receive region's reader is charged to the record's SLOW_RANK (R369). -/
def chargeWait (s : State) (g : Nat) (q : Group) (x : Tile) (e tag slow : Nat) : State :=
  match x.claims.find? (fun c => c.circ && !c.writer && !c.taken && decide (c.entry = e)) with
  | some c =>
    if c.waited = 0 ∨ q.list.members ≤ slow then s
    else { s with fab := { s.fab with groups := tabInsert g { q with waits := addWait q.waits slow c.waited, tagWaits := q.tagWaits ++ [(tag, slow, c.waited)] } s.fab.groups } }
  | none => s
/-- A record arrives at its receive region (R166, R173, R365); a full region holds its source back. -/
def execFabricRecordDeliver (t : Fin 64) (record : List Byte) (s : State) : Res :=
  match partOfTile s t with
  | none => .next s
  | some p => match getPart? s p, tabGet? (recLE record 3 1) s.fab.groups with
    | some part, some q => match part.image, regionAt (getTile s t) (recLE record 4 2) with
      | some img, some e =>
        let x := getTile s t
        let fed := img.collRegions.any (fun r => !r.send && decide (r.tile = tileIndex part t) && decide (r.base.toNat = recLE record 4 2) && decide (r.srcRank = recLE record 16 2) && decide (r.srcTile = recLE record 18 1))
        let c : Claim := { entry := e, index := 0, opnd := 0, circ := true, writer := true, remote := true, who := t, op := x.nextOp, taken := false }
        if part.phase = .none ∨ q.part ≠ p ∨ q.st ≠ .active ∨ recLE record 0 2 ≠ q.rank ∨ recLE record 2 1 ≠ tileIndex part t ∨ !fed ∨ record.length ≠ 64 + recLE record 8 4 ∨ !canClaim x c then .next s
        else match x.map[e]? with
          | none => .next s
          | some m =>
            if entRec m < record.length then .next s
            else
              let (y, c) := takeClaim x c
              let y := spadPut y (entBase m + (c.index % max 1 m.count.toNat) * entRec m) record
              let s := chargeWait s (recLE record 3 1) q x e (recLE record 12 4) (recLE record 20 2)
              .next (setTile s t (completeClaim { y with nextOp := x.nextOp + 1 } c))
      | _, _ => .next s
    | _, _ => .next s

/-- The leader receives a member's free-page count, and composes once it has them all (R360). -/
def execLockstepPageCount (p : Fin 64) (rank : Nat) (free : Nat) (s : State) : Res :=
  match groupsOf s p, getPart? s p with
  | (_, q) :: _, some x =>
    if q.rank ≠ 0 ∨ rank = 0 ∨ q.list.members ≤ rank then .next s
    else
      let c := tabInsert rank free x.counts
      if x.awaitCounts ∧ q.list.members ≤ c.length + 1 then .next (composeFrozen (setPart s p { x with counts := c, awaitCounts := false }) p)
      else .next (setPart s p { x with counts := c })
  | _, _ => .next s
/-- Pages a member holds for one of the leader's entries up to position `hi` (R245, R360). -/
def memberTake (img : Image) (x : Part) (e hi : Nat) : Part :=
  let have_ := tabGetD x.memberPages e []
  let k := kvPages img hi + statePagesOf img - have_.length
  { x with memberPages := tabInsert e (have_ ++ x.pool.take k) x.memberPages, pool := x.pool.drop k }
/-- A member receives its row maps and tokens, allocates the pages they need, and confirms them (R360). -/
def execLockstepRowMaps (p : Fin 64) (rpt : Nat) (rows : List RowEntry) (s : State) : Res :=
  match getPart? s p with
  | none => .next s
  | some x => match x.image with
    | none => .next s
    | some img =>
      if (groupRank s p).getD 0 = 0 ∨ !groupsReady s p ∨ x.phase = .body ∨ !(rptChoices 15).contains rpt ∨ tileCount x * rpt < rows.length then .next s
      else
        let l := (List.range rows.length).filterMap (fun i => (rows[i]?).bind (fun r => if r.valid then some (i, r) else none))
        let places : List Placement := l.map (fun q =>
          { entry := q.2.entry.toNat, first := q.1, count := 1, pos := q.2.position.toNat, head := q.2.head, d := 0, dead := false, filled := true, tokens := [q.2.token.setWidth 32] })
        let x := { x with pool := sortBy (fun a b => decide (a ≤ b)) (x.pool ++ x.returned), returned := [] }
        let x := l.foldl (fun x q => memberTake img x q.2.entry.toNat (q.2.position.toNat + 1)) x
        let st : Steep := { n := x.steepNo + 1, rpt := rpt, tiles := maskTiles x.tileMask, rows := places, frozen := { heads := [], prompts := [], cfg := 0 }, marks := [], undo := [], frozenAt := now s, composed := true, released := 0 }
        let x := { x with next := some st, freePages := BitVec.ofNat 32 x.pool.length }
        .next (emit (writeRows (setPart s p x) st l) (.lockstep p 2 st.n))
/-- A member releases the steep on the leader's message (R360). -/
def execLockstepRelease (p : Fin 64) (s : State) : Res :=
  if (groupRank s p).getD 0 = 0 then .next s else .next (releaseSteep s p)
/-- An abort in another member aborts the steep here; the leader makes its charges, to the image where no row is named
(R152, R360). -/
def execLockstepAbort (p : Fin 64) (charged : Bool) (rows : List (Fin 32768)) (s : State) : Res :=
  match getPart? s p with
  | none => .next s
  | some x =>
    if groupsOf s p = [] ∨ (x.phase = .none ∧ x.next.isNone) then .next s
    else
      let ch : Charge := if !charged ∨ (groupRank s p).getD 0 ≠ 0 then .none else if rows = [] then .image else .entries (rows.map (·.val))
      .next (abortHere s p ch)

def execGroupCreate (ring : Nat) (p : Packet) (list : Option MemberList) (s : State) : Res := decodeCmd s ring 0x30 p (.members list)
def execGroupDestroy (ring : Nat) (p : Packet) (s : State) : Res := decodeCmd s ring 0x31 p .none

end Sys2Proof.Machine
end

