-- ==== Sys2Proof/Machine/Pair.lean ====
section
/-! DEFINITION. Pair.lean: binding, mirroring, liveness, solo, resynchronisation and leapfrog of a mirrored pair
(R371-R393, R401, R402). -/

namespace Sys2Proof.Machine

open Sys2Proof

def pairCtr (s : State) (off n : Nat) : State := { s with pair := { s.pair with ctrs := smSet s.pair.ctrs off (smGet s.pair.ctrs off + BitVec.ofNat 64 n) } }
/-- First 8 bytes of an identity, and its fabric ID (R352, R390). -/
def idHead (id : BitVec 384) : BitVec 64 := id.setWidth 64

/-- Status of mirror port `p` (0 M0, 1 M1) in FAB_PORT_STATUS (R356). -/
def mirrorStatus (s : State) (p : Nat) (lanes : BitVec 4) : State :=
  modPort s (16 + p) (fun q => { q with status := if lanes = 0 then downStatus q.status else setBits (setBit (withLanes q.status lanes) 63 true) 61 60 3, vcs := if lanes = 0 then q.vcs else [] })
def setMPort (s : State) (p : Nat) (up : Bool) : State := { s with pair := { s.pair with portsUp := setBit s.pair.portsUp p up } }

/-- What waited for the partner goes on without it (R8, R381): commands take effect, changes apply, completions are written,
in solo with DEGRADED set. -/
def releaseHeld (s : State) (deg : Bool) : State :=
  let held := s.pair.held
  let configs := s.pair.configs
  let writes := s.pair.pairWrites
  let s := { s with
    pair := { s.pair with held := [], configs := [], pairWrites := [], sent := [] }
    table := s.table.map (fun q => (q.1, { q.2 with confirmed := true })), parts := s.parts.map (fun q => (q.1, { q.2 with stir := true }))
    rings := s.rings.map (fun q => (q.1, { q.2 with waiting := q.2.waiting.map (fun c => match c.2 with | some _ => ({ c.1 with degraded := c.1.degraded || deg }, none) | none => c) })) }
  let s := writes.foldl (fun s w => putPairReg s w.2.1 w.2.2.1 w.2.2.2) s
  let s := configs.foldl (fun s q => match q.2.opcode.toNat with
    | 0x10 => createNow s q.2.ring q.2.p
    | 0x11 => destroyNow s q.2.ring q.2.p
    | _ => tenantNow s (partNo s q.2.ring) q.2.ring q.2.p) s
  idleAll (held.foldl (fun s q => carryOut s q.2) s)
def noShadow : Shadow := { requests := [], commands := [], rings := [], images := [], pins := [] }
/-- Solo (R381): the shadow is discarded. -/
def goSolo (s : State) : State :=
  let s := faultLog { s with pair := { s.pair with st := 3, shadow := noShadow, frozen := false, partnerAsleep := false, window := false } } 13 0 0xFF 0 0 0xFFFF 0
  releaseHeld s true
/-- STRANGER (R374). -/
def goStranger (s : State) (cert : BitVec 384) : State :=
  let s := faultLog { s with pair := { s.pair with st := 4, shadow := noShadow, frozen := false, partnerAsleep := false, window := false } } 15 0 0xFF 0 0 0xFFFF (cert.setWidth 128)
  releaseHeld s true
/-- Unbinding discards all shadow state (R372). -/
def unbindHere (s : State) : State :=
  releaseHeld { s with pair := { s.pair with st := 0, partner := none, rank := 0, shadow := noShadow, frozen := false, partnerAsleep := false, window := false, wireFault := false } } false

/-- Parameters of PARTITION_CREATE and TENANT_CONFIGURE that make a partition and its tenants again (R373). -/
def configParams (n : Nat) (x : Part) : BitVec 384 :=
  let f := fun (off v : Nat) => v <<< (8 * (off - 16))
  BitVec.ofNat 384 (f 16 n + f 18 x.ringQuota + f 20 x.tileMask.toNat + f 28 x.dramPages + f 32 (bits x.regulator 42 32) + f 34 (bits x.regulator 7 0) + f 35 (bits x.regulator 15 8)
    + f 36 (bits x.regulator 23 16) + f 38 x.caddyWays.toNat + f 40 x.entryQuota + f 42 x.tenantQuota + f 44 x.pushUnits + f 48 x.keyContext.toNat)
def tenantParams (t : Nat) (q : Tenant) : BitVec 384 :=
  let f := fun (off v : Nat) => v <<< (8 * (off - 16))
  BitVec.ofNat 384 (f 16 t + f 20 q.variant.toNat + f 22 q.subRing + f 24 q.cplRing + f 28 q.pinQuota)
def ownConfig (s : State) : PairConfig :=
  { partitions := s.parts.map (fun q => configParams q.1 q.2), tenants := s.parts.flatMap (fun q => q.2.tenants.map (fun t => (q.1, tenantParams t.1 t.2))) }
/-- A packet that carries only parameters. -/
def paramPacket (v : BitVec 384) : Packet := { flags := 0, tenantClass := 0, seq := 0, handle := 0, params := v }
/-- A partition is created by its parameters, or why not (R314, R373). -/
def tryCreate (s : State) (v : BitVec 384) : State × Option (BitVec 16 × Nat) :=
  match createBad s (createArgs (paramPacket v)) with
  | some b => (s, some (stBAD_PARAM, b))
  | none => if s.mod.gen = BitVec.allOnes 32 then (s, some (stNOT_PERMITTED, 0)) else ((createPart s (createArgs (paramPacket v))).1, none)
def tryDestroy (s : State) (n : Nat) : State × Option (BitVec 16 × Nat) :=
  match getPart? s n with
  | none => (s, some (stBAD_PARAM, 16))
  | some x => if destroyHeld s n x then (s, some (stNOT_PERMITTED, 0)) else (keepCounts (destroyPart s n x) x s.rings, none)
def tryTenant (s : State) (n : Nat) (v : BitVec 384) : State × Option (BitVec 16 × Nat) :=
  match getPart? s n with
  | none => (s, some (stNOT_PERMITTED, 0))
  | some x => match tenantBad s n x (paramPacket v) with
    | some e => (s, some e)
    | none => (setTenant s n x (paramPacket v), none)
/-- The partner's configuration is created here; on a failure no partition is left (R373). -/
def takeConfig (s : State) (c : PairConfig) : State × Option (BitVec 16 × Nat) :=
  let step := fun (a : State × Option (BitVec 16 × Nat)) (f : State → State × Option (BitVec 16 × Nat)) => match a.2 with | some _ => a | none => f a.1
  let a := c.partitions.foldl (fun a v => step a (fun s => tryCreate s v)) (s, none)
  let a := c.tenants.foldl (fun a t => step a (fun s => tryTenant s t.1 t.2)) a
  match a.2 with
  | none => a
  | some e => (s, some e)

/-- A completion ring's entries that the host has not taken: those written, then those that wait (R382, R386). -/
def ringContent (x : Ring) : List (BitVec 16 × Completion) :=
  x.unread ++ x.waiting.zipIdx.map (fun q => (x.tail + BitVec.ofNat 16 q.2, q.1.1))
/-- The control state as a shadow holds it (R375, R382). -/
def controlState (s : State) : Shadow :=
  { requests := s.table.map (fun q => (q.1, (q.2.st, q.2.f)))
    commands := (s.pair.held.map (·.2) ++ s.pair.configs.map (·.2) ++ s.fwQueue).map (fun c => { ring := c.ring, opcode := c.opcode, packet := c.p, count := 0 })
    rings := s.rings.map (fun q => (q.1, { cfg := q.2.cfg, base := q.2.base, int := q.2.int, devCount := if ringIsCpl q.2 then q.2.tail else q.2.head, hostCount := if ringIsCpl q.2 then q.2.head else q.2.tail, written := ringContent q.2 }))
    images := s.parts.filterMap (fun q => q.2.image.map (fun img => (q.1, img.measurement)))
    pins := s.parts.flatMap (fun q => q.2.pins.map (fun k => (q.1, k.1, k.2.length, k.2.crc))) }
/-- After a bind every piece of mirrored content is sent (R375, R376), and no request is composed before its own is confirmed (R8). -/
def mirrorAll (s : State) : State :=
  let c := controlState s
  let s := { s with table := s.table.map (fun q => (q.1, { q.2 with confirmed := !mirroring s })) }
  let s := c.rings.foldl (fun s q => mirror s (.ringState q.1 q.2.cfg q.2.base q.2.int q.2.devCount q.2.hostCount)) s
  let s := c.requests.foldl (fun s q => mirror s (.request q.1 q.2.1 q.2.2)) s
  let s := c.images.foldl (fun s q => mirror s (.imageMeas q.1 q.2)) s
  c.pins.foldl (fun s q => mirror s (.pin q.1 q.2.1 q.2.2.1 q.2.2.2)) s

/-- A bind ends (R371): status and RESULT, and the state after. -/
def endBind (s : State) (st : BitVec 16) (v : Nat) : State :=
  match s.pair.bindCmd with
  | none => s
  | some (ring, p, _) => finish { s with pair := { s.pair with bindCmd := none, st := if s.pair.st = 1 then 0 else s.pair.st } } ring p st (BitVec.ofNat 128 v)
/-- The partner has authenticated, or has ended the exchange (R371-R373). -/
def resolveBind (s : State) (cert : BitVec 384) (accepts : Bool) (c : PairConfig) (fails : Option (BitVec 16 × Nat)) : State :=
  match s.pair.bindCmd with
  | none => s
  | some (_, _, id) =>
    if cert ≠ id then endBind s stBAD_PARAM 16
    else if !accepts then endBind s stFAULT 0
    else
      let own := ownConfig s
      let a := if own.partitions = [] ∧ c.partitions ≠ [] then takeConfig s c
        else if own = c then (s, none)
        else if c.partitions = [] then (s, fails)
        else (s, some (stNOT_PERMITTED, 0))
      match a with
      | (s, some (st, v)) => endBind s st v
      | (s, none) =>
        let rank := b2n (decide (idKey (idHead cert) < idKey ownId))
        mirrorAll (endBind { s with pair := { s.pair with st := 2, partner := some cert, rank := rank, shadow := noShadow, frozen := false } } stOK 0)
/-- PAIR_BIND takes effect (R371). -/
def doPairBind (s : State) (ring : Nat) (p : Packet) (b : BindInput) : State :=
  if s.pair.st ≠ 0 then notPermitted s ring p
  else
    let s := emit { s with pair := { s.pair with st := 1, bindCmd := some (ring, p, p.params) } } (.pairAuth Config.identityHash)
    match b with
    | .waiting => s
    | .partner cert ok c f => resolveBind s cert ok c f
/-- PAIR_UNBIND takes effect (R372): both members when the mirror link is up. -/
def doPairUnbind (s : State) (ring : Nat) (p : Packet) : State :=
  match noParams p with
  | some b => badParam s ring p b
  | none =>
    if s.pair.st < 2 then finish s ring p stOK 0
    else
      let s := if s.pair.portsUp ≠ 0 then emit s (.delta s.pair.nextDelta .unbind) else s
      finish (unbindHere s) ring p stOK 0
/-- PAIR_STATUS takes effect (R315, R381). -/
def doPairStatus (s : State) (ring : Nat) (p : Packet) : State :=
  match noParams p with
  | some b => badParam s ring p b
  | none =>
    finish s ring p (if s.pair.st = 3 then stDEGRADED else stOK)
      (BitVec.ofNat 128 (resAt 16 s.pair.st + resAt 17 s.pair.rank + resAt 18 s.pair.aliveIn + resAt 19 s.pair.mirrorPort + resAt 24 ((s.pair.partner.map idHead).getD 0).toNat))
/-- The partner's side is not complete within 10 s (R371). -/
def execPairBindTimeout (s : State) : Res := .next (if s.pair.st = 1 then endBind s stFAULT 0 else s)
/-- A certificate is presented over a mirror port (R371, R374): it completes a bind, or is held against the pinned
identity. A partner that no longer accepts this member was unbound meanwhile, and this member finds itself unbound (R372). DEDUCED: log
entry 168. -/
def execPairReauth (_port : Fin 2) (partner : BindInput) (s : State) : Res :=
  match partner with
  | .waiting => .next s
  | .partner cert ok c f =>
    if s.pair.st = 1 then .next (resolveBind s cert ok c f)
    else match s.pair.partner with
      | none => .next s
      | some id =>
        if s.pair.st < 2 ∨ s.pair.st = 4 then .next s
        else if cert ≠ id then .next (goStranger s cert)
        else if !ok then .next (unbindHere s)
        else if s.pair.st = 2 then .next s
        else .next (emit { s with pair := { s.pair with frozen := true } } (.resync (controlState s)))

/-- A confirmed delta lets its held change take effect (R8, R375). -/
def confirmDelta (s : State) (n : Nat) (d : Delta) (fails : Option (BitVec 16 × Nat)) : State :=
  let s := pairCtr s 0x48 1
  let held := s.pair.held.filter (fun q => q.1 = n)
  let configs := s.pair.configs.filter (fun q => q.1 = n)
  let writes := s.pair.pairWrites.filter (fun q => q.1 = n)
  let s := { s with pair := { s.pair with held := s.pair.held.filter (fun q => q.1 ≠ n), configs := s.pair.configs.filter (fun q => q.1 ≠ n), pairWrites := s.pair.pairWrites.filter (fun q => q.1 ≠ n) } }
  let s := match d with
    | .request i _ _ => (match getEntry? s i with
      | some e => if e.confirmed then s else idleCompose (stirPart (setEntry s i { e with confirmed := true }) (entryPart e)) (entryPart e)
      | none => s)
    | _ => s
  let s := writes.foldl (fun s w => putPairReg s w.2.1 w.2.2.1 w.2.2.2) s
  let s := configs.foldl (fun s q => match fails with
    | some (st, v) => finish s q.2.ring q.2.p st (BitVec.ofNat 128 v)
    | none => (match q.2.opcode.toNat with
      | 0x10 => createNow s q.2.ring q.2.p
      | 0x11 => destroyNow s q.2.ring q.2.p
      | _ => tenantNow s (partNo s q.2.ring) q.2.ring q.2.p)) s
  held.foldl (fun s q => carryOut s q.2) s
/-- The partner's acknowledgement confirms every delta sent up to this one, in the order in which they were sent (R375, R376). -/
def execMirrorAck (n : Nat) (fails : Option (BitVec 16 × Nat)) (s : State) : Res :=
  if !s.pair.sent.any (fun q => q.1 = n) then .next s
  else
    let l := s.pair.sent.filter (fun q => decide (q.1 ≤ n))
    let s := { s with pair := { s.pair with sent := s.pair.sent.filter (fun q => !decide (q.1 ≤ n)) } }
    .next (l.foldl (fun s q => confirmDelta s q.1 q.2 (if q.1 = n then fails else none)) s)

def modShadow (s : State) (f : Shadow → Shadow) : State := { s with pair := { s.pair with shadow := f s.pair.shadow } }
/-- The completion ring of a mirrored command, in the partner's numbering. -/
def shadowCpl (s : State) (sh : Shadow) (ring cls : Nat) : Nat :=
  let cfg := match tabGet? ring sh.rings with | some r => r.cfg | none => 0
  ringOrigin s ring + bits cfg 39 27 + cls % (bits cfg 43 40 + 1)
/-- A write or command of this member is lost in one mirror window (R393). -/
def lostHere (s : State) : State := pairCtr s 0x58 1
/-- This member's admission of a HANDLE that the partner admitted in the same window is withdrawn (R376, R393). -/
def dropAdmission (s : State) (i : Nat) (e : Entry) : State :=
  let r := cplRing s (reqRing e) e.f.cls.toNat
  let s := modRing s r (fun x => { x with waiting := x.waiting.filter (fun c => !(decide (c.1.seq = e.f.seq) && decide (c.1.handle = e.f.handle) && !c.1.final)) })
  let s := discardFor s i e
  lostHere (postReq (freeEntryAt s i) e stCONFLICT true false 0 0)
where
  /-- nothing of the entry stays composed -/
  discardFor (s : State) (i : Nat) (e : Entry) : State := killNext (returnPages s (entryPart e) e) (entryPart e) i
/-- The partner's request-table delta (R375, R376, R393). -/
def requestDelta (s : State) (i : Nat) (st : ReqState) (f : ReqFields) : State :=
  let put := fun s => modShadow s (fun c => { c with requests := tabInsert i (st, f) c.requests })
  match findHandle s f.partition.toNat f.handle with
  | none => put s
  | some j => match getEntry? s j with
    | none => put s
    | some e => if e.confirmed ∨ e.adopted then put s else if s.pair.rank = 0 then s else put (dropAdmission s j e)
/-- Two configuration commands that conflict: of the same partition, and for two tenant commands of the same tenant (R393). -/
def configClash (s : State) (c : FwCmd) (op part tenant : Nat) : Bool :=
  let n := if c.opcode.toNat = 0x12 then partNo s c.ring else c.p.le 16 1
  n = part && (c.opcode.toNat ≠ 0x12 || op ≠ 0x12 || c.p.le 16 2 = tenant)
/-- The partner's configuration change takes effect here too, or its failure is answered (R373, R393). -/
def configDelta (s : State) (op part tenant : Nat) (f : State → State × Option (BitVec 16 × Nat)) : State × Option (BitVec 16 × Nat) :=
  let mine := s.pair.configs.filter (fun q => configClash s q.2 op part tenant)
  if mine ≠ [] ∧ s.pair.rank = 0 then (s, some (stCONFLICT, 0))
  else
    let s := { s with pair := { s.pair with configs := s.pair.configs.filter (fun q => !configClash s q.2 op part tenant) } }
    f (mine.foldl (fun s q => lostHere (finish s q.2.ring q.2.p stCONFLICT 0)) s)
/-- The partner's write of a pair-owned register (R393). -/
def pairRegDelta (s : State) (p off : Nat) (v : Word64) : State :=
  let mine := fun (q : Nat × Nat × Nat × Word64) => q.2.1 = p && q.2.2.1 = off
  let l := s.pair.pairWrites.filter mine
  if l ≠ [] ∧ s.pair.rank = 0 then s
  else
    let s := { s with pair := { s.pair with pairWrites := s.pair.pairWrites.filter (fun q => !mine q) } }
    putPairReg (l.foldl (fun s _ => lostHere (errAccess s (p + 1) 10 0 (0x1000000 + off))) s) p off v
/-- A delta is applied (R375): the state, and a failing status to answer. -/
def applyDelta (s : State) : Delta → State × Option (BitVec 16 × Nat)
  | .command ring op p count => (modShadow s (fun c => { c with commands := c.commands ++ [{ ring := ring, opcode := op, packet := p, count := count }] }), none)
  | .request i st f => (requestDelta s i st f, none)
  | .requestFreed i => (modShadow s (fun c => { c with requests := tabErase i c.requests }), none)
  | .completion ring count q =>
    (modShadow s (fun c =>
      let r := tabGetD c.rings ring { cfg := 0, base := 0, int := 0, devCount := 0, hostCount := 0, written := [] }
      let c := { c with rings := tabInsert ring { r with devCount := count + 1, written := r.written ++ [(count, q)] } c.rings }
      if q.final then { c with commands := c.commands.filter (fun m => !(decide (m.packet.seq = q.seq) && decide (shadowCpl s c m.ring m.packet.cls = ring))) } else c), none)
  | .ringState ring cfg base int dev host =>
    (modShadow s (fun c => { c with rings := tabInsert ring { cfg := cfg, base := base, int := int, devCount := dev, hostCount := host,
                                                              written := keepWritten host ((tabGet? ring c.rings).elim [] (·.written)) } c.rings }), none)
  | .progress i v => (modShadow s (fun c => match tabGet? i c.requests with
    | some (st, f) => { c with requests := tabInsert i (st, { f with progress := v }) c.requests }
    | none => c), none)
  | .partition v => configDelta s 0x10 ((paramPacket v).le 16 1) 0 (fun s => tryCreate s v)
  | .partitionGone n => configDelta s 0x11 n 0 (fun s => tryDestroy s n)
  | .tenant n v => configDelta s 0x12 n ((paramPacket v).le 16 2) (fun s => tryTenant s n v)
  | .pairReg p off v => (pairRegDelta s p off v, none)
  | .imageMeas p m => (modShadow s (fun c => { c with images := if m = 0 then tabErase p c.images else tabInsert p m c.images }), none)
  | .pin p n len crc => (modShadow s (fun c =>
      let l := c.pins.filter (fun q => !(decide (q.1 = p) && decide (q.2.1 = n)))
      { c with pins := if len = 0 then l else l ++ [(p, n, len, crc)] }), none)
  | .unbind => (unbindHere s, none)
/-- A mirror delta arrives and is acknowledged (R375); while mirror input is frozen none is taken (R382). -/
def execMirrorDelta (d : Delta) (s : State) : Res :=
  if s.pair.st < 2 ∨ s.pair.frozen ∨ (s.pair.st ≠ 2 ∧ d ≠ .unbind) then .next s
  else
    let n := s.pair.received
    let (s, f) := applyDelta { s with pair := { s.pair with received := n + 1 } } d
    .next (emit s (.deltaAck n f))

/-- Heartbeats leave both mirror ports every 5 µs (R377, R379, R385); a period without one received counts (R402). -/
def execHeartbeatTimer (s : State) : Res :=
  if s.pair.partner.isNone ∨ !s.ready ∨ s.pair.selfAsleep then .next s
  else
    let s := if s.pair.st = 2 ∧ 0 < s.pair.missed ∧ !s.pair.partnerAsleep then pairCtr s 0x50 1 else s
    let s := { s with pair := { s.pair with missed := s.pair.missed + 1 } }
    .next (emits s (((List.range 2).filter (fun p => s.pair.portsUp.getLsbD p)).map (fun p => .heartbeat p s.pwr.timebase s.pair.lastHbRecv s.pair.lastHbArrived)))
/-- The offset Δ by a heartbeat and its echo (R385): the partner's TIMEBASE less this one's. -/
def offsetBy (nowNs : Nat) (timebase echoSent echoArrived : Word64) : Int :=
  let rtt : Int := ((nowNs : Int) - echoSent.toNat) - ((timebase.toNat : Int) - echoArrived.toNat)
  (timebase.toNat : Int) - ((nowNs : Int) - rtt / 2)
/-- The PAIR_ALIVE wire is faulty (R378). -/
def wireFaultNow (s : State) : State :=
  if s.pair.wireFault then s else faultLog { s with pair := { s.pair with wireFault := true } } 17 0 0xFF 5 0 0xFFFF 0
/-- A heartbeat arrives (R378-R380, R385). -/
def execHeartbeat (port : Fin 2) (timebase : Word64) (echoSent echoArrived : Word64) (s : State) : Res :=
  if !s.pair.portsUp.getLsbD port ∨ s.pair.partner.isNone ∨ s.pair.selfAsleep then .next s
  else
    let s := { s with pair := { s.pair with lastHbRecv := timebase, lastHbArrived := s.pwr.timebase, missed := 0, window := false, partnerAsleep := false,
                                            delta := if echoSent = 0 then s.pair.delta else offsetBy (now s) timebase echoSent echoArrived } }
    .next (if s.pair.aliveIn = 2 ∧ s.pair.st = 2 then wireFaultNow s else s)

/-- A time field of the partner on the survivor's clock (R385). -/
def translate (d : Int) (v : BitVec 64) : BitVec 64 :=
  if v = 0 then 0
  else
    let r := (v.toNat : Int) - d
    BitVec.ofNat 64 (if r < 1 then 1 else if (2 : Int) ^ 64 - 1 < r then 2 ^ 64 - 1 else r.toNat)
/-- A pin of the survivor stands for the partner's (R384): same number, length and CRC-32C. -/
def pinMatches (sh : Shadow) (p : Nat) (x : Part) (f : ReqFields) : Bool :=
  let n := f.pin.toNat % 2 ^ 14
  match tabGet? n x.pins with
  | some q => sh.pins.any (fun k => k.1 = p && k.2.1 = n && k.2.2.1 = q.length && k.2.2.2 = q.crc)
  | none => false
/-- A target that an adopted request names is missing or ERRORED (R388). -/
def targetGone (x : Part) (f : ReqFields) : Bool :=
  let bad := fun (n : Nat) => match tabGet? n x.targets with | some t => decide (t.st = .errored) | none => true
  (f.kind = 0 && !f.isPin && bad f.pourTarget.toNat) || (f.result.getLsbD 63 && bad (bits f.result 57 48))
/-- Fields of an adopted entry (R384, R385). -/
def adoptFields (s : State) (sh : Shadow) (x : Part) (f : ReqFields) : ReqFields :=
  let f := { f with deadline := translate s.pair.delta f.deadline, admitAt := translate s.pair.delta f.admitAt, promoStart := translate s.pair.delta f.promoStart,
                    lastEvent := stTAKEN, delay := 7, pin := if f.pin.getLsbD 14 ∧ !pinMatches sh f.partition.toNat x f then 0 else f.pin }
  { f with nextPos := BitVec.ofNat 21 (startPos x f) }
/-- One request of the shadow is adopted, or completes (R384, R388). One that had ended is adopted only while its final completion was
not mirrored, so that it is delivered once (R399). -/
def adoptOne (sh : Shadow) (s : State) (st : ReqState) (f : ReqFields) : State :=
  let e := entryFrom st f true true
  let open' := sh.commands.any (fun m => (m.opcode = 1 || m.opcode = 0x15) && m.packet.seq = f.seq && m.packet.handle = f.handle && f.ring.toNat = m.ring)
  if (st = .done ∨ st = .failed) ∧ !open' then s
  else if st = .cancelling then postReq s e stCANCELLED true false 0 0
  else match getPart? s f.partition.toNat with
    | none => postReq s e stFAULT true false 0 0
    | some x =>
      if (match x.image with | some img => decide (img.measurement ≠ f.measurement) | none => true) then postReq s e stFAULT true false 0 0
      else if targetGone x f then postReq s e stFAULT true false 0 0
      else
        let st' : ReqState := if st = .paused then .paused else .queued
        let f := adoptFields s sh x f
        let s := match freeEntry s with
          | some i => setEntryM s i (entryFrom st' f true true)
          | none => { s with pair := { s.pair with waitingEntries := s.pair.waitingEntries ++ [(st', f)] } }
        pairCtr (postEvent s (entryFrom st' f true true) stTAKEN) 0x60 1
/-- A configuration command of the partner whose change took effect on both members (R373, R387). -/
def configTaken (s : State) (m : ShadowCmd) : Bool :=
  match m.opcode.toNat with
  | 0x10 => (match getPart? s (m.packet.le 16 1) with | some x => configParams (m.packet.le 16 1) x = m.packet.params | none => false)
  | 0x11 => (getPart? s (m.packet.le 16 1)).isNone
  | 0x12 => (match getPart? s (partNo s m.ring) with
    | some x => (match tabGet? (m.packet.le 16 2) x.tenants with
      | some q => m.packet.le 18 1 = 0 && tenantParams (m.packet.le 16 2) q = m.packet.params
      | none => m.packet.le 18 1 = 1)
    | none => false)
  | _ => false
/-- A mirrored command without a final completion is handled by its kind (R387). -/
def finishShadow (sh : Shadow) (s : State) (m : ShadowCmd) : State :=
  let r := 8192 + m.ring
  match m.opcode.toNat with
  | 2 => doCancel s r m.packet
  | 3 => doPause s r m.packet
  | 4 => doResume s r m.packet
  | 5 => doSetPriority s r m.packet
  | 6 => doQuery s r m.packet true
  | 0x16 => doUnpin s r m.packet
  | op =>
    if (op = 1 ∨ op = 0x15) ∧ sh.requests.any (fun q => q.2.2.seq = m.packet.seq && q.2.2.handle = m.packet.handle && q.2.2.ring.toNat = m.ring) then s
    else if configTaken s m then finish s r m.packet stOK 0
    else finish s r m.packet stFAULT 0
/-- The order of R241 for adopted requests. -/
def adoptOrder (l : List (Nat × ReqState × ReqFields)) : List (Nat × ReqState × ReqFields) :=
  sortBy (fun a b => orderLe (a.1, entryFrom a.2.1 a.2.2 true true) (b.1, entryFrom b.2.1 b.2.2 true true) true) l
/-- The adopted rings at their host addresses (R386): completions from the host's HEAD on are written again. -/
def adoptRings (sh : Shadow) : Tab Ring :=
  sh.rings.map (fun q =>
    let r := q.2
    (q.1, { cfg := r.cfg, base := r.base, int := r.int, head := r.hostCount, tail := r.hostCount, waiting := (keepWritten r.hostCount r.written).map (fun c => (c.2, none)) }))
/-- Leapfrog (R383-R390): the partner is dead. -/
def leapfrog (s : State) : State :=
  let sh := s.pair.shadow
  let id := s.pair.partner.getD 0
  let fence := fun (s : State) (p : Nat) => modPort s p (fun q => { q with status := setBit (downStatus q.status) 62 true })
  let s := fence (fence { s with pair := { s.pair with st := 5, portsUp := 0, shadow := noShadow, frozen := false, partnerAsleep := false, window := false } } 16) 17
  let s := faultLog s 12 0 0xFF 6 0 0xFFFF (id.setWidth 128)
  let s := enqueueCpl s 1 { seq := 0, status := stTAKEN, final := false, event := true, degraded := degraded s, detail := 0, handle := idHead id, result := 0, int := false }
  let s := releaseHeld s false
  let s := { s with pair := { s.pair with adopted := adoptRings sh } }
  let s := (adoptOrder sh.requests).foldl (fun s q => adoptOne sh s q.2.1 q.2.2) s
  idleAll (sh.commands.foldl (finishShadow sh) s)
/-- A partner lost where leapfrog does not cover it (R381, R382). -/
def lostUncovered (s : State) : State := faultLog s 18 0 0xFF 0 0 0xFFFF ((s.pair.partner.getD 0).setWidth 128)
/-- Three heartbeats in a row were missed (R379, R380, R382); in the wake window the first one is not missed before its end. -/
def execHeartbeatMissed (s : State) : Res :=
  let a := s.pair.aliveIn
  if s.pair.st ≠ 2 ∨ s.pair.selfAsleep then .next s
  else if s.pair.frozen then .next (if a = 2 then goSolo (lostUncovered s) else s)
  else if s.pair.window ∧ now s < s.pair.windowEnd then .next s
  else if s.pair.window ∧ a ≠ 2 then .next (emit { s with pair := { s.pair with frozen := true, window := false, partnerAsleep := false } } (.resync (controlState s)))
  else if s.pair.partnerAsleep ∧ a ≠ 2 then .next s
  else if s.pair.wireFault ∨ a ≠ 2 then .next (goSolo s)
  else .next (leapfrog s)

/-- An edge on PAIR_ALIVE_IN (R378): active. Edges less than 3 µs apart while the partner is asleep show that it wakes, and
the window for its first heartbeat opens (R380). -/
def execPairAliveInEdge (s : State) : Res :=
  let t := { s with pair := { s.pair with aliveIn := 0 } }
  .next (if s.pair.partnerAsleep ∧ s.pair.aliveIn = 0 ∧ !s.pair.window then openWindow t else t)
/-- No edge within the window (R378): asleep after an announced sleep, then static. -/
def execAliveInTimeout (s : State) : Res :=
  if s.pair.partnerAsleep ∧ s.pair.aliveIn = 0 then .next { s with pair := { s.pair with aliveIn := 1 } }
  else
    let s' := { s with pair := { s.pair with aliveIn := 2 } }
    .next (if s.pair.st = 3 ∧ s.pair.aliveIn ≠ 2 then lostUncovered s' else s')
/-- PAIR_ALIVE_IN has been active for 1 s (R378). -/
def execWireFaultClear (s : State) : Res := .next (if s.pair.aliveIn = 0 then { s with pair := { s.pair with wireFault := false } } else s)

/-- The partner announces sleep (R380). -/
def execSleep (ticks : Word64) (s : State) : Res :=
  if s.pair.st ≠ 2 then .next s
  else .next (emit { s with pair := { s.pair with partnerAsleep := true, sleepTick := ticks, sleepAt := s.pwr.tick, window := false } } .sleepAck)
/-- The partner confirms this member's SLEEP (R377, R380). -/
def execSleepConfirm (s : State) : Res :=
  if s.pair.st = 2 ∧ a3Ready s then
    .next { s with pair := { s.pair with sleepConfirmed := true, selfAsleep := true, sleepAt := if s.pair.partnerAsleep then s.pair.sleepAt else s.pwr.tick, aliveOut := .hz32 } }
  else .next s

/-- Deltas not acknowledged go out again on the port in use (R381). -/
def resendDeltas (s : State) : State := emits s (s.pair.sent.map (fun q => .delta q.1 q.2))
/-- A mirror port is lost (R381, R394): mirror traffic moves to the other one while it is up. -/
def mirrorPortLost (s : State) (p : Nat) : State :=
  let s := mirrorStatus (setMPort s p false) p 0
  let other := s.pair.portsUp.getLsbD (1 - p)
  let s := faultLog s 7 0 0xFF (if other then 4 else 0) (16 + p) 0xFFFF 0
  if other ∧ s.pair.mirrorPort = p then resendDeltas { s with pair := { s.pair with mirrorPort := 1 - p } } else s
def execMirrorPortFail (port : Fin 2) (s : State) : Res := if s.pair.portsUp.getLsbD port then .next (mirrorPortLost s port) else .next s
/-- A mirror port is back (R374, R381, R382): M0, up for 1 s, takes the traffic back; a bound member authenticates again. -/
def mirrorPortBack (s : State) (p : Nat) (lanes : BitVec 4) : State :=
  let s := mirrorStatus (setMPort s p true) p lanes
  let s := if p = 0 ∨ !s.pair.portsUp.getLsbD (1 - p) then { s with pair := { s.pair with mirrorPort := p } } else s
  let s := if s.pair.mirrorPort = p then resendDeltas s else s
  if s.pair.partner.isSome then emit s (.pairAuth Config.identityHash) else s
def execMirrorPortReturn (port : Fin 2) (s : State) : Res :=
  if s.pair.portsUp.getLsbD port ∨ portFenced (getPort s (16 + port.val)) ∨ !s.ready then .next s else .next (mirrorPortBack s port 0xF)
/-- The exchange completes (R382): the shadow is rebuilt and mirroring resumes; a partner that dies during it is not covered. -/
def execResyncExchange (partner : Option ResyncInput) (s : State) : Res :=
  if !s.pair.frozen then .next s
  else match partner with
    | none => .next (goSolo (lostUncovered s))
    | some x =>
      let s := { s with pair := { s.pair with st := 2, frozen := false, shadow := x.shadow, resyncs := min 0xFFFF (s.pair.resyncs + 1), missed := 0 } }
      .next (faultLog s 14 0 0xFF 0 0 0xFFFF 0)

def execPairBind (ring : Nat) (p : Packet) (partner : BindInput) (s : State) : Res := decodeCmd s ring 0x50 p (.bind partner)
def execPairUnbind (ring : Nat) (p : Packet) (s : State) : Res := decodeCmd s ring 0x51 p .none
def execPairStatus (ring : Nat) (p : Packet) (s : State) : Res := decodeCmd s ring 0x52 p .none

end Sys2Proof.Machine
end

