-- ==== Sys2Proof/Machine/Module.lean ====
section
/-! DEFINITION. Module.lean: start-up, resets, warm exit from A4, lanes and training, module faults, DRAM and caddy faults,
attestation and the sideband (R196, R201, R203, R344, R348, R395, R397, R423-R433, R439, R457-R467, R471). -/

namespace Sys2Proof.Machine

open Sys2Proof

/-- Failed physical positions of a die, ascending (R54, R465). -/
def failedOn (l : List (Nat × Nat)) (d : Nat) : List Nat := sortBy (fun a b => decide (a ≤ b)) ((l.filter (fun q => q.1 = d)).map (·.2)).dedup
/-- Map the tiles of one die after its self-test (R54, R465): the spare replaces the first failed tile, others are retired. -/
def mapDie (s : State) (l : List (Nat × Nat)) (d : Nat) : State :=
  let f := failedOn l d
  let spare := !f.contains 16
  let bad := (f.filter (fun k => decide (k < 16) && !((getTile s (16 * d + k)).onSpare) && !((getTile s (16 * d + k)).retired)))
  let s := if spare then s else modTiles s ((List.range 16).map (16 * d + ·)) (fun x => if x.onSpare then { x with retired := true } else x)
  bad.foldl (fun s k =>
    let t := 16 * d + k
    if spare && !s.iod.sparesUsed.getLsbD d then
      { modTile s t (fun x => { x with onSpare := true }) with iod := { s.iod with sparesUsed := setBit s.iod.sparesUsed d true } }
    else modTile s t (fun x => { x with retired := true })) s
/-- Ports come up (R459, R463 step 5): fenced S ports stay down. -/
def raisePorts (s : State) (x : StartCfg) : State :=
  let s := (List.range 16).foldl (fun s p => if x.fabUp.getLsbD p ∧ !portFenced (getPort s p) then portRise s p 0xF else s) s
  let s := (List.range 2).foldl (fun s p => if x.fabUp.getLsbD (16 + p) ∧ !portFenced (getPort s (16 + p)) then mirrorPortBack s p 0xF else s) s
  let s := ((List.range 22).filter (fun p => decide (18 ≤ p) || !portFenced (getPort s p))).foldl trained s
  { s with iod := { s.iod with portsUp := x.portsUp, portsMacsec := x.portsMacsec, portsFenced := 0,
                               portLanes := (List.range 4).foldl (fun b i => if x.portsUp.getLsbD i then setBits b (8 * i + 7) (8 * i) 0xFF else b) (0 : Word32) } }
/-- The module fault that the criteria of R465 give, if one fails (R466). -/
def startFault (s : State) (x : StartCfg) : Option (BitVec 8) :=
  if 3 ≤ onesOf s.iod.lost then some 0x02
  else if !x.networksOk then some 0x03
  else if (List.range 4).any (fun d => decide (9 < (failedOn x.badTiles d).length)) then some 0x04
  else if s.iod.newtsLost = 0xFF then some 0x05
  else if x.cores = 0 then some 0x06
  else if s.pwr.leakNow then some 0x0B
  else if s.pwr.dieHot then some 0x08
  else if s.pwr.vinOut ∨ !x.comparatorsOk then some 0x09
  else none
/-- Sealed flash state that cannot be opened is treated as empty (R439). -/
def openSeal (s : State) (ok : Bool) : State :=
  if ok then s
  else
    let s := { s with pair := { s.pair with partner := none, rank := 0, st := 0 }, mod := { s.mod with gen := 0, salt := s.mod.salt + 1, sealReset := true }, log := [], saved := {} }
    faultLog s 11 1 0xFF 0 0 0xFFFF 0
/-- Steps 4 to 10 of R463, and of R467 on a restored state: secure boot, ports, DRAM, tiles, newts and cores, READY. -/
def bringUp (s : State) (x : StartCfg) (cause : BitVec 8) : State :=
  let s := { s with mod := { s.mod with slotId := x.slotId, flashWp := x.flashWp, pwrGood := true, svnMin := if s.mod.svnMin = 0 then Config.fusedSvnMin else s.mod.svnMin } }
  let s := emit s (.pin 11 true)
  if !x.slotOk ∧ !x.otherOk then
    { s with ready := false, mod := { s.mod with recovery := true, lifeStarted := false, waitStart := some (cause, x) } }
  else
    let s := { s with mod := { s.mod with
      fwSlot := if x.slotOk then s.mod.fwSlot else !s.mod.fwSlot, otherBad := !x.slotOk || !x.otherOk, recovery := false, lifeStarted := true, stopped := none, restartOk := true
      leakShutdown := false, waitStart := none, cores := x.cores, fwVersion := if s.mod.fwVersion = 0 then Config.firmwareVersion else s.mod.fwVersion
      fwSvn := if s.mod.fwSvn = 0 then Config.firmwareSvn else s.mod.fwSvn } }
    let s := setAlert (openSeal { s with pwr := { s.pwr with wakeSuppressed := false } } x.sealOk) false
    let s := if x.refclk then s else pinFinding { s with pwr := { s.pwr with refLocal := true } } 19 5
    let s := raisePorts { s with pair := { s.pair with aliveOut := .mhz1, selfAsleep := false, sleepConfirmed := false, st := if s.pair.partner.isSome ∧ s.pair.st = 0 then 3 else s.pair.st } } x
    let new := (List.range 32).filter (fun k => x.lostPkgs.getLsbD k && !s.iod.lost.getLsbD k)
    let s := new.foldl (fun s k => faultLog s 4 0 0xFF 5 k 0xFFFF 0) { s with iod := { s.iod with lost := s.iod.lost ||| x.lostPkgs } }
    let newN := (List.range 8).filter (fun n => x.newtsLost.getLsbD n && !s.iod.newtsLost.getLsbD n)
    let s := newN.foldl (fun s n => faultLog s 9 0 0xFF 5 n 0xFFFF 0) { s with iod := { s.iod with newtsLost := s.iod.newtsLost ||| x.newtsLost } }
    let s := (List.range 4).foldl (fun s d => mapDie s x.badTiles d) { s with iod := { s.iod with badPhys := (s.iod.badPhys ++ x.badTiles.map (fun (q : Nat × Nat) => q.1 * 17 + q.2)).dedup } }
    match startFault s x with
    | some c => moduleStop s c
    | none => settleDomains { s with ready := true, resetCause := cause }
/-- Start-up from the kettle on (R463): it waits at step 2 for a restart condition (R466). -/
def startUp (s : State) (x : StartCfg) (cause : BitVec 8) : State :=
  let s := { s with pwr := { reloaded s.pwr with dev := 0 } }
  if !s.mod.restartOk then { s with mod := { s.mod with waitStart := some (cause, x) } }
  else bringUp s x cause
/-- The module is powered: it runs, waits to start, or is in recovery. -/
def powered (s : State) : Bool := s.mod.lifeStarted || s.mod.recovery || s.mod.waitStart.isSome
/-- VIN becomes valid and the kettle starts (R406, R460, R463): the module may have been serviced, so start-up alone says what is lost
(R203, R279). -/
def execPowerOn (x : StartCfg) (s : State) : Res :=
  if powered s then .next s else .next (startUp { kettleOnly s with iod := {}, pwr := { vinOut := s.pwr.vinOut, vin10mv := s.pwr.vin10mv, leakNow := s.pwr.leakNow } } x 0x01)
/-- RESET_N (R460, R462): every domain but PD19. -/
def execResetN (x : StartCfg) (s : State) : Res :=
  if !powered s then .next s
  else
    let k := kettleOnly { s with pair := { s.pair with aliveOut := .static } }
    .next (startUp { k with mod := { k.mod with leakShutdown := s.mod.leakShutdown } } x 0x03)
/-- A start-up that waits goes on when its restart condition holds (R466). -/
def resumeStart (s : State) : State :=
  match s.mod.waitStart with
  | some (cause, x) => if s.mod.recovery ∨ !s.mod.restartOk then s else bringUp s x cause
  | none => s
/-- Start-up has not reached READY within 3 s (R466). -/
def execStartupTimeout (s : State) : Res :=
  if s.ready ∨ s.mod.stopped.isSome ∨ !powered s ∨ 4 ≤ s.pwr.dev then .next s else .next (moduleStop s 0x07)

/-- State of A4 is restored (R408, R467 step 5): programs are loaded again, and partitions take their states anew. -/
def restoreA4 (s : State) : State :=
  let v : Saved := s.saved
  let s := { s with rings := v.rings, table := v.table, tiles := v.tiles, parts := v.parts.map (fun (q : Nat × Part) => (q.1, { q.2 with pstate := 0, waking := none })), saved := {} }
  s.parts.foldl (fun (s : State) (q : Nat × Part) => loadPrograms s q.1) s
/-- The exit from A4, and from A5, which is a full start-up (R408, R460, R467). -/
def execA4Exit (x : StartCfg) (s : State) : Res :=
  if s.mod.leakShutdown ∨ (s.pwr.dev ≠ 4 ∧ s.pwr.dev ≠ 5) then .next s
  else if s.pwr.dev = 5 then .next (startUp s x 0x05)
  else
    let s := openWindow { s with pwr := { reloaded s.pwr with dev := 0, pmeDone := false } }
    let s := { s with pwr := { s.pwr with leftA4 := some (now s) } }
    .next (bringUp (if s.saved.valid ∧ x.sealOk ∧ (x.slotOk ∨ x.otherOk) then restoreA4 s else { s with saved := {} }) x s.resetCause)

/-- Rings that a test names forget their commands and return to reset but for RING_COUNT (R290, R344, R461). -/
def resetRings (s : State) (mine : Nat → Bool) : State :=
  { s with
    rings := s.rings.filterMap (fun q => if mine q.1 then (if q.2.count = 0 then none else some (q.1, { count := q.2.count })) else some q)
    fwQueue := s.fwQueue.filter (fun c => !mine c.ring)
    fab := { s.fab with groups := s.fab.groups.map (fun g => (g.1, { g.2 with cmd := g.2.cmd.filter (fun c => !mine c.1), endCmd := g.2.endCmd.filter (fun c => !mine c.1) })) }
    pair := { s.pair with held := s.pair.held.filter (fun q => !mine q.2.ring), configs := s.pair.configs.filter (fun q => !mine q.2.ring),
                          bindCmd := s.pair.bindCmd.filter (fun c => !mine c.1), st := if s.pair.st = 1 ∧ mine 0 then 0 else s.pair.st }
    pwr := { s.pwr with tolCmds := s.pwr.tolCmds.filter (fun q => !mine q.1), capCmds := s.pwr.capCmds.filter (fun q => !mine q.1) } }
/-- A request is cancelled with no completion written (R344). -/
def silentCancel (s : State) (p : Nat) (q : Nat × Entry) : State :=
  let (i, e) := q
  if e.st = .done ∨ e.st = .failed then freeEntryAt (orphanFlights s p i e).1 i
  else if e.st = .paused then settleLent (freeEntryAt (orphanFlights (dropPours s p i) p i e).1 i) p
  else
    let s := setEntryM s i { e with st := .cancelling, newt := none, pauseAsked := [], finalPosted := true }
    match getPart? s p with
    | some x => if x.phase = .none then applyCancel s p i else s
    | none => s
/-- What a reset of VF p + 1 does to partition p (R344). -/
def resetVf (s : State) (p : Nat) : State :=
  match getPart? s p with
  | none => s
  | some x =>
    let s := resetRings s (fun r => decide (x.ringBase ≤ r) && decide (r < x.ringBase + x.ringQuota))
    let s := { s with pair := { s.pair with waitingEntries := s.pair.waitingEntries.filter (fun q => q.2.partition.toNat ≠ p) } }
    let s := (entriesOf s p).foldl (fun s q => silentCancel s p q) s
    idleCompose (settlePins s p) p
/-- A function's own state after its reset: ERR_ACCESS is kept (R290, R344). -/
def resetFunc (f : Func) (cause : BitVec 8) : Func := { errAccess := f.errAccess, resetCause := cause }
/-- FLR of VF k, or its disable (R344). -/
def execFlr (vf : Fin 64) (s : State) : Res :=
  if !s.mod.lifeStarted ∨ 4 ≤ s.pwr.dev then .next s else .next (modFunc (resetVf s vf) (vf.val + 1) (fun f => resetFunc f 0x04))
/-- VF Enable covers VF k again (R344). -/
def execVfEnable (vf : Fin 64) (s : State) : Res :=
  if !s.mod.lifeStarted ∨ 4 ≤ s.pwr.dev then .next s else .next (modFunc s (vf.val + 1) (fun f => { f with enabled := true }))
/-- A host-link reset (R461, R462): every function as in R344, push memory zeroed; before READY only the link restarts, and
in A4 and A5 nothing is discarded. -/
def execPerstN (kind : LinkReset) (s : State) : Res :=
  if !s.mod.lifeStarted ∨ 4 ≤ s.pwr.dev then .next s
  else if !s.ready then .next { s with funcs := s.funcs.map (fun q => (q.1, resetFunc q.2 0)) }
  else
    let s := s.parts.foldl (fun s q => resetVf s q.1) (resetRings s (fun r => decide (r < 8192)))
    .next { s with push := [], funcs := s.funcs.map (fun q => (q.1, resetFunc q.2 0)), resetCause := match kind with | .perst => 0x02 | .hotOrDown => 0x06 }

/-- A module fault (R395, R466); code 0x01 is no stop. -/
def execModuleFault (code : BitVec 8) (s : State) : Res :=
  if code = 0x01 then .next (if s.mod.lifeStarted then faultLog s 11 1 0xFF 0 0 0xFFFF 0 else s) else .next (tripModule s code)
/-- A control core fails (R394, R395, R397): the commands it held run again from the queue. -/
def execControlCoreFail (s : State) : Res :=
  if s.mod.cores = 0 ∨ !s.ready then .next s
  else
    let s := faultLog { s with mod := { s.mod with cores := s.mod.cores - 1 } } 8 0 0xFF 5 (s.mod.cores - 1) 0xFFFF 0
    .next (if s.mod.cores = 0 then tripModule s 0x06 else s)
/-- A DRAM package is declared lost (R203, R395). -/
def execPackageLost (pkg : Fin 32) (s : State) : Res := .next (losePackage s pkg)
/-- Stripes of the device (R198, R199). -/
def stripes : Nat := if Config.orderCode = 0x01 then 2 ^ 28 else 2 ^ 27
/-- The patrol scrub checks a stripe (R200, R201, R203): a granule of a package found erroneous is corrected unless two packages are lost;
the last stripe ends a pass. -/
def execPatrolScrubTick (stripe : Nat) (bad : Option (Fin 32)) (s : State) : Res :=
  if !s.ready ∨ stripes ≤ stripe then .next s
  else
    let s := if stripe + 1 = stripes then { s with iod := { s.iod with scrubPass := s.iod.scrubPass + 1 } } else s
    match bad with
    | some k => if 2 < erasures s [k.val] then .next (tripModule s 0x02) else .next s
    | none => .next s
/-- Errors of a caddy way (R196): a line with an uncorrectable one is invalidated; with 2 uncorrectable or 64 corrected ones in 24 hours
firmware disables the way, its lines are invalidated, and a partition with no way left runs uncached. -/
def execCaddyWayDisable (w : WayErrors) (s : State) : Res :=
  if s.iod.waysOff.getLsbD w.way ∨ !s.ready then .next s
  else
    let bad := fun (k : CaddyLine) => decide (k.way = w.way.val) && w.errs.any (fun e => e.uncorrectable && decide (e.part = k.part) && decide (e.line = k.line))
    let l := ((tabGetD s.iod.wayErrs w.way.val []).filter (fun q => decide (now s < q.2 + 86400000000000))) ++ w.errs.map (fun e => (e.uncorrectable, now s))
    let s := { s with iod := { s.iod with caddy := s.iod.caddy.filter (fun k => !bad k), wayErrs := tabInsert w.way.val l s.iod.wayErrs } }
    if 2 ≤ (l.filter (fun q => q.1)).length ∨ 64 ≤ (l.filter (fun q => !q.1)).length then
      .next (faultLog { s with iod := { s.iod with waysOff := setBit s.iod.waysOff w.way true, caddy := s.iod.caddy.filter (fun k => decide (k.way ≠ w.way.val)) } } 10 0 0xFF 5 w.way 0xFFFF 0)
    else .next s

/-- LANE_DIAG after a training (R458, R471). -/
def laneDiag (old : Word64) (x : Training) : Word64 :=
  BitVec.ofNat 64 (b2n x.crossed * 2 ^ 63 + b2n x.reversed * 2 ^ 62 + b2n x.permuted * 2 ^ 61 + x.inverted.toNat * 2 ^ 48 + x.openTx.toNat * 2 ^ 40 + x.openRx.toNat * 2 ^ 32
    + min 0xFFFF (bits old 31 16 + 1) * 2 ^ 16)
/-- Lane faults that a training newly finds write a record of the port's class (R459). -/
def laneFaultLog (s : State) (port : Nat) (old new : Word64) : State :=
  let f := fun (w : Word64) => w &&& 0xA000FFFF00000000
  if f new = 0 ∨ f new = f old then s
  else if port < 16 then faultLog s 5 2 0xFF 0 port 0xFFFF (new.setWidth 128)
  else if port < 18 then faultLog s 7 2 0xFF 0 port 0xFFFF (new.setWidth 128)
  else faultLog s 6 2 0xFF 0 (32 + port - 18) 0xFFFF (new.setWidth 128)
/-- A port that is down trains again (R354, R458, R459): Strelmal and mirror ports at the widest working width, pour ports
with all 8 lanes. -/
def execTrainingRetryTimer (port : Fin 22) (x : Training) (s : State) : Res :=
  let up := if port.val < 18 then portUp (getPort s port) else s.iod.portsUp.getLsbD (port.val - 18)
  if !s.mod.lifeStarted ∨ s.mod.stopped.isSome ∨ 3 ≤ s.pwr.dev ∨ up ∨ (port.val < 18 ∧ portFenced (getPort s port)) then .next s
  else
    let x := if port.val < 18 then { x with inverted := x.inverted &&& 0xF, openTx := x.openTx &&& 0xF, openRx := x.openRx &&& 0xF, lanesOk := x.lanesOk &&& 0xF } else x
    let old := tabGetD s.mod.lanes port.val 0
    let s := laneFaultLog { s with mod := { s.mod with lanes := tabInsert port.val (laneDiag old x) s.mod.lanes } } port old (laneDiag old x)
    let ok : BitVec 8 := if x.crossed then 0 else x.lanesOk &&& ~~~x.openTx &&& ~~~x.openRx
    let s := if port.val < 18 then modPort s port (fun q => { q with status := setBit q.status 57 x.crossed }) else s
    if port.val < 16 then .next (if ok = 0 then s else portRise s port (ok.setWidth 4))
    else if port.val < 18 then .next (if ok = 0 then s else mirrorPortBack s (port.val - 16) (ok.setWidth 4))
    else
      let i := port.val - 18
      let s := { s with iod := { s.iod with portLanes := setBits s.iod.portLanes (8 * i + 7) (8 * i) ok.toNat } }
      .next (if ok = 0xFF ∧ !s.iod.portsFenced.getLsbD i then { s with iod := { s.iod with portsUp := setBit s.iod.portsUp i true } } else s)
/-- A lane fails in service (R348): the port retrains at 2 lanes or 1, or goes down; packets unacknowledged are sent again. -/
def execLaneFailure (port : Fin 18) (lane : Fin 4) (s : State) : Res :=
  let q := getPort s port
  let lanes := BitVec.ofNat 4 (bits q.status 55 52)
  if !portUp q ∨ !lanes.getLsbD lane then .next s
  else
    let left := setBit lanes lane.val false
    if left = 0 then .next (if port.val < 16 then portDown s port else mirrorPortLost s (port.val - 16))
    else
      let s := trained (modPort s port (fun q => { q with status := withLanes q.status left })) port
      let s := faultLog s (if port.val < 16 then 5 else 7) 2 0xFF 0 port 0xFFFF 0
      .next ((List.range 4).foldl (fun s v => resend s port v) s)

/-- The MCTP endpoint answers (R463 step 3). -/
def sidebandUp (s : State) : Bool := (s.mod.lifeStarted || s.mod.recovery) && decide (s.pwr.dev < 4)
/-- A measurement block's digest (R430). -/
def measurement (s : State) (i : Nat) : List Byte :=
  let b := fun (v : BitVec 384) => natToBytes 48 v.toNat
  if 1 ≤ i ∧ i ≤ 4 then b (Config.stageMeasurement i s.mod.fwVersion)
  else if i = 5 then b (Config.sha384 (natToBytes 2 s.mod.svnMin.toNat ++ natToBytes 1 s.mod.lifecycle.toNat))
  else if i = 6 then b (s.pair.partner.getD 0)
  else b ((((getPart? s (i - 0x20)).bind (·.image)).map (·.measurement)).getD 0)
/-- Whether a measurement index is answered (R425, R430). -/
def measured (s : State) (i : Nat) : Bool :=
  if s.mod.recovery then i = 1 || i = 2 else (decide (1 ≤ i) && decide (i ≤ 6)) || (decide (0x20 ≤ i) && decide (i < 0x60))
/-- An SPDM request is answered (R425, R429, R430; message bodies: log entry 8). -/
def execSpdmRequest (r : SpdmReq) (s : State) : Res :=
  if !sidebandUp s then .next s
  else match r with
    | .getMeasurements i =>
      if i = 0xFF then .next (emit s (.spdm 0x60 (((List.range 96).filter (fun k => measured s k)).flatMap (fun k => measurement s k))))
      else if measured s i.toNat then .next (emit s (.spdm 0x60 (measurement s i.toNat)))
      else .next (emit s (.spdm 0x7F [0x01]))
    | .keyExchange =>
      if s.mod.recovery then .next s
      else if 4 ≤ s.mod.sessions then .next (emit s (.spdm 0x7F [0x03]))
      else .next (emit { s with mod := { s.mod with sessions := s.mod.sessions + 1 } } (.spdm 0x64 (Config.spdmBody 0xE4 [])))
    | .endSession => if s.mod.recovery ∨ s.mod.sessions = 0 then .next s else .next (emit { s with mod := { s.mod with sessions := s.mod.sessions - 1 } } (.spdm 0x6C []))
    | .setCertificate => if s.mod.recovery then .next s else .next (emit s (.spdm 0x7F [0x07]))
    | .challenge nonce => if s.mod.recovery then .next s else .next (emit s (.spdm 0x03 (Config.spdmBody 0x83 nonce)))
    | .other code body => if s.mod.recovery then .next s else .next (emit s (.spdm (code &&& 0x7F) (Config.spdmBody code body)))
/-- A firmware image passes R423 and R424. -/
def imageVerified (s : State) (i : FwImage) : Bool := i.signed && decide (s.mod.svnMin.toNat ≤ i.svn.toNat)
/-- A PLDM request (R425, R457, R466): an update in recovery restarts start-up; telemetry is answered. -/
def execPldmRequest (r : PldmReq) (s : State) : Res :=
  if !sidebandUp s then .next s
  else match r with
    | .telemetry body => if s.mod.recovery then .next s else .next (emit s (.pldm (Config.pldmBody body)))
    | .fwUpdate i =>
      match s.mod.recovery, s.mod.waitStart with
      | true, some (cause, x) =>
        if s.mod.flashWp ∨ !imageVerified s i then .next s
        else .next (startUp { s with mod := { s.mod with recovery := false, fwVersion := i.version, fwSvn := i.svn } } { x with slotOk := true } cause)
      | _, _ => .next s

end Sys2Proof.Machine
end

