-- ==== Sys2Proof/Machine/Firmware.lean ====
section
/-! DEFINITION. Firmware.lean: the service commands, and the control cores taking commands from the firmware queue (R316,
R318-R321, R398, R400, R425, R457). -/

namespace Sys2Proof.Machine

open Sys2Proof

/-- The registers that give capacity and the tiles in service, with which the records begin (R2, R92, R293; log entry 159): DEV_INFO,
DEV_DRAM, and PART_INFO of each partition the function sees. -/
def capacityOf (s : State) (fn : Nat) : List (Nat × Word64) :=
  [(0, regValue s fn (.dev 0)), (8, regValue s fn (.dev 8))] ++
  (if fn = 0 then s.parts.map (fun q => (0x1000000 + 0x10000 * q.1, regValue s fn (.part q.1 0))) else [(0x1000000, regValue s fn (.part (fn - 1) 0))])
/-- Counters of a function's window in ascending offset (R284, R316): those of its rings, its partitions and their tiles, and
on the PF the device's. -/
def countersOf (s : State) (fn : Nat) : List (Nat × Word64) :=
  let glob := if fn = 0 then (List.range 0xC0).filterMap (fun i => if globListed (8 * i) ∧ regCounter (.glob (8 * i)) then some (0x10000 + 8 * i, globValue s (8 * i)) else none) else []
  let ring := (List.range (ringsShown s fn)).map (fun i => (0x100000 + 64 * i + 0x28, regValue s fn (.ring (ringFirst s fn + i) 0x28)))
  let part := fun (base p : Nat) => match getPart? s p with
    | none => []
    | some x =>
      (List.range 18).map (fun k => (base + 0x100 + 8 * k, regValue s fn (.part p (0x100 + 8 * k)))) ++
      (maskTiles x.tileMask).flatMap (fun t => (List.range 20).map (fun k => (base + 0x8000 + 512 * t + 0x40 + 8 * k, regValue s fn (.tile t (0x40 + 8 * k)))))
  let parts := if fn = 0 then s.parts.flatMap (fun q => part (0x1000000 + 0x10000 * q.1) q.1) else part 0x1000000 (fn - 1)
  capacityOf s fn ++ glob ++ ring ++ parts
/-- Sensors and power (R316 SET 1): the registers of the global status block that hold them (R421, R469, R470). -/
def sensorsOf (s : State) : List (Nat × Word64) := [0x80, 0x88, 0xC0, 0xF0, 0xF8].map (fun o => (0x10000 + o, globValue s o))
/-- TELEMETRY_READ takes effect (R316). -/
def doTelemetry (s : State) (ring : Nat) (p : Packet) (hostOk : Bool) : State :=
  let n := p.le 24 4
  match p.badByte [(16, 14)] with
  | some b => badParam s ring p b
  | none =>
    if p.le 16 8 % 64 ≠ 0 then badParam s ring p 16
    else if n % 16 ≠ 0 ∨ 1048576 < n then badParam s ring p 24
    else if 1 < p.le 28 2 then badParam s ring p 28
    else if p.le 28 2 = 1 ∧ ringLevel s ring ≠ 2 then notPermitted s ring p
    else
      let fn := ringFunc s ring
      let l := (if p.le 28 2 = 1 then sensorsOf s else countersOf s fn).take (n / 16)
      let b := l.flatMap (fun q => natToBytes 8 q.1 ++ natToBytes 8 q.2.toNat)
      if hostOk then finish (emit s (.hostWrite fn (BitVec.ofNat 64 (p.le 16 8)) b)) ring p stOK (BitVec.ofNat 128 (resAt 16 b.length + resAt 24 s.pwr.timebase.toNat))
      else finish (emit s (.hostUndefined (BitVec.ofNat 64 (p.le 16 8)) b.length)) ring p stFAULT 0

/-- The 64 bytes of a fault-log record (R400). -/
def recordBytes (r : LogRec) : List Byte :=
  let b := natToBytes 8 r.seq ++ natToBytes 8 r.time.toNat ++ [r.cls, r.code, r.part, r.action] ++ natToBytes 2 r.unit.toNat ++ natToBytes 2 r.physical.toNat ++ natToBytes 4 r.interruption.toNat
    ++ natToBytes 4 r.steep.toNat ++ natToBytes 16 r.detail.toNat ++ List.replicate 12 0
  b ++ natToBytes 4 (crc32c b).toNat
/-- LOG_READ takes effect (R316). -/
def doLogRead (s : State) (ring : Nat) (p : Packet) (hostOk : Bool) : State :=
  let n := p.le 24 4
  let start := p.le 28 8
  match p.badByte [(16, 20)] with
  | some b => badParam s ring p b
  | none =>
    if n % 64 ≠ 0 then badParam s ring p 24
    else
      let fn := ringFunc s ring
      let sees := fun (k : Nat) => ringLevel s ring = 2 || k = 0xFF || k = partNo s ring
      let l := (s.log.filter (fun r => decide (start ≤ r.seq) && sees r.part.toNat)).take (n / 64)
      let lost := (s.logLost.filter (fun q => decide (start ≤ q.2) && sees q.1)).length
      let next := match l.getLast? with
        | some r => r.seq + 1
        | none => max start ((s.log.head?.map (·.seq)).getD start)
      let b := l.flatMap recordBytes
      if hostOk then finish (emit s (.hostWrite fn (BitVec.ofNat 64 (p.le 16 8)) b)) ring p stOK (BitVec.ofNat 128 (resAt 16 l.length + resAt 20 (lost % 2 ^ 32) + resAt 24 (next % 2 ^ 64)))
      else finish (emit s (.hostUndefined (BitVec.ofNat 64 (p.le 16 8)) b.length)) ring p stFAULT 0

/-- SELFTEST takes effect (R316): the units tested that pass. -/
def doSelftest (s : State) (ring : Nat) (p : Packet) (pass : BitVec 8) : State :=
  match p.badByte [(16, 1)] with
  | some b => badParam s ring p b
  | none =>
    let m := p.le 16 1
    if 15 < m then badParam s ring p 16
    else finish s ring p stOK (BitVec.ofNat 128 (resAt 16 (BitVec.ofNat 8 m &&& pass).toNat + resAt 17 (BitVec.ofNat 8 m &&& ~~~pass).toNat))
/-- FIRMWARE_STAGE takes effect (R316, R424, R457). -/
def doStage (s : State) (ring : Nat) (p : Packet) (img : Option FwImage) : State :=
  match p.badByte [(16, 12)] with
  | some b => badParam s ring p b
  | none =>
    if 33554432 < p.le 24 4 then badParam s ring p 24
    else if s.mod.flashWp then notPermitted s ring p
    else match img with
      | none => finish s ring p stFAULT 0
      | some i =>
        if imageVerified s i then finish { s with mod := { s.mod with staged := some i } } ring p stOK 0
        else badParam { s with mod := { s.mod with staged := none } } ring p 0xFF
/-- FIRMWARE_ACTIVATE takes effect (R316, R398, R430). -/
def doActivate (s : State) (ring : Nat) (p : Packet) (newOk partnerOk : Bool) : State :=
  match p.badByte [(16, 2)] with
  | some b => badParam s ring p b
  | none => match s.mod.staged with
    | none => badParam s ring p 16
    | some i =>
      if i.version.toNat ≠ p.le 16 2 then badParam s ring p 16
      else if !partnerOk ∧ s.pair.partner.isSome then notPermitted s ring p
      else if !newOk then finish (faultLog s 16 1 0xFF 0 0 0xFFFF 0) ring p stFAULT 0
      else finish (faultLog { s with mod := { s.mod with fwSlot := !s.mod.fwSlot, fwVersion := i.version, fwSvn := i.svn, staged := none, sessions := 0 } } 16 0 0xFF 0 0 0xFFFF 0) ring p stOK 0

/-- A firmware command is carried out, by its opcode, with what its reads returned. -/
def runFirmware (s : State) (c : FwCmd) : State :=
  match c.opcode.toNat, c.input with
  | 0x03, _ => doPause s c.ring c.p
  | 0x04, _ => doResume s c.ring c.p
  | 0x06, .hostOk b => doQuery s c.ring c.p b
  | 0x10, _ => doPartitionCreate s c
  | 0x11, _ => doPartitionDestroy s c
  | 0x12, _ => doTenantConfigure s c
  | 0x13, .image r => doModelLoad s c.ring c.p r
  | 0x14, _ => doModelUnload s c.ring c.p
  | 0x15, _ => doPin s c.ring c.p
  | 0x16, _ => doUnpin s c.ring c.p
  | 0x20, _ => doTargetAdd s c.ring c.p
  | 0x21, _ => doTargetRemove s c.ring c.p
  | 0x30, .members l => doGroupCreate s c.ring c.p l
  | 0x31, _ => doGroupDestroy s c.ring c.p
  | 0x40, _ => doTolerance s c.ring c.p
  | 0x41, _ => doPowerCap s c.ring c.p
  | 0x50, .bind b => doPairBind s c.ring c.p b
  | 0x51, _ => doPairUnbind s c.ring c.p
  | 0x52, _ => doPairStatus s c.ring c.p
  | 0x60, .hostOk b => doTelemetry s c.ring c.p b
  | 0x61, .hostOk b => doLogRead s c.ring c.p b
  | 0x70, .mask m => doSelftest s c.ring c.p m
  | 0x71, .fw i => doStage s c.ring c.p i
  | 0x72, .activate a b => doActivate s c.ring c.p a b
  | _, _ => finish s c.ring c.p stFAULT 0
/-- The control cores take the next command of the firmware queue and carry it out (R318, R320, R397). -/
def execFirmwareQueueDispatch (s : State) : Res :=
  match s.fwQueue with
  | [] => .next s
  | c :: r => if !s.ready ∨ s.mod.cores = 0 then .next s else .next (runFirmware { s with fwQueue := r } c)

def execSetWakeTolerance (ring : Nat) (p : Packet) (s : State) : Res := decodeCmd s ring 0x40 p .none
def execSetPowerCap (ring : Nat) (p : Packet) (s : State) : Res := decodeCmd s ring 0x41 p .none
def execTelemetryRead (ring : Nat) (p : Packet) (hostOk : Bool) (s : State) : Res := decodeCmd s ring 0x60 p (.hostOk hostOk)
def execLogRead (ring : Nat) (p : Packet) (hostOk : Bool) (s : State) : Res := decodeCmd s ring 0x61 p (.hostOk hostOk)
def execSelftest (ring : Nat) (p : Packet) (pass : BitVec 8) (s : State) : Res := decodeCmd s ring 0x70 p (.mask pass)
def execFirmwareStage (ring : Nat) (p : Packet) (img : Option FwImage) (s : State) : Res := decodeCmd s ring 0x71 p (.fw img)
def execFirmwareActivate (ring : Nat) (p : Packet) (newOk partnerOk : Bool) (s : State) : Res := decodeCmd s ring 0x72 p (.activate newOk partnerOk)

end Sys2Proof.Machine
end

