-- ==== Sys2Proof/Machine/Tick.lean ====
section
/-! DEFINITION. Tick.lean: what one nanosecond does when no command waits (log entry 2): the clocks, credits and counters of
waits (R76, R177, R190, R223, R226, R339, R369, R403-R406, R421), and a start-up that goes on (R466). -/

namespace Sys2Proof.Machine

open Sys2Proof

/-- ACLK in MHz by step (R403). -/
def aclkMhz (step : Nat) : Nat := if step = 0 then 1500 else if step = 1 then 1200 else if step = 2 then 1000 else 750
/-- DCLK edges of the nanosecond after `t`, at 1.2 GHz (R403). -/
def dclkEdges (t : Nat) : Nat := (t + 1) * 6 / 5 - t * 6 / 5
/-- The kettle's clock (R403, R406): 32 768 Hz. -/
def tickKettle (w : Power) : Power :=
  let f := w.frac + 32768
  if 1000000000 ≤ f then { w with tick := w.tick + 1, frac := f - 1000000000 } else { w with frac := f }
/-- The array's oldest instruction waits for its A operand, or its B operand (R76): a claim of it is not taken. -/
def feederDry (x : Tile) (opnd : Nat) : Bool :=
  match x.mats with | m :: _ => x.claims.any (fun q => !q.taken && decide (q.op = m.id) && !q.remote && decide (q.opnd = opnd)) | [] => false
/-- Counters of a tile's waits over `n` ACLK and one nanosecond (R76, R177, R223, R226), and how long its claims wait. A head waits for a
slot (cause 5) or for the drain unit (cause 9). -/
def tickTile (s : State) (n : Nat) (x : Tile) : Tile :=
  let waits := fun (f : Ctx → Bool) => x.ctx.any (fun q => q.2.st = .waiting && f q.2)
  let add := fun (b : Bool) (off : Nat) (x : Tile) => if b then tileCtr x off n else x
  let x' := add (waits (fun k => k.cause = 1)) 0xA0 (add (waits (fun k => k.cause = 2)) 0xA8 (add (waits (fun k => k.cause = 3)) 0xB0 (add (waits (fun k => k.cause = 6)) 0x68
    (add (waits (fun k => k.cause = 5 || (k.cause = 9 && decide (k.unit = 4)))) 0x60 (add (x.claims.any (fun q => !q.taken)) 0x88
    (add (feederDry x 0) 0x48 (add (feederDry x 1) 0x50 (add (match x.drains with | d :: _ => d.started && drainWaits s x d | [] => false) 0x58 x))))))))
  let x' := if x.lending then tileCtr x' 0xD8 1 else x'
  { x' with claims := x.claims.map (fun q => if q.taken then q else { q with waited := q.waited + 1 }) }
/-- Growth of a class's credit in a nanosecond, in 1/102 400 bytes, up to 65 536 bytes (R190). -/
def growCredit (c : Int) (share pct : Nat) : Int := min 6710886400 (c + (1886 * share * pct : Nat))
/-- A partition's nanosecond: credits grow; waits for credit and for log space count (R190, R339). -/
def tickPart (s : State) (x : Part) : Part :=
  let e := dclkEdges (now s)
  let y := if x.waitRd then partCtrOf x 0x100 e else x
  let y := if x.waitWr then partCtrOf y 0x108 e else y
  let y := if x.waitRm then partCtrOf y 0x110 e else y
  let y := if x.targets.any (fun t => t.2.st = .waiting) then partCtrOf y 0x188 1 else y
  let share := bits x.regulator 42 32
  { y with creditRd := growCredit x.creditRd share (bits x.regulator 7 0), creditWr := growCredit x.creditWr share (bits x.regulator 15 8),
           creditRm := growCredit x.creditRm share (bits x.regulator 23 16) }
/-- The newts' credit grows by 164 bytes a nanosecond (R190). -/
def tickNewts (i : Iod) : Iod := { i with creditNewt := min 6710886400 (i.creditNewt + 16793600) }
/-- One nanosecond with no command waiting. -/
def tick (s : State) : State :=
  if !powered s then s
  else
    let s := resumeStart { s with pwr := tickKettle s.pwr }
    if 4 ≤ s.pwr.dev ∨ s.pwr.captured.isSome then s
    else
      let s' := { s with pwr := { s.pwr with timebase := s.pwr.timebase + 1, throttleNs := if 0 < s.pwr.theta ∨ 0 < s.pwr.step then s.pwr.throttleNs + 1 else s.pwr.throttleNs } }
      if !s.ready ∨ s.pwr.dev = 3 then s'
      else
        let f := s.pwr.aclkFrac + aclkMhz s.pwr.step
        { s' with
          pwr := { s'.pwr with aclkFrac := f % 1000 }
          parts := s.parts.map (fun q => (q.1, tickPart s q.2))
          iod := tickNewts s.iod
          tiles := s.tiles.map (fun q => (q.1, tickTile s (f / 1000) q.2)) }

end Sys2Proof.Machine
end

