-- ==== Sys2Proof/Machine/Dispatch.lean ====
section
/-! DEFINITION. Dispatch.lean: one arm per command, one direct call of its meaning. -/

namespace Sys2Proof.Machine

/-- The effect of a command on everything but the queue. -/
def exec (i : Instr) (s : State) : Host.Outcome State Fault Refusal :=
  match i with
  | .submitPrompt ring p => Sys2Proof.Machine.execSubmitPrompt ring p s
  | .cancel ring p => Sys2Proof.Machine.execCancel ring p s
  | .pause ring p => Sys2Proof.Machine.execPause ring p s
  | .resume ring p => Sys2Proof.Machine.execResume ring p s
  | .setPriority ring p => Sys2Proof.Machine.execSetPriority ring p s
  | .queryRequest ring p hostOk => Sys2Proof.Machine.execQueryRequest ring p hostOk s
  | .partitionCreate ring p => Sys2Proof.Machine.execPartitionCreate ring p s
  | .partitionDestroy ring p => Sys2Proof.Machine.execPartitionDestroy ring p s
  | .tenantConfigure ring p => Sys2Proof.Machine.execTenantConfigure ring p s
  | .modelLoad ring p rd => Sys2Proof.Machine.execModelLoad ring p rd s
  | .modelUnload ring p => Sys2Proof.Machine.execModelUnload ring p s
  | .prefixPin ring p => Sys2Proof.Machine.execPrefixPin ring p s
  | .prefixUnpin ring p => Sys2Proof.Machine.execPrefixUnpin ring p s
  | .pourTargetAdd ring p => Sys2Proof.Machine.execPourTargetAdd ring p s
  | .pourTargetRemove ring p => Sys2Proof.Machine.execPourTargetRemove ring p s
  | .groupCreate ring p list => Sys2Proof.Machine.execGroupCreate ring p list s
  | .groupDestroy ring p => Sys2Proof.Machine.execGroupDestroy ring p s
  | .setWakeTolerance ring p => Sys2Proof.Machine.execSetWakeTolerance ring p s
  | .setPowerCap ring p => Sys2Proof.Machine.execSetPowerCap ring p s
  | .pairBind ring p partner => Sys2Proof.Machine.execPairBind ring p partner s
  | .pairUnbind ring p => Sys2Proof.Machine.execPairUnbind ring p s
  | .pairStatus ring p => Sys2Proof.Machine.execPairStatus ring p s
  | .telemetryRead ring p hostOk => Sys2Proof.Machine.execTelemetryRead ring p hostOk s
  | .logRead ring p hostOk => Sys2Proof.Machine.execLogRead ring p hostOk s
  | .selftest ring p pass => Sys2Proof.Machine.execSelftest ring p pass s
  | .firmwareStage ring p img => Sys2Proof.Machine.execFirmwareStage ring p img s
  | .firmwareActivate ring p newOk partnerOk => Sys2Proof.Machine.execFirmwareActivate ring p newOk partnerOk s
  | .nop ring p => Sys2Proof.Machine.execNop ring p s
  | .unknownOpcodeCommand ring opcode p => Sys2Proof.Machine.execUnknownOpcodeCommand ring opcode p s
  | .doorbellWrite fn offset be v => Sys2Proof.Machine.execDoorbellWrite fn offset be v s
  | .pushWrite fn offset bytes => Sys2Proof.Machine.execPushWrite fn offset bytes s
  | .pullFetchDone ring entries => Sys2Proof.Machine.execPullFetchDone ring entries s
  | .completionWrite ring hostOk => Sys2Proof.Machine.execCompletionWrite ring hostOk s
  | .interruptAgeExpiry ring => Sys2Proof.Machine.execInterruptAgeExpiry ring s
  | .ringEnable fn index v => Sys2Proof.Machine.execRingEnable fn index v s
  | .ringDisable fn index v => Sys2Proof.Machine.execRingDisable fn index v s
  | .pairedLowWrite fn offset v => Sys2Proof.Machine.execPairedLowWrite fn offset v s
  | .counterLowRead fn offset => Sys2Proof.Machine.execCounterLowRead fn offset s
  | .unmappedRead fn r => Sys2Proof.Machine.execUnmappedRead fn r s
  | .registerWrite fn offset be v => Sys2Proof.Machine.execRegisterWrite fn offset be v s
  | .bar4Access vf offset be write => Sys2Proof.Machine.execBar4Access vf offset be write s
  | .portUnfence port => Sys2Proof.Machine.execPortUnfence port s
  | .kettleOff => Sys2Proof.Machine.execKettleOff s
  | .nopInstruction t c w => Sys2Proof.Machine.execNopInstruction t c w s
  | .endI t c w => Sys2Proof.Machine.execEndI t c w s
  | .jmp t c w => Sys2Proof.Machine.execJmp t c w s
  | .br t c w => Sys2Proof.Machine.execBr t c w s
  | .loop t c w => Sys2Proof.Machine.execLoop t c w s
  | .sli t c w => Sys2Proof.Machine.execSli t c w s
  | .sadd t c w => Sys2Proof.Machine.execSadd t c w s
  | .ssub t c w => Sys2Proof.Machine.execSsub t c w s
  | .smul t c w => Sys2Proof.Machine.execSmul t c w s
  | .sand t c w => Sys2Proof.Machine.execSand t c w s
  | .sor t c w => Sys2Proof.Machine.execSor t c w s
  | .sxor t c w => Sys2Proof.Machine.execSxor t c w s
  | .sshl t c w => Sys2Proof.Machine.execSshl t c w s
  | .sshr t c w => Sys2Proof.Machine.execSshr t c w s
  | .sshrl t c w => Sys2Proof.Machine.execSshrl t c w s
  | .smin t c w => Sys2Proof.Machine.execSmin t c w s
  | .smax t c w => Sys2Proof.Machine.execSmax t c w s
  | .sld t c w => Sys2Proof.Machine.execSld t c w s
  | .sst t c w => Sys2Proof.Machine.execSst t c w s
  | .bset t c w => Sys2Proof.Machine.execBset t c w s
  | .mld t c w => Sys2Proof.Machine.execMld t c w s
  | .mst t c w => Sys2Proof.Machine.execMst t c w s
  | .mrng t c w => Sys2Proof.Machine.execMrng t c w s
  | .mvalid t c w => Sys2Proof.Machine.execMvalid t c w s
  | .mseg t c w => Sys2Proof.Machine.execMseg t c w s
  | .rmap t c w => Sys2Proof.Machine.execRmap t c w s
  | .frd t c w => Sys2Proof.Machine.execFrd t c w s
  | .tmma t c w => Sys2Proof.Machine.execTmma t c w s
  | .tmmaL t c w => Sys2Proof.Machine.execTmmaL t c w s
  | .tmmaF t c w => Sys2Proof.Machine.execTmmaF t c w s
  | .rescale t c w => Sys2Proof.Machine.execRescale t c w s
  | .lswap t c w => Sys2Proof.Machine.execLswap t c w s
  | .drain t c w => Sys2Proof.Machine.execDrain t c w s
  | .vmov t c w => Sys2Proof.Machine.execVmov t c w s
  | .vadd t c w => Sys2Proof.Machine.execVadd t c w s
  | .vsub t c w => Sys2Proof.Machine.execVsub t c w s
  | .vmul t c w => Sys2Proof.Machine.execVmul t c w s
  | .vfma t c w => Sys2Proof.Machine.execVfma t c w s
  | .vmin t c w => Sys2Proof.Machine.execVmin t c w s
  | .vmax t c w => Sys2Proof.Machine.execVmax t c w s
  | .vdiv t c w => Sys2Proof.Machine.execVdiv t c w s
  | .vsqrt t c w => Sys2Proof.Machine.execVsqrt t c w s
  | .vexp2 t c w => Sys2Proof.Machine.execVexp2 t c w s
  | .vrsum t c w => Sys2Proof.Machine.execVrsum t c w s
  | .vrmax t c w => Sys2Proof.Machine.execVrmax t c w s
  | .vcvt t c w => Sys2Proof.Machine.execVcvt t c w s
  | .srun t c w => Sys2Proof.Machine.execSrun t c w s
  | .sstop t c w => Sys2Proof.Machine.execSstop t c w s
  | .signal t c w => Sys2Proof.Machine.execSignal t c w s
  | .wait t c w => Sys2Proof.Machine.execWait t c w s
  | .fence t c w => Sys2Proof.Machine.execFence t c w s
  | .barrier t c w => Sys2Proof.Machine.execBarrier t c w s
  | .fset t c w => Sys2Proof.Machine.execFset t c w s
  | .tmmaIssueEnd t chk => Sys2Proof.Machine.execTmmaIssueEnd t chk s
  | .tileHangTimeout t => Sys2Proof.Machine.execTileHangTimeout t s
  | .drainStart t => Sys2Proof.Machine.execDrainStart t s
  | .drainEnd t chk => Sys2Proof.Machine.execDrainEnd t chk s
  | .rescaleStart t => Sys2Proof.Machine.execRescaleStart t s
  | .rescaleEnd t => Sys2Proof.Machine.execRescaleEnd t s
  | .leafSwap t => Sys2Proof.Machine.execLeafSwap t s
  | .vectorEnd t chk => Sys2Proof.Machine.execVectorEnd t chk s
  | .waitSatisfied t c => Sys2Proof.Machine.execWaitSatisfied t c s
  | .fenceComplete t c => Sys2Proof.Machine.execFenceComplete t c s
  | .barrierRelease p bar => Sys2Proof.Machine.execBarrierRelease p bar s
  | .signalArrive n => Sys2Proof.Machine.execSignalArrive n s
  | .tagClaim t n => Sys2Proof.Machine.execTagClaim t n s
  | .remoteWriteArrive n => Sys2Proof.Machine.execRemoteWriteArrive n s
  | .remoteReadReturn n => Sys2Proof.Machine.execRemoteReadReturn n s
  | .scrubTick t line => Sys2Proof.Machine.execScrubTick t line s
  | .waitLimitExpiry p => Sys2Proof.Machine.execWaitLimitExpiry p s
  | .powerLend t => Sys2Proof.Machine.execPowerLend t s
  | .streamXfer t h => Sys2Proof.Machine.execStreamXfer t h s
  | .streamReadLand t h r => Sys2Proof.Machine.execStreamReadLand t h r s
  | .streamDone t h => Sys2Proof.Machine.execStreamDone t h s
  | .mergeEntryTimeout t n => Sys2Proof.Machine.execMergeEntryTimeout t n s
  | .pageWalkDone t h => Sys2Proof.Machine.execPageWalkDone t h s
  | .compositionDone p => Sys2Proof.Machine.execCompositionDone p s
  | .tokenReadDone e tokens => Sys2Proof.Machine.execTokenReadDone e tokens s
  | .hsBlockReadDone e block => Sys2Proof.Machine.execHsBlockReadDone e block s
  | .steepRelease p => Sys2Proof.Machine.execSteepRelease p s
  | .newtSample e bad chk => Sys2Proof.Machine.execNewtSample e bad chk s
  | .headstartFill e => Sys2Proof.Machine.execHeadstartFill e s
  | .headstartFillTimeout p => Sys2Proof.Machine.execHeadstartFillTimeout p s
  | .draftLimitTick waitPermille => Sys2Proof.Machine.execDraftLimitTick waitPermille s
  | .newtHangTimeout n => Sys2Proof.Machine.execNewtHangTimeout n s
  | .pourRecordWrite p tgt input => Sys2Proof.Machine.execPourRecordWrite p tgt input s
  | .consumedPoll p tgt => Sys2Proof.Machine.execConsumedPoll p tgt s
  | .controlBlockRead p tgt block => Sys2Proof.Machine.execControlBlockRead p tgt block s
  | .commitAck p tgt => Sys2Proof.Machine.execCommitAck p tgt s
  | .resultWriteDone e ok => Sys2Proof.Machine.execResultWriteDone e ok s
  | .targetNak p tgt cause => Sys2Proof.Machine.execTargetNak p tgt cause s
  | .transportAckTimeout p tgt => Sys2Proof.Machine.execTransportAckTimeout p tgt s
  | .cnpReceived p tgt => Sys2Proof.Machine.execCnpReceived p tgt s
  | .pourPortFail port => Sys2Proof.Machine.execPourPortFail port s
  | .pourPortReturn port => Sys2Proof.Machine.execPourPortReturn port s
  | .helloTimer => Sys2Proof.Machine.execHelloTimer s
  | .hello port id peerPort epoch isSwitch => Sys2Proof.Machine.execHello port id peerPort epoch isSwitch s
  | .epochMessage epoch => Sys2Proof.Machine.execEpochMessage epoch s
  | .prepare epoch => Sys2Proof.Machine.execPrepare epoch s
  | .commit epoch modules switches routes => Sys2Proof.Machine.execCommit epoch modules switches routes s
  | .fabricLinkPacket port header payload => Sys2Proof.Machine.execFabricLinkPacket port header payload s
  | .linkRetransmitTimeout port vc => Sys2Proof.Machine.execLinkRetransmitTimeout port vc s
  | .sPortStateChange port up => Sys2Proof.Machine.execSPortStateChange port up s
  | .laneFailure port lane => Sys2Proof.Machine.execLaneFailure port lane s
  | .fabricRecordSend t base => Sys2Proof.Machine.execFabricRecordSend t base s
  | .fabricRecordDeliver t record => Sys2Proof.Machine.execFabricRecordDeliver t record s
  | .groupFormTimeout g => Sys2Proof.Machine.execGroupFormTimeout g s
  | .inPassingReduction g joined sums => Sys2Proof.Machine.execInPassingReduction g joined sums s
  | .lagExchangeTimer g totals => Sys2Proof.Machine.execLagExchangeTimer g totals s
  | .lockstepPageCount p rank free => Sys2Proof.Machine.execLockstepPageCount p rank free s
  | .lockstepRowMaps p rpt rows => Sys2Proof.Machine.execLockstepRowMaps p rpt rows s
  | .lockstepRelease p => Sys2Proof.Machine.execLockstepRelease p s
  | .lockstepAbort p charged rows => Sys2Proof.Machine.execLockstepAbort p charged rows s
  | .heartbeatTimer => Sys2Proof.Machine.execHeartbeatTimer s
  | .heartbeat port timebase echoSent echoArrived => Sys2Proof.Machine.execHeartbeat port timebase echoSent echoArrived s
  | .heartbeatMissed => Sys2Proof.Machine.execHeartbeatMissed s
  | .aliveInTimeout => Sys2Proof.Machine.execAliveInTimeout s
  | .mirrorDelta d => Sys2Proof.Machine.execMirrorDelta d s
  | .mirrorAck n fails => Sys2Proof.Machine.execMirrorAck n fails s
  | .mirrorPortFail port => Sys2Proof.Machine.execMirrorPortFail port s
  | .mirrorPortReturn port => Sys2Proof.Machine.execMirrorPortReturn port s
  | .resyncExchange partner => Sys2Proof.Machine.execResyncExchange partner s
  | .sleep ticks => Sys2Proof.Machine.execSleep ticks s
  | .sleepConfirm => Sys2Proof.Machine.execSleepConfirm s
  | .pairReauth port partner => Sys2Proof.Machine.execPairReauth port partner s
  | .pairBindTimeout => Sys2Proof.Machine.execPairBindTimeout s
  | .wireFaultClear => Sys2Proof.Machine.execWireFaultClear s
  | .moduleFault code => Sys2Proof.Machine.execModuleFault code s
  | .controlCoreFail => Sys2Proof.Machine.execControlCoreFail s
  | .packageLost pkg => Sys2Proof.Machine.execPackageLost pkg s
  | .patrolScrubTick stripe bad => Sys2Proof.Machine.execPatrolScrubTick stripe bad s
  | .caddyWayDisable w => Sys2Proof.Machine.execCaddyWayDisable w s
  | .powerCapTick inp => Sys2Proof.Machine.execPowerCapTick inp s
  | .dieHot => Sys2Proof.Machine.execDieHot s
  | .dieHotClearTimeout => Sys2Proof.Machine.execDieHotClearTimeout s
  | .pwrBrakeN low => Sys2Proof.Machine.execPwrBrakeN low s
  | .currentLimit => Sys2Proof.Machine.execCurrentLimit s
  | .currentLimitTimeout => Sys2Proof.Machine.execCurrentLimitTimeout s
  | .thermalSample x => Sys2Proof.Machine.execThermalSample x s
  | .vinOutOfWindow mv => Sys2Proof.Machine.execVinOutOfWindow mv s
  | .railFault => Sys2Proof.Machine.execRailFault s
  | .leak => Sys2Proof.Machine.execLeak s
  | .wakeNExternal => Sys2Proof.Machine.execWakeNExternal s
  | .refclkLoss => Sys2Proof.Machine.execRefclkLoss s
  | .alarmFire n => Sys2Proof.Machine.execAlarmFire n s
  | .stateDwellExpiry scope => Sys2Proof.Machine.execStateDwellExpiry scope s
  | .wakeEvent scope source => Sys2Proof.Machine.execWakeEvent scope source s
  | .domainSwitchClose => Sys2Proof.Machine.execDomainSwitchClose s
  | .pinTestTimer above2V bridged => Sys2Proof.Machine.execPinTestTimer above2V bridged s
  | .pinReadbackMismatch pin => Sys2Proof.Machine.execPinReadbackMismatch pin s
  | .smbusHeldLowTimeout pin => Sys2Proof.Machine.execSmbusHeldLowTimeout pin s
  | .powerOn x => Sys2Proof.Machine.execPowerOn x s
  | .startupTimeout => Sys2Proof.Machine.execStartupTimeout s
  | .resetN x => Sys2Proof.Machine.execResetN x s
  | .perstN kind => Sys2Proof.Machine.execPerstN kind s
  | .flr vf => Sys2Proof.Machine.execFlr vf s
  | .a4Exit x => Sys2Proof.Machine.execA4Exit x s
  | .firmwareQueueDispatch => Sys2Proof.Machine.execFirmwareQueueDispatch s
  | .deadlinePassed e => Sys2Proof.Machine.execDeadlinePassed e s
  | .illegalOpcode t c w => Sys2Proof.Machine.execIllegalOpcode t c w s
  | .rnrNak p tgt => Sys2Proof.Machine.execRnrNak p tgt s
  | .rnrTimerExpiry p tgt => Sys2Proof.Machine.execRnrTimerExpiry p tgt s
  | .combiningBufferTimeout stripe => Sys2Proof.Machine.execCombiningBufferTimeout stripe s
  | .trainingRetryTimer port x => Sys2Proof.Machine.execTrainingRetryTimer port x s
  | .vinBackInside mv => Sys2Proof.Machine.execVinBackInside mv s
  | .leakNHigh => Sys2Proof.Machine.execLeakNHigh s
  | .currentLimitRelease => Sys2Proof.Machine.execCurrentLimitRelease s
  | .pairAliveInEdge => Sys2Proof.Machine.execPairAliveInEdge s
  | .neighbourTable id isSwitch nbrs => Sys2Proof.Machine.execNeighbourTable id isSwitch nbrs s
  | .prepareConfirmation id epoch => Sys2Proof.Machine.execPrepareConfirmation id epoch s
  | .spdmRequest r => Sys2Proof.Machine.execSpdmRequest r s
  | .pldmRequest r => Sys2Proof.Machine.execPldmRequest r s
  | .pmeTurnOff => Sys2Proof.Machine.execPmeTurnOff s
  | .vfEnable vf => Sys2Proof.Machine.execVfEnable vf s
  | .sidebandHeldTimeout pin => Sys2Proof.Machine.execSidebandHeldTimeout pin s

end Sys2Proof.Machine
end

