-- ==== Sys2Proof/WellFormed.lean ====
section
/-! DEFINITION. WellFormed.lean: commands whose operands lie where the spec puts them. The meanings stand on any operands
(Syntax.lean); what is refused here no sender can send. -/

namespace Sys2Proof

open Sys2Proof.Machine

/-- The ring a command names (R295): the submission ring it comes from, or is fetched for. -/
def ringOf? : Instr → Option Nat
  | .submitPrompt ring .. | .cancel ring .. | .pause ring .. | .resume ring .. | .setPriority ring ..
    | .queryRequest ring .. | .partitionCreate ring .. | .partitionDestroy ring .. | .tenantConfigure ring ..
    | .modelLoad ring .. | .modelUnload ring .. | .prefixPin ring .. | .prefixUnpin ring .. | .pourTargetAdd ring ..
    | .pourTargetRemove ring .. | .groupCreate ring .. | .groupDestroy ring .. | .setWakeTolerance ring ..
    | .setPowerCap ring .. | .pairBind ring .. | .pairUnbind ring .. | .pairStatus ring .. | .telemetryRead ring ..
    | .logRead ring .. | .selftest ring .. | .firmwareStage ring .. | .firmwareActivate ring .. | .nop ring ..
    | .unknownOpcodeCommand ring .. | .pullFetchDone ring .. => some ring
  | .doorbellWrite .. | .pushWrite .. | .completionWrite .. | .interruptAgeExpiry .. | .ringEnable ..
    | .ringDisable .. | .pairedLowWrite .. | .counterLowRead .. | .unmappedRead .. | .registerWrite ..
    | .bar4Access .. | .portUnfence .. | .kettleOff | .nopInstruction .. | .endI .. | .jmp .. | .br .. | .loop ..
    | .sli .. | .sadd .. | .ssub .. | .smul .. | .sand .. | .sor .. | .sxor .. | .sshl .. | .sshr .. | .sshrl ..
    | .smin .. | .smax .. | .sld .. | .sst .. | .bset .. | .mld .. | .mst .. | .mrng .. | .mvalid .. | .mseg ..
    | .rmap .. | .frd .. | .tmma .. | .tmmaL .. | .tmmaF .. | .rescale .. | .lswap .. | .drain .. | .vmov ..
    | .vadd .. | .vsub .. | .vmul .. | .vfma .. | .vmin .. | .vmax .. | .vdiv .. | .vsqrt .. | .vexp2 .. | .vrsum ..
    | .vrmax .. | .vcvt .. | .srun .. | .sstop .. | .signal .. | .wait .. | .fence .. | .barrier .. | .fset ..
    | .tmmaIssueEnd .. | .tileHangTimeout .. | .drainStart .. | .drainEnd .. | .rescaleStart .. | .rescaleEnd ..
    | .leafSwap .. | .vectorEnd .. | .waitSatisfied .. | .fenceComplete .. | .barrierRelease .. | .signalArrive ..
    | .tagClaim .. | .remoteWriteArrive .. | .remoteReadReturn .. | .scrubTick .. | .waitLimitExpiry ..
    | .powerLend .. | .streamXfer .. | .streamReadLand .. | .streamDone .. | .mergeEntryTimeout .. | .pageWalkDone ..
    | .compositionDone .. | .tokenReadDone .. | .hsBlockReadDone .. | .steepRelease .. | .newtSample ..
    | .headstartFill .. | .headstartFillTimeout .. | .draftLimitTick .. | .newtHangTimeout .. | .pourRecordWrite ..
    | .consumedPoll .. | .controlBlockRead .. | .commitAck .. | .resultWriteDone .. | .targetNak ..
    | .transportAckTimeout .. | .cnpReceived .. | .pourPortFail .. | .pourPortReturn .. | .helloTimer | .hello ..
    | .epochMessage .. | .prepare .. | .commit .. | .fabricLinkPacket .. | .linkRetransmitTimeout ..
    | .sPortStateChange .. | .laneFailure .. | .fabricRecordSend .. | .fabricRecordDeliver .. | .groupFormTimeout ..
    | .inPassingReduction .. | .lagExchangeTimer .. | .lockstepPageCount .. | .lockstepRowMaps ..
    | .lockstepRelease .. | .lockstepAbort .. | .heartbeatTimer | .heartbeat .. | .heartbeatMissed | .aliveInTimeout
    | .mirrorDelta .. | .mirrorAck .. | .mirrorPortFail .. | .mirrorPortReturn .. | .resyncExchange .. | .sleep ..
    | .sleepConfirm | .pairReauth .. | .pairBindTimeout | .wireFaultClear | .moduleFault .. | .controlCoreFail
    | .packageLost .. | .patrolScrubTick .. | .caddyWayDisable .. | .powerCapTick .. | .dieHot | .dieHotClearTimeout
    | .pwrBrakeN .. | .currentLimit | .currentLimitTimeout | .thermalSample .. | .vinOutOfWindow .. | .railFault
    | .leak | .wakeNExternal | .refclkLoss | .alarmFire .. | .stateDwellExpiry .. | .wakeEvent .. | .domainSwitchClose
    | .pinTestTimer .. | .pinReadbackMismatch .. | .smbusHeldLowTimeout .. | .powerOn .. | .startupTimeout
    | .resetN .. | .perstN .. | .flr .. | .a4Exit .. | .firmwareQueueDispatch | .deadlinePassed .. | .illegalOpcode ..
    | .rnrNak .. | .rnrTimerExpiry .. | .combiningBufferTimeout .. | .trainingRetryTimer .. | .vinBackInside ..
    | .leakNHigh | .currentLimitRelease | .pairAliveInEdge | .neighbourTable .. | .prepareConfirmation ..
    | .spdmRequest .. | .pldmRequest .. | .pmeTurnOff | .vfEnable .. | .sidebandHeldTimeout .. => none

/-- The operands of a command are values the spec lets it carry: offsets inside the BAR the command is for (R283, R298, R299,
R286), byte enables that enable a byte (R288), a pull read of up to 8 entries (R299), an opcode that is not listed where the
command is for those (R122, R319), a stripe of the device (R199), a supply value on the side of the window that the event
names and inside the ratings (R445, R447). -/
def operandsOk : Instr → Bool
  | .unknownOpcodeCommand _ op _ => !listedCommand op.toNat
  | .doorbellWrite _ offset be _ => decide (offset < 0x1000000) && be ≠ 0
  | .pushWrite _ offset bytes => decide (0x1000000 ≤ offset) && bytes ≠ []
  | .pullFetchDone _ entries => match entries with | none => true | some l => l ≠ [] && decide (l.length ≤ 8)
  | .completionWrite ring _ => decide (ring < 2 * Config.rings)
  | .interruptAgeExpiry ring => decide (ring < 2 * Config.rings)
  | .ringEnable _ _ v => bit v 63
  | .ringDisable _ _ v => !bit v 63
  | .pairedLowWrite _ offset _ => offset % 8 = 0
  | .counterLowRead _ offset => offset % 8 = 0
  | .registerWrite _ _ be _ => be ≠ 0
  | .unmappedRead _ r => r.be ≠ 0
  | .bar4Access _ offset be write => be ≠ [] && decide (offset + be.length ≤ 2 ^ 36) && (match write with | none => true | some b => b.length = be.length)
  | .draftLimitTick waitPermille => decide (waitPermille ≤ 1000)
  | .fabricLinkPacket _ header payload => headerOk header payload
  | .fabricRecordDeliver _ record => record.length = 64 + recLE record 8 4
  | .lockstepRowMaps _ rpt _ => (rptChoices 15).contains rpt
  | .moduleFault code => code ≠ 0
  | .patrolScrubTick stripe _ => decide (stripe < stripes)
  | .vinOutOfWindow mv => !beyondRatings mv && (decide (mv < 38000) || decide (62000 < mv))
  | .wakeEvent _ source => decide (1 ≤ source.toNat) && decide (source.toNat ≤ 7)
  | .illegalOpcode _ _ w => !listedOpcode (bits w 7 0)
  | .combiningBufferTimeout stripe => decide (stripe < stripes)
  | .vinBackInside mv => decide (38000 ≤ mv) && decide (mv ≤ 62000)
  | .submitPrompt .. | .cancel .. | .pause .. | .resume .. | .setPriority .. | .queryRequest .. | .partitionCreate ..
    | .partitionDestroy .. | .tenantConfigure .. | .modelLoad .. | .modelUnload .. | .prefixPin .. | .prefixUnpin ..
    | .pourTargetAdd .. | .pourTargetRemove .. | .groupCreate .. | .groupDestroy .. | .setWakeTolerance ..
    | .setPowerCap .. | .pairBind .. | .pairUnbind .. | .pairStatus .. | .telemetryRead .. | .logRead ..
    | .selftest .. | .firmwareStage .. | .firmwareActivate .. | .nop .. | .portUnfence ..
    | .kettleOff | .nopInstruction .. | .endI .. | .jmp .. | .br .. | .loop .. | .sli .. | .sadd .. | .ssub ..
    | .smul .. | .sand .. | .sor .. | .sxor .. | .sshl .. | .sshr .. | .sshrl .. | .smin .. | .smax .. | .sld ..
    | .sst .. | .bset .. | .mld .. | .mst .. | .mrng .. | .mvalid .. | .mseg .. | .rmap .. | .frd .. | .tmma ..
    | .tmmaL .. | .tmmaF .. | .rescale .. | .lswap .. | .drain .. | .vmov .. | .vadd .. | .vsub .. | .vmul ..
    | .vfma .. | .vmin .. | .vmax .. | .vdiv .. | .vsqrt .. | .vexp2 .. | .vrsum .. | .vrmax .. | .vcvt .. | .srun ..
    | .sstop .. | .signal .. | .wait .. | .fence .. | .barrier .. | .fset .. | .tmmaIssueEnd .. | .tileHangTimeout ..
    | .drainStart .. | .drainEnd .. | .rescaleStart .. | .rescaleEnd .. | .leafSwap .. | .vectorEnd ..
    | .waitSatisfied .. | .fenceComplete .. | .barrierRelease .. | .signalArrive .. | .tagClaim ..
    | .remoteWriteArrive .. | .remoteReadReturn .. | .scrubTick .. | .waitLimitExpiry .. | .powerLend ..
    | .streamXfer .. | .streamReadLand .. | .streamDone .. | .mergeEntryTimeout .. | .pageWalkDone ..
    | .compositionDone .. | .tokenReadDone .. | .hsBlockReadDone .. | .steepRelease .. | .newtSample ..
    | .headstartFill .. | .headstartFillTimeout .. | .newtHangTimeout .. | .pourRecordWrite .. | .consumedPoll ..
    | .controlBlockRead .. | .commitAck .. | .resultWriteDone .. | .targetNak .. | .transportAckTimeout ..
    | .cnpReceived .. | .pourPortFail .. | .pourPortReturn .. | .helloTimer | .hello .. | .epochMessage ..
    | .prepare .. | .commit .. | .linkRetransmitTimeout .. | .sPortStateChange .. | .laneFailure ..
    | .fabricRecordSend .. | .groupFormTimeout .. | .inPassingReduction .. | .lagExchangeTimer ..
    | .lockstepPageCount .. | .lockstepRelease .. | .lockstepAbort .. | .heartbeatTimer | .heartbeat ..
    | .heartbeatMissed | .aliveInTimeout | .mirrorDelta .. | .mirrorAck .. | .mirrorPortFail .. | .mirrorPortReturn ..
    | .resyncExchange .. | .sleep .. | .sleepConfirm | .pairReauth .. | .pairBindTimeout | .wireFaultClear
    | .controlCoreFail | .packageLost .. | .caddyWayDisable .. | .powerCapTick .. | .dieHot | .dieHotClearTimeout
    | .pwrBrakeN .. | .currentLimit | .currentLimitTimeout | .thermalSample .. | .railFault | .leak | .wakeNExternal
    | .refclkLoss | .alarmFire .. | .stateDwellExpiry .. | .domainSwitchClose | .pinTestTimer ..
    | .pinReadbackMismatch .. | .smbusHeldLowTimeout .. | .powerOn .. | .startupTimeout | .resetN .. | .perstN ..
    | .flr .. | .a4Exit .. | .firmwareQueueDispatch | .deadlinePassed .. | .rnrNak .. | .rnrTimerExpiry ..
    | .trainingRetryTimer .. | .leakNHigh | .currentLimitRelease | .pairAliveInEdge | .neighbourTable ..
    | .prepareConfirmation .. | .spdmRequest .. | .pldmRequest .. | .pmeTurnOff | .vfEnable ..
    | .sidebandHeldTimeout .. => true

/-- A well-formed command: its submission ring is one of the 8192 (R295); a completion ring may be an adopted one (R386); its
operands are in range. -/
def WellFormed (i : Instr) : Bool :=
  (match ringOf? i with | some r => decide (r < Config.rings) | none => true) && operandsOk i

end Sys2Proof
end

