-- ==== Sys2Proof/Safety.lean ====
section
/-! DEFINITION. Safety.lean: what statements about the block speak of. -/

namespace Sys2Proof.Machine

open Sys2Proof

/-- The stores that every step keeps in their form: push memory canonical (Table.lean), and the fault log as R316 and R400
have it, at most 65 536 records, in the order of their sequence numbers, every number already given out. -/
structure StoresOk (s : State) : Prop where
  push : Memory.wf s.push = true
  logLen : s.log.length ≤ 65536
  logOrder : s.log.Pairwise (fun a b => a.seq < b.seq)
  logSeq : ∀ r ∈ s.log, r.seq < s.logNext

/-! ## Numbers -/

/-- A finite FP32 number: its exponent field is not all ones (R22). -/
def f32Finite (x : Word32) : Bool := decide (bits x 30 23 ≠ 255)

/-- The value of a finite FP32 number in units of 2^(-149), of which every finite FP32 number is a whole multiple (R22). -/
def f32Units (x : Word32) : Int :=
  match ofF32 x with
  | .fin neg m e => scaled neg m e (-149)
  | _ => 0

/-- `r` is the FP32 number nearest to `v` units of 2^(-149): of two equally near the one whose last bit is 0, and infinity of
the sign of `v` at or above the largest finite value plus half its last place (R37). -/
def NearestF32 (r : Word32) (v : Int) : Prop :=
  if v.natAbs < 2 ^ 277 - 2 ^ 252 then
    f32Finite r = true ∧ ∀ y, f32Finite y = true → (f32Units r - v).natAbs ≤ (f32Units y - v).natAbs ∧
      ((f32Units r - v).natAbs = (f32Units y - v).natAbs → f32Units y ≠ f32Units r → r.getLsbD 0 = false)
  else isInf r = true ∧ signBit r = decide (v < 0)

/-! ## Instructions of a tile -/

/-- Context `c` of tile `t` has at its head an instruction of opcode `op` that the context takes up and that passes the
checks made before those of its own class: the tile's partition (R53), a context RUNNING or held by a condition that is
tried again (R207, R208), the fetch (R149), its words free of errors (R161; where they hold a correctable one, the state after the
correction is such a state), and the reserved fields (R122). -/
structure AtHead (s : State) (t c op : Nat) (w : BitVec 120) (rsv : List (Nat × Nat)) (p : Nat) (part : Part) : Prop where
  tileOf : partOfTile s t = some p
  partOf : getPart? s p = some part
  runs : (getCtx (getTile s t) c).st = .running ∨ (getCtx (getTile s t) c).st = .waiting
  head : (getCtx (getTile s t) c).held = none
  fetch : fetchOk (getTile s t) (getCtx (getTile s t) c).pc = true
  words : fetched s t c = s
  clean : poisoned (getTile s t) [((getCtx (getTile s t) c).pc, 16)] = none
  fields : badReserved (wordOf w op) rsv = none

/-- The instruction at the head, as its class reads it. -/
def issOf (s : State) (t c op : Nat) (w : BitVec 120) (p : Nat) (part : Part) : Iss :=
  { s := s, t := t, c := c, op := op, w := wordOf w op, x := getTile s t, k := getCtx (getTile s t) c, p := p, part := part }

/-- From `s` to `s'` only tile `t` differs, and of its contexts only `c`; a lent power share is reclaimed (R223). The counter
that free values are taken from may have moved. -/
structure OnlyTile (s s' : State) (t c : Nat) : Prop where
  rest : { s' with tiles := s.tiles, free := s.free } = s
  others : ∀ u, u ≠ t → getTile s' u = getTile s u
  power : (getTile s' t).lending = false
  ctxs : ∀ d, d ≠ c → getCtx (getTile s' t) d = getCtx (getTile s t) d

/-- The context went on to the next instruction (R122, R148). -/
structure Passed (k k' : Ctx) : Prop where
  st : k'.st = .running
  cause : k'.cause = 0 ∧ k'.object = 0
  held : k'.held = none
  pc : (k'.pc, k'.loops) = nextPc (k.pc + 16) k.loops

/-- The registers of a context are unchanged, each kind by itself. -/
def SameS (k k' : Ctx) : Prop := ∀ r, readS k' r = readS k r
def SameB (k k' : Ctx) : Prop := ∀ r, readB k' r = readB k r
def SameM (k k' : Ctx) : Prop := ∀ r, readM k' r = readM k r

/-- A tile that differs in contexts and power lending only: scratchpad, accumulators, flags, units, errors and counters are
unchanged. -/
def SameUnits (x x' : Tile) : Prop := { x' with ctx := x.ctx, lending := x.lending } = x

/-- The two-operand instructions of R147 with their opcodes and what each writes to s[D] from s[A], from B (s[B], or the
immediate with IMM) and from the immediate. -/
def scalarRows (t : Fin 64) (c : Fin 4) (w : BitVec 120) : List (Instr × Nat × (Word64 → Word64 → Word64 → Word64)) :=
  [(.sli t c w, 0x20, fun _ _ i => i),
   (.sadd t c w, 0x21, fun a b _ => BitVec.ofNat 64 (a.toNat + b.toNat)),
   (.ssub t c w, 0x22, fun a b _ => BitVec.ofInt 64 (a.toInt - b.toInt)),
   (.smul t c w, 0x23, fun a b _ => BitVec.ofNat 64 (a.toNat * b.toNat)),
   (.sand t c w, 0x24, fun a b _ => a &&& b),
   (.sor t c w, 0x25, fun a b _ => a ||| b),
   (.sxor t c w, 0x26, fun a b _ => a ^^^ b),
   (.sshl t c w, 0x27, fun a b _ => BitVec.ofNat 64 (a.toNat * 2 ^ (b.toNat % 64))),
   (.sshr t c w, 0x28, fun a b _ => BitVec.ofInt 64 (a.toInt / 2 ^ (b.toNat % 64))),
   (.sshrl t c w, 0x29, fun a b _ => BitVec.ofNat 64 (a.toNat / 2 ^ (b.toNat % 64))),
   (.smin t c w, 0x2A, fun a b _ => BitVec.ofInt 64 (min a.toInt b.toInt)),
   (.smax t c w, 0x2B, fun a b _ => BitVec.ofInt 64 (max a.toInt b.toInt))]

/-- Context `c` of tile `t`. -/
def ctxOf (s : State) (t c : Nat) : Ctx := getCtx (getTile s t) c

/-- A context that the instruction leaves as it was but for going on: no register is written. -/
structure WentOn (k k' : Ctx) : Prop where
  passed : Passed k k'
  s : SameS k k'
  b : SameB k k'
  m : SameM k k'

/-- A held head (R208): the context waits with this cause, object and condition, and nothing else of it changed. -/
structure Waits (s : State) (k k' : Ctx) (cause object : Nat) (h : Held) : Prop where
  st : k'.st = .waiting
  cause : k'.cause = cause ∧ k'.object = object
  held : k'.held = some h
  pc : k'.pc = k.pc ∧ k'.loops = k.loops
  since : k.st ≠ .waiting → k'.since = s.pwr.timebase.toNat
  s : SameS k k'
  b : SameB k k'
  m : SameM k k'

/-- A context that jumped (R148): every innermost loop whose body does not hold the target is left. -/
structure Jumped (k k' : Ctx) (target : Nat) : Prop where
  st : k'.st = .running
  cause : k'.cause = 0 ∧ k'.object = 0
  held : k'.held = none
  pc : k'.pc = target
  loops : k'.loops = k.loops.dropWhile (fun f => !(decide (f.first ≤ target) && decide (target < f.after)))
  s : SameS k k'
  b : SameB k k'
  m : SameM k k'

/-- The vector instructions with their opcodes (R141). -/
def vectorRows (t : Fin 64) (c : Fin 4) (w : BitVec 120) : List (Instr × Nat) :=
  [(.vmov t c w, 0x80), (.vadd t c w, 0x81), (.vsub t c w, 0x82), (.vmul t c w, 0x83), (.vfma t c w, 0x84), (.vmin t c w, 0x85), (.vmax t c w, 0x86),
   (.vdiv t c w, 0x89), (.vsqrt t c w, 0x8A), (.vexp2 t c w, 0x8B), (.vrsum t c w, 0x8C), (.vrmax t c w, 0x8D), (.vcvt t c w, 0x8E)]
/-- The matrix instructions with their opcodes (R131, R134, R135). -/
def matrixRows (t : Fin 64) (c : Fin 4) (w : BitVec 120) : List (Instr × Nat) := [(.tmma t c w, 0x40), (.tmmaL t c w, 0x41), (.tmmaF t c w, 0x42)]

/-- A tile after an instruction of the matrix, drain, vector or stream class is taken: no byte of the scratchpad, no flag, no
error and no counter has changed. -/
structure SameStore (x x' : Tile) : Prop where
  spad : x'.spad = x.spad
  flags : x'.flags = x.flags
  errors : x'.poison = x.poison ∧ x'.oneBit = x.oneBit ∧ x'.twoBit = x.twoBit ∧ x'.errStatus = x.errStatus ∧ x'.excStatus = x.excStatus ∧ x'.excInfo = x.excInfo ∧ x'.spadStatus = x.spadStatus
  ctrs : x'.ctrs = x.ctrs
  leaves : x'.cur = x.cur ∧ x'.arr = x.arr

/-- A map entry of the tile names the flag, as one that follows a circular region's counts (R163, R173). -/
def namesFlag (x : Tile) (g : Nat) : Prop :=
  ∃ e ∈ x.map, (bit e.flagEn 0 = true ∧ e.tailFlag.toNat = g) ∨ (bit e.flagEn 1 = true ∧ e.headFlag.toNat = g)
/-- The same after an instruction that reads a list or a descriptor as it is taken: single-bit errors in what it read are corrected
(R161), and a region whose record it has read counts it, in the flag that follows the count (R167, R173). -/
structure ListsRead (x x' : Tile) : Prop where
  spad : x'.spad = x.spad
  flags : ∀ g, ¬namesFlag x g → getFlag x' g = getFlag x g
  errors : x'.poison = x.poison ∧ x'.twoBit = x.twoBit ∧ x'.errStatus = x.errStatus ∧ x'.excStatus = x.excStatus ∧ x'.excInfo = x.excInfo
  corrected : ∀ w ∈ x'.oneBit, w ∈ x.oneBit
  status : x.oneBit = [] → x'.spadStatus = x.spadStatus
  ctrs : x'.ctrs = x.ctrs
  leaves : x'.cur = x.cur ∧ x'.arr = x.arr

/-- The opcodes that R122 lists. -/
def listedOpcodes : List Nat :=
  List.range 5 ++ (List.range 22).map (· + 0x20) ++ [0x40, 0x41, 0x42, 0x44, 0x45, 0x48] ++ (List.range 7).map (· + 0x80) ++ (List.range 6).map (· + 0x89) ++
    [0xA0, 0xA1] ++ (List.range 5).map (· + 0xC0)

/-! ## The register window -/

/-- Function `fn` of the host can reach the register `r` at the 8-byte word of `offset` (R283, R284, R344). -/
structure Reaches (s : State) (fn : Fin 65) (offset : Nat) (r : Reg) : Prop where
  link : hostReach s fn = true
  reg : regAt s fn (offset / 8 * 8) = some r
/-- Offset of the first byte that the byte enables name, in the word of `offset` (R287). -/
def firstByteAt (offset : Nat) (be : BitVec 8) : Nat := offset / 8 * 8 + firstByte be

/-! ## Units of a tile -/

/-- From `s` to `s'` only tile `t` differs. -/
structure TileOnly (s s' : State) (t : Nat) : Prop where
  rest : { s' with tiles := s.tiles } = s
  others : ∀ u, u ≠ t → getTile s' u = getTile s u

/-- From `s` to `s'` only tile `t` differs, and the signals on their way, which are these. -/
structure TileAndSignals (s s' : State) (t : Nat) (l : List Sig) : Prop where
  rest : { s' with tiles := s.tiles, sigs := s.sigs } = s
  others : ∀ u, u ≠ t → getTile s' u = getTile s u
  sigs : s'.sigs = l
/-- The DONE increment of a context's operation as a signal: it follows the signals of that context to the flag that are still on their
way, where there are any (R137, R210). -/
def lateDone (s : State) (t c : Nat) : Option Nat → List Sig
  | none => []
  | some f =>
    if ∃ q ∈ s.sigs, q.src = .ctx t c ∧ q.toNewt = false ∧ q.target = t ∧ q.flag = f then
      [{ src := .ctx t c, toNewt := false, target := t, flag := f, set := false, value := 1, part := (partOfTile s t).getD 0, steep := 0 }]
    else []

/-- An address that no run of bytes covers. -/
def outsideRuns (l : List (Nat × List Byte)) (a : Nat) : Prop := ∀ r ∈ l, a < r.1 ∨ r.1 + r.2.length ≤ a
/-- What an operation reads, shifted to the records it claimed (R172). -/
def readsOfOp (x : Tile) (op : Nat) (l : List Opnd) : List (Nat × Nat) := l.flatMap (fun o => o.ranges.map (fun r => (r.1 + claimShift x op o.num, r.2)))
/-- The result of a check is no failure (R85 to R87). -/
def checkPassed : Check → Bool
  | .fail _ _ => false
  | _ => true

/-! ## Commands of the rings -/

/-- The command stands at the head of an enabled submission ring and nothing keeps it from being decoded (R299, R302, R319); the pair does
not mirror. -/
structure Decodable (s : State) (ring : Nat) (op : BitVec 8) (p : Packet) : Prop where
  inRange : ring < 8192
  up : s.ready = true ∧ s.pwr.dev = 0
  enabled : bit (getRing s ring).cfg 63 = true ∧ bit (getRing s ring).cfg 62 = false
  head : (getRing s ring).live.head? = some (packetBits op p)
  room : cplRoom s ring p = true
  turn : ringTurn s ring = true
  handle : handleWaits s ring op.toNat p = false
  alone : mirroring s = false
/-- The state once the command is decoded: HEAD and RING_COUNT have advanced, and the ring is the one served last (R302). -/
def decoded (s : State) (ring : Nat) : State :=
  let s := modRing s ring (fun x => { x with head := x.head + 1, count := x.count + 1, live := x.live.drop 1 })
  { s with mod := { s.mod with lastRing := ring } }

/-- The commands that firmware carries out (R318) with their opcodes and what their reads return. -/
def firmwareRows (ring : Nat) (p : Packet) (rd : ImageRead) (hostOk : Bool) (list : Option MemberList) (b : BindInput) (mask : BitVec 8) (img : Option FwImage)
    (newOk partnerOk : Bool) : List (Instr × BitVec 8 × FwInput) :=
  [(.pause ring p, 0x03, .none), (.resume ring p, 0x04, .none), (.queryRequest ring p hostOk, 0x06, .hostOk hostOk),
   (.partitionCreate ring p, 0x10, .none), (.partitionDestroy ring p, 0x11, .none), (.tenantConfigure ring p, 0x12, .none),
   (.modelLoad ring p rd, 0x13, .image rd), (.modelUnload ring p, 0x14, .none), (.prefixPin ring p, 0x15, .none), (.prefixUnpin ring p, 0x16, .none),
   (.pourTargetAdd ring p, 0x20, .none), (.pourTargetRemove ring p, 0x21, .none), (.groupCreate ring p list, 0x30, .members list), (.groupDestroy ring p, 0x31, .none),
   (.setWakeTolerance ring p, 0x40, .none), (.setPowerCap ring p, 0x41, .none), (.pairBind ring p b, 0x50, .bind b), (.pairUnbind ring p, 0x51, .none),
   (.pairStatus ring p, 0x52, .none), (.telemetryRead ring p hostOk, 0x60, .hostOk hostOk), (.logRead ring p hostOk, 0x61, .hostOk hostOk),
   (.selftest ring p mask, 0x70, .mask mask), (.firmwareStage ring p img, 0x71, .fw img), (.firmwareActivate ring p newOk partnerOk, 0x72, .activate newOk partnerOk)]
/-- The commands that take effect at once (R318), and NOP. -/
def expressRows (ring : Nat) (p : Packet) : List (Instr × BitVec 8) :=
  [(.submitPrompt ring p, 0x01), (.cancel ring p, 0x02), (.setPriority ring p, 0x05), (.nop ring p, 0x7F)]
/-- The control cores can take `c` from the front of the firmware queue (R318, R397), and the pair does not mirror. -/
structure AtFront (s : State) (c : FwCmd) (rest : List FwCmd) : Prop where
  front : s.fwQueue = c :: rest
  ready : s.ready = true
  cores : s.mod.cores ≠ 0
  alone : mirroring s = false
/-- The packet's parameter bytes outside the listed fields are zero (R6). -/
def paramsOk (p : Packet) (used : List (Nat × Nat)) : Prop := p.badByte used = none

end Sys2Proof.Machine
end

