-- ==== Sys2Proof/Certificates/Slice0/Obligations.lean ====
section
/-! DEFINITION. Obligations.lean: what is to be proved of the block. -/

open Sys2Proof Sys2Proof.Machine

/-! ## The step -/

/-- A step takes the command at the front of the queue and runs its meaning with the rest of the queue. -/
def Obligations.StepRunsTheFrontCommand : Prop :=
  ∀ (c : Instr) (s : State) (rest : List Instr), s.pending = c :: rest → step s = exec c { s with pending := rest }

/-- With no command waiting a nanosecond passes (the model's choice, log entry 2) and no command appears. Unless a start-up waits
to go on, nothing is sent and no push memory, request, log record or ring changes; TIMEBASE grows by one where its clock runs,
and stands still in a device that has no power. -/
def Obligations.EmptyQueueIsATick : Prop :=
  ∀ s : State, s.pending = [] → ∃ t, step s = .next t ∧ t.pending = [] ∧
    (s.mod.waitStart = none → t.out = s.out ∧ t.push = s.push ∧ t.table = s.table ∧ t.log = s.log ∧ t.rings = s.rings ∧
      (powered s = true → s.pwr.dev < 4 → s.pwr.captured = none → t.pwr.timebase = s.pwr.timebase + 1) ∧
      (powered s = false → t = s))

/-- No command touches the queue of waiting commands. -/
def Obligations.EveryCommandKeepsTheQueue : Prop := ∀ (c : Instr) (s t : State), exec c s = .next t → t.pending = s.pending

/-- Every step keeps push memory in its canonical form and the fault log at most 65 536 records long, in the order of sequence
numbers already given out (R316, R400). -/
def Obligations.EveryStepKeepsTheStores : Prop := ∀ s t : State, StoresOk s → step s = .next t → StoresOk t

/-- The stores have their form after reset. -/
def Obligations.ResetHasTheStores : Prop := StoresOk State.reset ∧ State.reset.pending = []

/-! ## Instructions of a tile -/

/-- The two-operand scalar instructions write the value of R147 to s[D] and nothing else.
The model's choices of log entry 5 stand in it. -/
def Obligations.ScalarArithmetic : Prop :=
  ∀ (t : Fin 64) (c : Fin 4) (w : BitVec 120) (s : State) (p : Nat) (part : Part), ∀ q ∈ scalarRows t c w,
    AtHead s t c q.2.1 w [(63, 24)] p part →
    let v := wordOf w q.2.1
    let k := ctxOf s t c
    let b := if v.getLsbD 23 then v.extractLsb' 64 64 else readS k (bits v 22 18)
    ∃ s', exec q.1 s = .next s' ∧ OnlyTile s s' t c ∧ SameUnits (getTile s t) (getTile s' t) ∧ Passed k (ctxOf s' t c) ∧
      SameB k (ctxOf s' t c) ∧ SameM k (ctxOf s' t c) ∧
      ∀ r, readS (ctxOf s' t c) r = if r = bits v 12 8 ∧ r ≠ 0 then q.2.2 (readS k (bits v 17 13)) b (v.extractLsb' 64 64) else readS k r

/-- BSET clamps into its bounds register, FRD reads a flag, MRNG sets a range of a mask (R147). MVALID, MSEG and RMAP read the row map of the running
steep, at tile row s[A] + i; rows at or beyond RPT give 0 in a mask (R147). Single-bit errors in what is read are corrected (R161).
The model's choices of log entries 5 and 21 stand in it. -/
def Obligations.BoundsFlagRangeAndRowMapInstructions : Prop :=
  (∀ (t : Fin 64) (c : Fin 4) (w : BitVec 120) (s : State) (p : Nat) (part : Part),
      (AtHead s t c 0x2E w [(63, 24)] p part →
        let v := wordOf w 0x2E
        let k := ctxOf s t c
        let sum := (readS k (bits v 17 13)).toInt + (v.extractLsb' 64 64).toInt
        ∃ s', exec (.bset t c w) s = .next s' ∧ OnlyTile s s' t c ∧ SameUnits (getTile s t) (getTile s' t) ∧ Passed k (ctxOf s' t c) ∧
          SameS k (ctxOf s' t c) ∧ SameM k (ctxOf s' t c) ∧
          ∀ r, ((readB (ctxOf s' t c) r).toNat : Int) = if r = bits v 11 8 ∧ r ≠ 0 then min (max sum 0) (2 ^ 32 - 1) else ((readB k r).toNat : Int)) ∧
      (AtHead s t c 0x33 w [(63, 24)] p part →
        let v := wordOf w 0x33
        let k := ctxOf s t c
        ∃ s', exec (.frd t c w) s = .next s' ∧ OnlyTile s s' t c ∧ SameUnits (getTile s t) (getTile s' t) ∧ Passed k (ctxOf s' t c) ∧
          SameB k (ctxOf s' t c) ∧ SameM k (ctxOf s' t c) ∧
          ∀ r, (readS (ctxOf s' t c) r).toNat = if r = bits v 12 8 ∧ r ≠ 0 then (getFlag (getTile s t) (bits v 71 64)).toNat else (readS k r).toNat) ∧
      (AtHead s t c 0x31 w [(63, 24)] p part →
        let v := wordOf w 0x31
        let k := ctxOf s t c
        let b := if v.getLsbD 23 then v.extractLsb' 64 64 else readS k (bits v 22 18)
        ∃ s', exec (.mrng t c w) s = .next s' ∧ OnlyTile s s' t c ∧ SameUnits (getTile s t) (getTile s' t) ∧ Passed k (ctxOf s' t c) ∧
          SameS k (ctxOf s' t c) ∧ SameB k (ctxOf s' t c) ∧
          ∀ r n, n < 512 → (readM (ctxOf s' t c) r).getLsbD n =
            if r = bits v 10 8 ∧ r ≠ 0 then decide ((readS k (bits v 17 13)).toInt ≤ n ∧ (n : Int) < b.toInt) else (readM k r).getLsbD n)) ∧
  (∀ (t : Fin 64) (c : Fin 4) (w : BitVec 120) (s : State) (p : Nat) (part : Part),
      let x := getTile s t
      let rpt := (part.running.map (·.rpt)).getD 0
      let same := fun (x' : Tile) => { x' with ctx := x.ctx, lending := x.lending, oneBit := x.oneBit, spadStatus := x.spadStatus } = x
      (∀ q ∈ [(Instr.mvalid t c w, 0x34, fun (e : Word64) => e.getLsbD 47), (Instr.mseg t c w, 0x35, fun (e : Word64) => e.getLsbD 47 && e.getLsbD 48)],
        AtHead s t c q.2.1 w [(63, 24)] p part → poisoned x (mapRanges (issOf s t c q.2.1 w p part)) = none →
        let v := wordOf w q.2.1
        let k := ctxOf s t c
        let row := fun (n : Nat) => (readS k (bits v 17 13)).toInt + n
        ∃ s', exec q.1 s = .next s' ∧ OnlyTile s s' t c ∧ same (getTile s' t) ∧ Passed k (ctxOf s' t c) ∧ SameS k (ctxOf s' t c) ∧ SameB k (ctxOf s' t c) ∧
          ∀ r n, n < 512 → (readM (ctxOf s' t c) r).getLsbD n =
            if r = bits v 10 8 ∧ r ≠ 0 then decide (0 ≤ row n ∧ row n < rpt) && q.2.2 (rowWord x part (row n).toNat) else (readM k r).getLsbD n) ∧
      (AtHead s t c 0x32 w [(63, 24)] p part → poisoned x (rmapRanges (issOf s t c 0x32 w p part)) = none →
        let v := wordOf w 0x32
        let k := ctxOf s t c
        ∃ s', exec (.rmap t c w) s = .next s' ∧ OnlyTile s s' t c ∧ same (getTile s' t) ∧ Passed k (ctxOf s' t c) ∧ SameB k (ctxOf s' t c) ∧ SameM k (ctxOf s' t c) ∧
          ∀ r, readS (ctxOf s' t c) r = if r = bits v 12 8 ∧ r ≠ 0 then rowWord x part (readS k (bits v 17 13)).toNat else readS k r))

/-- SLD and MLD read 8 and 64 bytes of the scratchpad into s[D] and m[D] (R147): no byte of the scratchpad and no accumulator changes. In a circular
region the record claimed is the one read (R172). SST and MST write s[D] and m[D] to 8 and 64 bytes of the scratchpad (R147): every other byte of the
scratchpad reads as before.
The model's choices of log entries 5 and 21 stand in it. -/
def Obligations.ScratchpadAccesses : Prop :=
  (∀ (t : Fin 64) (c : Fin 4) (w : BitVec 120) (s : State) (p : Nat) (part : Part),
      let x := getTile s t
      let same := fun (x' : Tile) => { x' with ctx := x.ctx, lending := x.lending, oneBit := x.oneBit, spadStatus := x.spadStatus, tags := x.tags, circs := x.circs, claims := x.claims, flags := x.flags, tracks := x.tracks, nextOp := x.nextOp } = x
      (AtHead s t c 0x2C w [(63, 24)] p part →
        let v := wordOf w 0x2C
        let i := issOf s t c 0x2C w p part
        let k := ctxOf s t c
        let a := (readS k (bits v 17 13) + v.extractLsb' 64 64).toNat
        wordCheck i a 8 8 false = .go →
        ∃ s', exec (.sld t c w) s = .next s' ∧ OnlyTile s s' t c ∧ same (getTile s' t) ∧ Passed k (ctxOf s' t c) ∧ SameB k (ctxOf s' t c) ∧ SameM k (ctxOf s' t c) ∧
          ∀ r, (readS (ctxOf s' t c) r).toNat =
            if r = bits v 12 8 ∧ r ≠ 0 then ((List.range 8).map (fun j => (smGet x.spad (wordAddr i a 8 false + j)).toNat * 256 ^ j)).sum else (readS k r).toNat) ∧
      (AtHead s t c 0x2F w [(63, 24)] p part →
        let v := wordOf w 0x2F
        let i := issOf s t c 0x2F w p part
        let k := ctxOf s t c
        let a := (readS k (bits v 17 13)).toNat
        wordCheck i a 64 1 false = .go →
        ∃ s', exec (.mld t c w) s = .next s' ∧ OnlyTile s s' t c ∧ same (getTile s' t) ∧ Passed k (ctxOf s' t c) ∧ SameS k (ctxOf s' t c) ∧ SameB k (ctxOf s' t c) ∧
          ∀ r, (readM (ctxOf s' t c) r).toNat =
            if r = bits v 10 8 ∧ r ≠ 0 then ((List.range 64).map (fun j => (smGet x.spad (wordAddr i a 64 false + j)).toNat * 256 ^ j)).sum else (readM k r).toNat)) ∧
  (∀ (t : Fin 64) (c : Fin 4) (w : BitVec 120) (s : State) (p : Nat) (part : Part),
      let x := getTile s t
      let same := fun (x' : Tile) => { x' with ctx := x.ctx, lending := x.lending, spad := x.spad, poison := x.poison, oneBit := x.oneBit, twoBit := x.twoBit, tags := x.tags, circs := x.circs, claims := x.claims, flags := x.flags, tracks := x.tracks, nextOp := x.nextOp } = x
      (AtHead s t c 0x2D w [(63, 24)] p part →
        let v := wordOf w 0x2D
        let i := issOf s t c 0x2D w p part
        let k := ctxOf s t c
        let a := (readS k (bits v 17 13) + v.extractLsb' 64 64).toNat
        wordCheck i a 8 8 true = .go →
        ∃ s', exec (.sst t c w) s = .next s' ∧ OnlyTile s s' t c ∧ same (getTile s' t) ∧ WentOn k (ctxOf s' t c) ∧
          ∀ b, (smGet (getTile s' t).spad b).toNat =
            if wordAddr i a 8 true ≤ b ∧ b < wordAddr i a 8 true + 8 then (readS k (bits v 12 8)).toNat / 256 ^ (b - wordAddr i a 8 true) % 256 else (smGet x.spad b).toNat) ∧
      (AtHead s t c 0x30 w [(63, 24)] p part →
        let v := wordOf w 0x30
        let i := issOf s t c 0x30 w p part
        let k := ctxOf s t c
        let a := (readS k (bits v 17 13)).toNat
        wordCheck i a 64 1 true = .go →
        ∃ s', exec (.mst t c w) s = .next s' ∧ OnlyTile s s' t c ∧ same (getTile s' t) ∧ WentOn k (ctxOf s' t c) ∧
          ∀ b, (smGet (getTile s' t).spad b).toNat =
            if wordAddr i a 64 true ≤ b ∧ b < wordAddr i a 64 true + 64 then (readM k (bits v 10 8)).toNat / 256 ^ (b - wordAddr i a 64 true) % 256 else (smGet x.spad b).toNat))

/-- NOP goes on; JMP and BR go where R148 says, ending the loops they leave; a branch not taken goes on. LOOP opens a frame of its body and count, or
skips the body with a count of 0; END ends the context when its earlier work is done and no slot of it is open, and the partition's steep goes on
while some context has not ended (R148, R221).
The model's choices of log entries 5 and 22 stand in it. -/
def Obligations.ControlInstructions : Prop :=
  (∀ (t : Fin 64) (c : Fin 4) (w : BitVec 120) (s : State) (p : Nat) (part : Part),
      let x := getTile s t
      let k := ctxOf s t c
      (AtHead s t c 0x00 w [(127, 8)] p part →
        ∃ s', exec (.nopInstruction t c w) s = .next s' ∧ OnlyTile s s' t c ∧ SameUnits x (getTile s' t) ∧ WentOn k (ctxOf s' t c)) ∧
      (AtHead s t c 0x02 w [(127, 32)] p part →
        ∀ target : Nat, (target : Int) = k.pc + 16 * (BitVec.ofNat 24 (bits (wordOf w 0x02) 31 8)).toInt → fetchOk x target = true →
        ∃ s', exec (.jmp t c w) s = .next s' ∧ OnlyTile s s' t c ∧ SameUnits x (getTile s' t) ∧ Jumped k (ctxOf s' t c) target) ∧
      (AtHead s t c 0x03 w [(31, 21), (127, 64)] p part →
        let v := wordOf w 0x03
        let a := readS k (bits v 12 8)
        let b := readS k (bits v 17 13)
        let holds := [decide (a = b), decide (a ≠ b), decide (a.toInt < b.toInt), decide (b.toInt ≤ a.toInt), decide (a.toNat < b.toNat), decide (b.toNat ≤ a.toNat)]
        ∀ taken : Bool, holds[bits v 20 18]? = some taken →
        (taken = false → ∃ s', exec (.br t c w) s = .next s' ∧ OnlyTile s s' t c ∧ SameUnits x (getTile s' t) ∧ WentOn k (ctxOf s' t c)) ∧
        (taken = true → ∀ target : Nat, (target : Int) = k.pc + 16 * (BitVec.ofNat 32 (bits v 63 32)).toInt → fetchOk x target = true →
          ∃ s', exec (.br t c w) s = .next s' ∧ OnlyTile s s' t c ∧ SameUnits x (getTile s' t) ∧ Jumped k (ctxOf s' t c) target))) ∧
  (∀ (t : Fin 64) (c : Fin 4) (w : BitVec 120) (s : State) (p : Nat) (part : Part),
      let x := getTile s t
      let k := ctxOf s t c
      (AtHead s t c 0x04 w [(15, 13), (127, 32)] p part → bits (wordOf w 0x04) 31 16 ≠ 0 →
        let n := (readS k (bits (wordOf w 0x04) 12 8)).toNat
        let after := k.pc + 16 + 16 * bits (wordOf w 0x04) 31 16
        (0 < n → k.loops.length < 4 →
          ∃ s', exec (.loop t c w) s = .next s' ∧ OnlyTile s s' t c ∧ SameUnits x (getTile s' t) ∧
            (ctxOf s' t c).st = .running ∧ (ctxOf s' t c).pc = k.pc + 16 ∧ (ctxOf s' t c).loops = { first := k.pc + 16, after := after, left := n } :: k.loops ∧
            SameS k (ctxOf s' t c) ∧ SameB k (ctxOf s' t c) ∧ SameM k (ctxOf s' t c)) ∧
        (n = 0 → ∃ s', exec (.loop t c w) s = .next s' ∧ OnlyTile s s' t c ∧ SameUnits x (getTile s' t) ∧
            (ctxOf s' t c).st = .running ∧ ((ctxOf s' t c).pc, (ctxOf s' t c).loops) = nextPc after k.loops ∧
            SameS k (ctxOf s' t c) ∧ SameB k (ctxOf s' t c) ∧ SameM k (ctxOf s' t c))) ∧
      (AtHead s t c 0x01 w [(127, 8)] p part → earlierDone x c = true → (∀ i < 4, (getSlot x i).st ≠ .free → (getSlot x i).owner ≠ c) →
        (part.phase = .none ∨ ∃ u ∈ maskTiles part.tileMask, ∃ d : Nat, d < 4 ∧ (u ≠ t.val ∨ d ≠ c.val) ∧ (ctxOf s u d).st ≠ .ended ∧ (ctxOf s u d).st ≠ .idle) →
        ∃ s', exec (.endI t c w) s = .next s' ∧ OnlyTile s s' t c ∧ SameUnits x (getTile s' t) ∧ (ctxOf s' t c).st = .ended ∧
          SameS k (ctxOf s' t c) ∧ SameB k (ctxOf s' t c) ∧ SameM k (ctxOf s' t c)))

/-- An opcode the chapter does not list raises the illegal-opcode exception of R122 and R155: TILE_EXC_STATUS and
TILE_EXC_INFO are as `takeException` writes them for code 0x01, KIND 0x05 and bits 7:0.
The model's choices of log entry 5 stand in it. -/
def Obligations.UnlistedOpcodesAreExceptions : Prop :=
  ∀ (t : Fin 64) (c : Fin 4) (w : BitVec 128) (s : State) (p : Nat) (part : Part),
    bits w 7 0 ∉ listedOpcodes →
    AtHead s t c (bits w 7 0) (w.extractLsb' 8 120) [] p part →
    exec (.illegalOpcode t c w) s = .next (takeException s t c 0x01 (bits w 7 0) (ctxOf s t c).pc 0x05 (8 * 2 ^ 16) none)

/-- A WAIT whose condition holds goes on, with CONSUME and COND 0 taking VALUE from the flag; one whose condition does not hold, or that would consume
while such a WAIT of a lower context is served first, holds its head (R145, R146, R208). A FENCE completes at once when all it covers has taken effect, else its head is held; a BARRIER is first a FENCE of scope 2, then its
context arrives at the barrier its number names (R215-R218). SIGNAL is posted and its context goes on at once (R145, R212): the tile counts it, and
one signal of the named target (for a newt that is lost, the one that has its work, R214), flag, operation and value is on its way. FSET sets a flag of its own tile at once, when no signal of its context to
the same flag is on its way.
The model's choices of log entries 5 and 20 stand in it. -/
def Obligations.SyncInstructions : Prop :=
  (∀ (t : Fin 64) (c : Fin 4) (w : BitVec 120) (s : State) (p : Nat) (part : Part),
      AtHead s t c 0xC1 w [(31, 25), (127, 64)] p part →
      let v := wordOf w 0xC1
      let x := getTile s t
      let k := ctxOf s t c
      let f := bits v 15 8
      let value : Word32 := if v.getLsbD 19 then (readS k (bits v 24 20)).setWidth 32 else BitVec.ofNat 32 (bits v 63 32)
      let holds := [decide (value.toNat ≤ (getFlag x f).toNat), decide (getFlag x f = value), decide (getFlag x f ≠ value)]
      let consumes := v.getLsbD 18 = true ∧ bits v 17 16 = 0
      let turn := consumes → ∀ d < c.val, ∀ u : Word32, (ctxOf s t d).held = some (.wait f 0 true u) → (getFlag x f).toNat < u.toNat
      ∀ b : Bool, holds[bits v 17 16]? = some b →
      (b = true → turn → ∃ s', exec (.wait t c w) s = .next s' ∧ OnlyTile s s' t c ∧ WentOn k (ctxOf s' t c) ∧
        { getTile s' t with ctx := x.ctx, lending := x.lending, flags := x.flags } = x ∧
        ∀ g, getFlag (getTile s' t) g = if g = f ∧ consumes then getFlag x f - value else getFlag x g) ∧
      (b = false ∨ ¬turn → ∃ s', exec (.wait t c w) s = .next s' ∧ { s' with tiles := s.tiles } = s ∧ (∀ u : Nat, u ≠ t.val → getTile s' u = getTile s u) ∧
        { getTile s' t with ctx := x.ctx } = x ∧ (∀ d : Nat, d ≠ c.val → ctxOf s' t d = ctxOf s t d) ∧
        Waits s k (ctxOf s' t c) 1 f (.wait f (bits v 17 16) (v.getLsbD 18) value))) ∧
  (∀ (t : Fin 64) (c : Fin 4) (w : BitVec 120) (s : State) (p : Nat) (part : Part),
      let x := getTile s t
      let k := ctxOf s t c
      let held := fun (s' : State) => (∀ u : Nat, u ≠ t.val → getTile s' u = getTile s u) ∧ { getTile s' t with ctx := x.ctx } = x ∧ ∀ d : Nat, d ≠ c.val → ctxOf s' t d = ctxOf s t d
      (AtHead s t c 0xC2 w [(127, 10)] p part → bits (wordOf w 0xC2) 9 8 < 3 →
        let scope := bits (wordOf w 0xC2) 9 8
        (fenceDone s t c scope = true → ∃ s', exec (.fence t c w) s = .next s' ∧ OnlyTile s s' t c ∧ SameUnits x (getTile s' t) ∧ WentOn k (ctxOf s' t c)) ∧
        (fenceDone s t c scope = false → ∃ s', exec (.fence t c w) s = .next s' ∧ { s' with tiles := s.tiles } = s ∧ held s' ∧
          Waits s k (ctxOf s' t c) 2 0 (.fence scope))) ∧
      (AtHead s t c 0xC3 w [(127, 12)] p part →
        let num := bits (wordOf w 0xC3) 11 8
        (barrierMask part num).getLsbD c = true →
        (fenceDone s t c 2 = false → ∃ s', exec (.barrier t c w) s = .next s' ∧ { s' with tiles := s.tiles } = s ∧ held s' ∧
          Waits s k (ctxOf s' t c) 2 0 (.barrier num)) ∧
        (fenceDone s t c 2 = true → ∃ s', exec (.barrier t c w) s = .next s' ∧ { s' with tiles := s.tiles, parts := s.parts } = s ∧ held s' ∧
          Waits s k (ctxOf s' t c) 3 num (.barrier num) ∧
          getPart? s' p = some { part with arrived := tabInsert num (tabGetD part.arrived num [] ++ [(t.val, c.val)]) part.arrived } ∧
          ∀ q, q ≠ p → getPart? s' q = getPart? s q))) ∧
  (∀ (t : Fin 64) (c : Fin 4) (w : BitVec 120) (s : State) (p : Nat) (part : Part),
      let x := getTile s t
      let k := ctxOf s t c
      (AtHead s t c 0xC0 w [(31, 31), (127, 64)] p part →
        let v := wordOf w 0xC0
        let tg := if v.getLsbD 23 then bits (readS k (bits v 28 24)) 5 0 else bits v 22 17
        bits v 30 29 < 2 → bits v 15 8 ≠ 255 →
        ∀ dst : Nat, (if v.getLsbD 16 then tg < 8 ∧ dst = newtFor s tg else tileOfIndex part tg = some dst) →
        ∃ s', exec (.signal t c w) s = .next s' ∧ OnlyTile s { s' with sigs := s.sigs } t c ∧ WentOn k (ctxOf s' t c) ∧
          { getTile s' t with ctx := x.ctx, lending := x.lending, ctrs := x.ctrs } = x ∧
          (∀ o, smGet (getTile s' t).ctrs o = if o = 0xC0 then smGet x.ctrs o + 1 else smGet x.ctrs o) ∧
          s'.sigs = s.sigs ++ [{ src := .ctx t c, toNewt := v.getLsbD 16, target := dst, flag := bits v 15 8, set := decide (bits v 30 29 = 1),
                                 value := BitVec.ofNat 32 (bits v 63 32), part := p, steep := (part.running.map (·.n)).getD 0 }]) ∧
      (AtHead s t c 0xC4 w [(31, 16), (127, 64)] p part →
        let v := wordOf w 0xC4
        bits v 15 8 ≠ 255 → (∀ g ∈ s.sigs, g.src = .ctx t c → g.flag ≠ bits v 15 8) →
        ∃ s', exec (.fset t c w) s = .next s' ∧ OnlyTile s s' t c ∧ WentOn k (ctxOf s' t c) ∧
          { getTile s' t with ctx := x.ctx, lending := x.lending, flags := x.flags } = x ∧
          ∀ g, getFlag (getTile s' t) g = if g = bits v 15 8 then BitVec.ofNat 32 (bits v 63 32) else getFlag x g))

/-- A matrix instruction that passes its checks is taken (R57, R127, R134): one operation more is queued at the array, with the registers as they read
now and, for TMMA.L and TMMA.F, its first entry read; with ZERO its slot is taken with every word +0 (R65); no byte of the scratchpad changes. A vector instruction that passes its checks is taken
(R141, R142) with the registers as they read now; a FREE destination slot is taken with every word +0; no byte of the scratchpad changes. DRAIN,
RESCALE and LSWAP that pass their checks are taken (R106, R117, R138, R191): a drain waits at the drain unit with its descriptor, read in the record it claimed, and its slot is
DRAINING; a rescale holds its target; the head of an LSWAP waits for the leaf swap. No byte of the scratchpad and no accumulator word changes.
The model's choices of log entries 5 and 38 stand in it. -/
def Obligations.ComputeInstructionsAreTaken : Prop :=
  (∀ (t : Fin 64) (c : Fin 4) (w : BitVec 120) (s : State) (p : Nat) (part : Part), ∀ q ∈ matrixRows t c w,
      AtHead s t c q.2 w (matRsv q.2) p part → matCheck (issOf s t c q.2 w p part) = .go →
      let v := wordOf w q.2
      let x := getTile s t
      let k := ctxOf s t c
      ∃ s', exec q.1 s = .next s' ∧ OnlyTile s s' t c ∧ WentOn k (ctxOf s' t c) ∧ ListsRead x (getTile s' t) ∧
        (∃ m, (getTile s' t).mats = x.mats ++ [m] ∧ m.ctx = c.val ∧ m.pc = k.pc ∧ m.word = v ∧ m.slot = bits v 11 10 ∧ m.loaded = true ∧ m.listIdx = 0 ∧
          m.aReg0 = readS k (bits v 60 56) ∧ m.bReg0 = readS k (bits v 65 61) ∧
          (q.2 = 0x40 → m.aReg = readS k (bits v 60 56) ∧ m.bReg = readS k (bits v 65 61) ∧ m.kBound = (readB k (bits v 43 40)).toNat) ∧ m.pWord = readS k (bits v 70 66) ∧ m.qWord = readS k (bits v 75 71) ∧
          m.mBound = (readB k (bits v 35 32)).toNat ∧ m.nBound = (readB k (bits v 39 36)).toNat ∧
          m.rowMask = readM k (bits v 46 44) ∧ m.done = (if v.getLsbD 96 then some (bits v 104 97) else none)) ∧
        (getSlot (getTile s' t) (bits v 11 10)).pendingOps = (if v.getLsbD 12 then 0 else (getSlot x (bits v 11 10)).pendingOps) + 1 ∧
        (v.getLsbD 12 = true → (getSlot (getTile s' t) (bits v 11 10)).st = .accumulating ∧ (getSlot (getTile s' t) (bits v 11 10)).owner = c.val ∧
          ∀ row < 128, ∀ col < 512, smGet (getTile s' t).acc ((bits v 11 10 * 128 + row) * 512 + col) = 0) ∧
        (v.getLsbD 12 = false → (getTile s' t).acc = x.acc)) ∧
  (∀ (t : Fin 64) (c : Fin 4) (w : BitVec 120) (s : State) (p : Nat) (part : Part), ∀ q ∈ vectorRows t c w,
      AtHead s t c q.2 w [(127, 64)] p part → vecCheck (issOf s t c q.2 w p part) = .go →
      let v := wordOf w q.2
      let x := getTile s t
      let k := ctxOf s t c
      let fresh := bits v 9 8 = 0 ∧ (getSlot x (bits v 14 10)).st = .free
      ∃ s', exec q.1 s = .next s' ∧ OnlyTile s s' t c ∧ WentOn k (ctxOf s' t c) ∧ SameStore x (getTile s' t) ∧
        (∃ z, (getTile s' t).vecs = x.vecs ++ [z] ∧ z.ctx = c.val ∧ z.pc = k.pc ∧ z.opcode.toNat = q.2 ∧
          z.aWord = readS k (bits v 21 17) ∧ z.bWord = readS k (bits v 28 24) ∧ z.cWord = readS k (bits v 35 31) ∧ z.dWord = readS k (bits v 14 10) ∧
          z.mBound = (readB k (bits v 39 36)).toNat ∧ z.nBound = (readB k (bits v 43 40)).toNat ∧
          z.rowMask = readM k (bits v 46 44) ∧ z.colMask = readM k (bits v 49 47) ∧ z.done = (if v.getLsbD 55 then some (bits v 63 56) else none)) ∧
        (fresh → (getSlot (getTile s' t) (bits v 14 10)).st = .accumulating ∧ (getSlot (getTile s' t) (bits v 14 10)).owner = c.val ∧
          ∀ row < 128, ∀ col < 512, smGet (getTile s' t).acc ((bits v 14 10 * 128 + row) * 512 + col) = 0) ∧
        (¬fresh → (getTile s' t).acc = x.acc ∧ (getTile s' t).slots = x.slots)) ∧
  (∀ (t : Fin 64) (c : Fin 4) (w : BitVec 120) (s : State) (p : Nat) (part : Part),
      let x := getTile s t
      let k := ctxOf s t c
      (AtHead s t c 0x48 w [(9, 8), (127, 52)] p part → drainCheck (issOf s t c 0x48 w p part) = .go →
        let v := wordOf w 0x48
        let i := issOf s t c 0x48 w p part
        let a := bits (readS k (bits v 18 14)) 23 0 + claimShift (headClaims x c [descOpnd i]) (headOp x c) 13
        ∃ s', exec (.drain t c w) s = .next s' ∧ OnlyTile s s' t c ∧ WentOn k (ctxOf s' t c) ∧ ListsRead x (getTile s' t) ∧
          (getTile s' t).acc = x.acc ∧ (getSlot (getTile s' t) (bits v 11 10)).st = .draining ∧
          ∃ d, (getTile s' t).drains = x.drains ++ [d] ∧ d.ctx = c.val ∧ d.slot = bits v 11 10 ∧ d.partner = bits v 13 12 ∧ d.started = false ∧
            d.desc = readLE x.spad a 64 512 ∧ d.done = (if v.getLsbD 43 then some (bits v 51 44) else none)) ∧
      (AtHead s t c 0x44 w [(9, 8), (127, 14)] p part → rescaleCheck (issOf s t c 0x44 w p part) = .go →
        let v := wordOf w 0x44
        ∃ s', exec (.rescale t c w) s = .next s' ∧ OnlyTile s s' t c ∧ WentOn k (ctxOf s' t c) ∧ SameStore x (getTile s' t) ∧
          (getTile s' t).acc = x.acc ∧ (getSlot (getTile s' t) (bits v 11 10)).rescaling = true ∧
          (getTile s' t).rescales = x.rescales ++ [{ ctx := c, target := bits v 11 10, source := bits v 13 12, started := false }]) ∧
      (AtHead s t c 0x45 w [(127, 8)] p part → (∃ img, part.image = some img ∧ x.ringRound < img.ringSchedule.length) →
        ∃ s', exec (.lswap t c w) s = .next s' ∧ { s' with tiles := s.tiles } = s ∧ (∀ u : Nat, u ≠ t.val → getTile s' u = getTile s u) ∧
          { getTile s' t with ctx := x.ctx } = x ∧ (∀ d : Nat, d ≠ c.val → ctxOf s' t d = ctxOf s t d) ∧ Waits s k (ctxOf s' t c) 6 0 .lswap))

/-! ## Units and events of a tile -/

/-- SRUN puts its program on a handle that is not busy (R144, R179). SSTOP ends the program of its handle without a DONE increment: with nothing of it
on the way the handle is idle at once, else it takes up no more work and is idle when what it issued has completed (R144). Neither touches a
register.
The model's choices of log entry 5 stand in it. -/
def Obligations.StreamInstructions : Prop :=
  ∀ (t : Fin 64) (c : Fin 4) (w : BitVec 120) (s : State) (p : Nat) (part : Part),
    let x := getTile s t
    let k := ctxOf s t c
    (AtHead s t c 0xA0 w [(127, 63)] p part → srunCheck (issOf s t c 0xA0 w p part) = .go →
      let v := wordOf w 0xA0
      let h := bits v 10 8
      ∃ s', exec (.srun t c w) s = .next s' ∧ OnlyTile s s' t c ∧ WentOn k (ctxOf s' t c) ∧ SameStore x (getTile s' t) ∧
        (∀ j, j ≠ h → getHandle (getTile s' t) j = getHandle x j) ∧
        let n := getHandle (getTile s' t) h
        (n.busy = true ∧ n.loaded = false ∧ n.ctx = c.val ∧ n.pcInstr = k.pc ∧ n.dir = bits v 27 26 ∧ n.rtile = bits v 33 28 ∧
          n.progAddr = (readS k (bits v 15 11)).toNat ∧ n.m = ((readS k (bits v 20 16)).toNat : Int) ∧ n.localWord = readS k (bits v 25 21) ∧
          n.reads = [] ∧ n.done = (if v.getLsbD 34 then some (bits v 42 35) else none))) ∧
    (AtHead s t c 0xA1 w [(127, 11)] p part → (issOf s t c 0xA1 w p part).older = false →
      let h := bits (wordOf w 0xA1) 10 8
      let hd := getHandle x h
      let ended := { hd with loaded := true, prog := [0], ip := 0, loops := [], sent := 0, walking := none, fed := [], fedRuns := [], done := none }
      ∃ s', exec (.sstop t c w) s = .next s' ∧ WentOn k (ctxOf s' t c) ∧ (∀ u : Nat, (getTile s' u).spad = (getTile s u).spad) ∧ s'.sigs = s.sigs ∧
        (hd.busy = false → OnlyTile s s' t c ∧ SameUnits x (getTile s' t)) ∧
        (hd.busy = true → handleQuiet s t h = true → (getHandle (getTile s' t) h).busy = false ∧ (hd.far = [] → OnlyTile s s' t c ∧ ListsRead x (getTile s' t))) ∧
        (hd.busy = true → handleQuiet s t h = false → OnlyTile s s' t c ∧ SameStore x (getTile s' t) ∧ getHandle (getTile s' t) h = ended ∧
          ∀ j, j ≠ h → getHandle (getTile s' t) j = getHandle x j))

/-- The array ends an operation whose checks passed and which was its instruction's last (R57, R134, R137): it leaves the array, its slot has one
operation fewer in flight, and no byte of the scratchpad and no context changes. A vector instruction whose claims are taken and whose checks passed ends
(R141, R142, R167): with a scratchpad destination every byte outside the runs its rows write reads as before; with a slot destination every valid cell
holds the result of R141 and the scratchpad is unchanged. A DONE increment stands behind the signals of its context to the flag that are on their way
(R210).
The model's choices of log entries 3, 12, 17 and 26 stand in it. -/
def Obligations.ComputeOperationsEnd : Prop :=
  (∀ (t : Fin 64) (chk : Check) (s : State) (m : MatOp) (rest : List MatOp),
      let x := getTile s t
      x.mats = m :: rest → m.loaded = true → claimsTaken x m.id = true → (∃ replayed left, arrayCheck m.shape chk = .done replayed left) →
      poisoned x (readsOfOp x m.id (matOpnds x m)) = none → numericBad x m = none → m.listLen ≤ m.listIdx + 1 → (∀ ch, m.chainA = some ch → ch ≠ m.slot) →
      ∃ s', exec (.tmmaIssueEnd t chk) s = .next s' ∧ TileAndSignals s s' t (s.sigs ++ lateDone s t m.ctx m.done) ∧
        let y := getTile s' t
        y.mats = rest ∧ y.spad = x.spad ∧ y.ctx = x.ctx ∧ y.handles = x.handles ∧ y.drains = x.drains ∧ y.vecs = x.vecs ∧
        (getSlot y m.slot).pendingOps = (getSlot x m.slot).pendingOps - 1 ∧ (getSlot y m.slot).st = (getSlot x m.slot).st ∧
        (∀ ch, m.chainA = some ch → (getSlot y ch).st = .free)) ∧
  (∀ (t : Fin 64) (chk : Check) (s : State) (v : VecOp) (rest : List VecOp),
      let x := retryClaims (makeClaims (getTile s t) v.id v.ctx false (vecOpnds v)) v.id
      (getTile s t).vecs = v :: rest → claimsTaken x v.id = true → checkPassed chk = true →
      poisoned x (readsOfOp x v.id ((vecOpnds v).filter (fun o => !o.write))) = none →
      ∃ s', exec (.vectorEnd t chk) s = .next s' ∧ TileAndSignals s s' t (s.sigs ++ lateDone s t v.ctx v.done) ∧
        let y := getTile s' t
        y.vecs = rest ∧ y.ctx = x.ctx ∧ y.mats = x.mats ∧ y.drains = x.drains ∧ y.handles = x.handles ∧
        (v.dk = 1 → y.acc = x.acc ∧ y.slots = x.slots ∧ ∀ a, outsideRuns ((vecRows v).flatMap (vecRowRuns x v)) a → smGet y.spad a = smGet x.spad a) ∧
        (v.dk ≠ 1 → y.spad = x.spad ∧
          (v.opcode ≠ 0x8E → ∀ row ∈ vecRows v, ∀ col ∈ vecCols v, smGet y.acc (accKey v.d row col) = vecResult x v row col)))

/-- DRAIN_START lets a waiting drain begin when fewer than two run (R58, R107); DRAIN_END, its claims taken and its checks passed, writes its rows: it
leaves the unit, its slot is FREE or, with DEST 3, CHAINED (R69, R108), a gating partner is FREE, every byte of the scratchpad outside the runs it
writes reads as before, a stream destination's program has the rows, and one in another tile has them on their way (R139, R175, R182). RESCALE starts, and
ends by leaving its unit with its target no longer held (R117); the leaf swap exchanges the halves of the leaf buffer and lets the context that waited
longest go on (R71, R128).
The model's choices of log entries 1, 25 and 37 stand in it. -/
def Obligations.DrainRescaleAndLeafEvents : Prop :=
  (∀ (t : Fin 64) (s : State),
      let x := getTile s t
      (∀ d : DrainOp, x.drains.find? (fun q => !q.started) = some d → (x.drains.filter (·.started)).length < 2 →
        ∃ s', exec (.drainStart t) s = .next s' ∧ TileOnly s s' t ∧
          let y := getTile s' t
          y.drains = x.drains.map (fun q => if q.id = d.id then { q with started := true } else q) ∧ y.spad = x.spad ∧ y.acc = x.acc ∧ y.slots = x.slots ∧ y.ctx = x.ctx) ∧
      (∀ (chk : Check) (d : DrainOp) (p : Nat) (part : Part), partOfTile s t = some p → getPart? s p = some part →
        x.drains.find? (·.started) = some d → checkPassed chk = true →
        let z := getSlot x d.slot
        let x1 := retryClaims (makeClaims x d.id d.ctx false (drainOpnds z d)) d.id
        let s1 := (remoteReady (setTile s t x1) t part d).1
        let b := initBanks (getTile s1 t) d.ctx (dInit d.desc)
        let rows := (drainQs z).flatMap (fun q => (drainRows z d q).map (drainRow b part z d q))
        let h := bits (dWord d.desc 8) 2 0
        (remoteReady (setTile s t x1) t part d).2 = true → claimsTaken (getTile s1 t) d.id = true →
        poisoned (getTile s1 t) (readsOfOp (getTile s1 t) d.id ((drainOpnds z d).filter (fun o => !o.write)) ++ mapReads (getTile s1 t) part z d) = none →
        (dStep d.desc 5 = true → d.partner ≠ d.slot) → (dDest d.desc = 1 → allRows z d = [] ∨ feedEnded (getHandle x h) = false) →
        ∃ s', exec (.drainEnd t chk) s = .next s' ∧ (∀ u : Nat, u ≠ t.val → getTile s' u = getTile s1 u) ∧
          (dDest d.desc ≠ 2 → TileAndSignals s s' t (s.sigs ++ lateDone s t d.ctx d.done)) ∧
          (∀ u : Nat, dDest d.desc = 2 → tileOfIndex part (dRtile d.desc) = some u → s'.sigs = s.sigs ∧
            ∃ r, s'.remotes = s.remotes ++ [r] ∧ r.src = t.val ∧ r.dst = u ∧ r.read = false ∧ r.runs = rows.flatMap (rowRuns z d.desc 0) ∧ r.done = d.done) ∧
          let y := getTile s' t
          y.drains = x.drains.filter (fun q => decide (q.id ≠ d.id)) ∧ y.ctx = x.ctx ∧ y.mats = x.mats ∧ y.acc = x.acc ∧
          (dDest d.desc = 3 → (getSlot y d.slot).st = .chained) ∧ (dDest d.desc ≠ 3 → getSlot y d.slot = {}) ∧ (dStep d.desc 5 = true → getSlot y d.partner = {}) ∧
          (dDest d.desc = 1 → (getHandle y h).fed = (getHandle x h).fed ++ ((allRows z d).map (fun m => rowFeed z d (rows.filter (fun r => decide (r.m = m))))).flatten) ∧
          (dDest d.desc ≠ 1 → y.handles = x.handles) ∧
          ∀ a, outsideRuns ((if dDest d.desc = 0 then rows.flatMap (rowRuns z d.desc (claimShift b d.id 5)) else []) ++ rows.flatMap (statRuns z d (claimShift b d.id 6))) a →
            smGet y.spad a = smGet x.spad a)) ∧
  (∀ (t : Fin 64) (s : State),
      let x := getTile s t
      (exec (.rescaleStart t) s = .next (setTile s t { x with rescales := x.rescales.map (fun r => { r with started := true }) })) ∧
      (∀ (r : ResOp) (rest : List ResOp), x.rescales = r :: rest → r.started = true →
        ∃ s', exec (.rescaleEnd t) s = .next s' ∧ TileOnly s s' t ∧
          let y := getTile s' t
          y.rescales = rest ∧ (getSlot y r.target).rescaling = false ∧ (getSlot y r.target).st = (getSlot x r.target).st ∧ y.spad = x.spad ∧ y.ctx = x.ctx) ∧
      (∀ (c : Nat) (p : Nat) (part : Part), partOfTile s t = some p → getPart? s p = some part → swapWaiter x = some c →
        x.arr.full = true → (∀ m ∈ x.mats, m.bSrc ≠ 0) → ringIdle (tileCount part) x = true →
        ∃ s', exec (.leafSwap t) s = .next s' ∧ { s' with tiles := s.tiles } = s ∧
          let y := getTile s' t
          y.cur.bytes = x.arr.bytes ∧ WentOn (getCtx x c) (getCtx y c) ∧ y.spad = x.spad ∧ y.acc = x.acc ∧
          (if tileCount part ≤ x.ringPos + 1 then y.ringPos = 0 ∧ y.ringRound = x.ringRound + 1 else y.ringPos = x.ringPos + 1 ∧ y.ringRound = x.ringRound)))

/-- A held WAIT whose condition holds, and a held FENCE whose scope is done, go on; a BARRIER whose fence is done arrives (R146, R208, R215, R218). A
barrier whose members have all arrived lets every one of them go on, and counts a use (R218); while a steep runs, the release of its last layer mark is its
boundary, and that of the mark before it the composition point (R219).
The model's choices of log entry 1 stand in it. -/
def Obligations.HeldHeadsGoOn : Prop :=
  (∀ (t : Fin 64) (c : Fin 4) (s : State),
      let x := getTile s t
      let k := ctxOf s t c
      (∀ (f cond : Nat) (consume : Bool) (v : Word32), k.held = some (.wait f cond consume v) → cond < 3 →
        (if cond = 0 then v.toNat ≤ (getFlag x f).toNat else if cond = 1 then getFlag x f = v else getFlag x f ≠ v) →
        (consume = true → cond = 0 → ∀ d < c.val, ∀ u : Word32, (ctxOf s t d).held = some (.wait f 0 true u) → (getFlag x f).toNat < u.toNat) →
        ∃ s', exec (.waitSatisfied t c) s = .next s' ∧ OnlyTile s s' t c ∧ WentOn k (ctxOf s' t c) ∧
          { getTile s' t with ctx := x.ctx, lending := x.lending, flags := x.flags } = x ∧
          ∀ g, getFlag (getTile s' t) g = if g = f ∧ consume = true ∧ cond = 0 then getFlag x f - v else getFlag x g) ∧
      (∀ scope : Nat, k.held = some (.fence scope) → fenceDone s t c scope = true →
        ∃ s', exec (.fenceComplete t c) s = .next s' ∧ OnlyTile s s' t c ∧ SameUnits x (getTile s' t) ∧ WentOn k (ctxOf s' t c)) ∧
      (∀ (num p : Nat) (part : Part), k.held = some (.barrier num) → k.cause = 2 → fenceDone s t c 2 = true → partOfTile s t = some p → getPart? s p = some part →
        ∃ s', exec (.fenceComplete t c) s = .next s' ∧ { s' with tiles := s.tiles, parts := s.parts } = s ∧ Waits s k (ctxOf s' t c) 3 num (.barrier num) ∧
          (getPart? s' p).map (fun y => tabGetD y.arrived num []) = some (tabGetD part.arrived num [] ++ [(t.val, c.val)]))) ∧
  (∀ (p : Fin 64) (bar : Fin 16) (s : State) (x : Part), getPart? s p = some x → barrierMembers x bar ≠ [] →
      (∀ q ∈ barrierMembers x bar, q ∈ tabGetD x.arrived bar.val []) →
      let use := (smGet x.uses bar.val).toNat
      let y := { x with arrived := tabErase bar.val x.arrived, uses := smSet x.uses bar.val (BitVec.ofNat 32 (use + 1)) }
      ∃ s', { s' with tiles := s.tiles, parts := s.parts } = s ∧ (∀ q ∈ barrierMembers x bar, WentOn (ctxOf s q.1 q.2) (ctxOf s' q.1 q.2)) ∧ getPart? s' p = some y ∧
        (x.running = none ∨ x.image = none ∨ x.phase = .none → exec (.barrierRelease p bar) s = .next s') ∧
        (∀ img st, x.image = some img → x.running = some st → x.phase ≠ .none →
          let left := img.layerMarks.length - (img.layerMarks.idxOf (bar.val, use) + 1)
          (left = 0 → (bar.val, use) ∈ img.layerMarks → exec (.barrierRelease p bar) s = .next (boundary s' p y img st)) ∧
          (left = 1 → x.phase = .body → exec (.barrierRelease p bar) s = .next (compositionPoint (setPart s' p { y with phase := .final }) p)) ∧
          (2 ≤ left ∨ (left = 1 ∧ x.phase = .final) ∨ (bar.val, use) ∉ img.layerMarks → exec (.barrierRelease p bar) s = .next s')))

/-- A signal that nothing of its source is ahead of reaches its target (R146, R213): a newt keeps it under its number; a tile's flag is set or added to
modulo 2^32, and no other flag of the tile and no other tile changes. A waiting claim that can be taken and that no other goes before is taken (R168,
R169): only tags, circular regions and the list of claims of its tile change. A remote scratchpad transfer whose claims are taken (R175-R177): a write's
bytes stand at its target, every other byte there as before, and a drain's DONE increment follows; a read's bytes land at the requester, where every
other byte reads as before; the traffic is counted.
The model's choices of log entries 20 and 157 stand in it. -/
def Obligations.ArrivalsAndClaims : Prop :=
  (∀ (i : Nat) (s : State) (g : Sig), s.sigs[i]? = some g → sigBlocked s.sigs i g = false →
      (g.toNewt = true → ∃ s', exec (.signalArrive i) s = .next s' ∧ { s' with sigs := s.sigs, iod := { s'.iod with newtFlags := s.iod.newtFlags } } = s ∧
        s'.sigs = dropIdx s.sigs i ∧
        ∀ k, smGet s'.iod.newtFlags k = if k ≠ g.target * 256 + g.flag then smGet s.iod.newtFlags k else if g.set then g.value else smGet s.iod.newtFlags k + g.value) ∧
      (g.toNewt = false → sigStale { s with sigs := dropIdx s.sigs i } g = true →
        exec (.signalArrive i) s = .next (setTile { s with sigs := dropIdx s.sigs i } g.target (tileCtr (getTile s g.target) 0xD0 1))) ∧
      (g.toNewt = false → sigStale { s with sigs := dropIdx s.sigs i } g = false →
        ∃ s', exec (.signalArrive i) s = .next s' ∧ TileOnly { s with sigs := dropIdx s.sigs i } s' g.target ∧
          let x := getTile s g.target
          let y := getTile s' g.target
          { y with flags := x.flags, ctrs := x.ctrs } = x ∧
          ∀ f, getFlag y f = if f ≠ g.flag then getFlag x f else if g.set then g.value else BitVec.ofNat 32 ((getFlag x f).toNat + g.value.toNat))) ∧
  (∀ (t : Fin 64) (i : Nat) (s : State) (q : Claim), (getTile s t).claims[i]? = some q → q.taken = false → canClaim (getTile s t) q = true →
      claimAhead (getTile s t) i q = false →
      ∃ s', exec (.tagClaim t i) s = .next s' ∧ TileOnly s s' t ∧
        let x := getTile s t
        let y := getTile s' t
        { y with tags := x.tags, circs := x.circs, claims := x.claims } = x ∧ y.claims.length = x.claims.length ∧
        (∃ q', y.claims[i]? = some q' ∧ q' = { q with taken := true, index := q'.index }) ∧ (∀ j, j ≠ i → y.claims[j]? = x.claims[j]?) ∧
        (q.circ = false → q.writer = true → (tagOf y q.entry q.index).st = .filling) ∧
        (q.circ = false → q.writer = false → (tagOf y q.entry q.index).act = (tagOf x q.entry q.index).act + 1)) ∧
  (∀ (i : Nat) (s : State) (r : Remote), s.remotes[i]? = some r → remoteBlocked s.remotes i r = false →
      let y := farClaim (getTile s r.dst) r
      let s1 := setTile { s with remotes := dropIdx s.remotes i } r.dst y
      let hd := getHandle (getTile s r.src) (r.handle.getD 0)
      let a := r.addr + farShift y r
      let x := landClaim (getTile s1 r.src) hd r.loc
      farReady y r = true →
      (r.read = false →
        ∃ s', exec (.remoteWriteArrive i) s = .next s' ∧ { s' with remotes := s.remotes, tiles := s.tiles, sigs := s.sigs } = s ∧ s'.remotes = dropIdx s.remotes i ∧
          s'.sigs = s.sigs ++ lateDone s r.src r.ctx r.done ∧ (∀ u, u ≠ r.dst → { getTile s' u with flags := (getTile s u).flags } = getTile s u) ∧
          (∀ u, u ≠ r.dst → u ≠ r.src → getTile s' u = getTile s u) ∧
          let z := getTile s' r.dst
          (∀ b, outsideRuns (r.runs.map (fun q => (q.1 + farShift y r, q.2))) b → smGet z.spad b = smGet y.spad b) ∧
          (∀ b l, r.runs = [(b, l)] → ∀ j < l.length, smGet z.spad (b + farShift y r + j) = l.getD j 0) ∧
          z.ctx = y.ctx ∧ z.acc = y.acc ∧ (r.src ≠ r.dst → ∀ g, ¬namesFlag y g → getFlag z g = getFlag y g) ∧
          smGet z.ctrs 0x90 = (if r.src = r.dst then smGet y.ctrs 0x90 else smGet y.ctrs 0x90 + BitVec.ofNat 64 (((r.runs.map (fun q => q.2.length)).sum + 63) / 64))) ∧
      (r.read = true → r.toArr = false → hd.dir ≠ 2 → poisoned y [(a, r.len)] = none → claimsTaken x hd.opId = true →
        ∃ s', exec (.remoteReadReturn i) s = .next s' ∧ { s' with remotes := s.remotes, tiles := s.tiles } = s ∧ s'.remotes = dropIdx s.remotes i ∧
          (∀ u, u ≠ r.dst → u ≠ r.src → getTile s' u = getTile s u) ∧
          (∀ u, (getTile s' u).flags = (getTile s u).flags ∧ (getTile s' u).ctx = (getTile s u).ctx ∧ (u ≠ r.src → (getTile s' u).spad = (getTile s u).spad)) ∧
          smGet (getTile s' r.dst).ctrs 0x98 = (if r.src = r.dst then smGet y.ctrs 0x98 else smGet y.ctrs 0x98 + BitVec.ofNat 64 ((r.len + 63) / 64)) ∧
          (∀ b, outsideRuns (scatter (opndReads x hd.opId [landOpnd hd r.loc]) (readBytes y.spad a r.len)) b → smGet (getTile s' r.src).spad b = smGet x.spad b) ∧
          (∀ b, r.loc = [(b, r.len)] → ∀ j < r.len, smGet (getTile s' r.src).spad (b + claimShift x hd.opId 16 + j) = smGet y.spad (a + j))))

/-- The timeouts of a tile (R89, R221, R222, R223, R225): a tile that makes no progress with work pending (an END that waits for a unit is none of its own,
nor is a unit that waits at a claim, R171) is faulted with cause 0x08, a partition stalled for its wait limit records the longest waiter and loses its
steep, an idle tile lends its power share. The scrubber corrects the single-bit errors of
its line and poisons the words with double-bit errors (R161, R162); data, flags and every other line's errors are unchanged.
The model's choices of log entries 44 and 143 stand in it. -/
def Obligations.TileTimeoutsAndScrubbing : Prop :=
  ((∀ (t : Fin 64) (s : State), ((∃ c < 4, (ctxOf s t c).st = .running ∧ (ctxOf s t c).atEnd = false) ∨ unitBusy s t = true) → (getTile s t).retired = false →
      exec (.tileHangTimeout t) s = .next (tileFault s t 0x08 none 0)) ∧
    (∀ (p : Fin 64) (s : State) (x : Part), getPart? s p = some x → x.phase ≠ .none →
      (∀ t ∈ maskTiles x.tileMask, (∀ c < 4, (ctxOf s t c).st = .running → (ctxOf s t c).atEnd = true) ∧ unitBusy s t = false) →
      exec (.waitLimitExpiry p) s = .next (abortSteep
        (setPart s p { x with syncStatus := setBit (recordWaiter x.syncStatus (longest (waiters s x))) 63 true }) p
        (if lossExcused (setPart s p { x with syncStatus := setBit (recordWaiter x.syncStatus (longest (waiters s x))) 63 true }) p then .none else .image))) ∧
    (∀ (t : Fin 64) (s : State), (∀ c < 4, (ctxOf s t c).st = .running → (ctxOf s t c).atEnd = true) → unitBusy s t = false →
      exec (.powerLend t) s = .next (setTile s t { getTile s t with lending := true }))) ∧
  (∀ (t : Fin 64) (line : Fin 32768) (s : State), ∃ s', exec (.scrubTick t line) s = .next s' ∧ TileOnly s s' t ∧
      let x := getTile s t
      let y := getTile s' t
      { y with oneBit := x.oneBit, twoBit := x.twoBit, poison := x.poison, spadStatus := x.spadStatus } = x ∧
      y.oneBit = x.oneBit.filter (fun w => decide (w / 128 ≠ line.val)) ∧ y.twoBit = x.twoBit.filter (fun w => decide (w / 128 ≠ line.val)) ∧
      y.poison = x.poison ++ x.twoBit.filter (fun w => decide (w / 128 = line.val)) ∧
      ((∀ w ∈ x.twoBit, w / 128 ≠ line.val) → bit y.spadStatus 63 = bit x.spadStatus 63) ∧
      ((∃ w ∈ x.twoBit, w / 128 = line.val) → bit y.spadStatus 63 = true))

/-! ## Stream engines and memory -/

/-- A started address program is read and checked (R179, R180); a transfer from memory that nothing holds up asks for its bytes in requests of at most
128 B (R178, R181, R183, R190), in order: the first is issued, and each further one until the engine's request slots or the partition's read credit run
out. Neither the scratchpad nor a flag changes.
The model's choices of log entries 5, 40 and 151 stand in it. -/
def Obligations.StreamTransfers : Prop :=
  ∀ (t : Fin 64) (h : Fin 8) (s : State) (p : Nat) (part : Part), partOfTile s t = some p → getPart? s p = some part →
    let x := getTile s t
    let h0 := getHandle x h
    h0.busy = true → mayStart x h0 = true → h0.walking = none →
    (h0.loaded = false →
      let hdr : BitVec 128 := readLE x.spad h0.progAddr 16 128
      let prog : List (BitVec 128) := (List.range (bits hdr 7 0)).map (fun i => readLE x.spad (h0.progAddr + 16 + 16 * i) 16 128)
      let reads := [(h0.progAddr, 16 + 16 * bits hdr 7 0)]
      bits hdr 7 0 ≤ 16 → poisoned x reads = none → apMalformed hdr h0.dir prog = none →
      exec (.streamXfer t h) s =
        .next (setTile s t (setHandle (correctReads x reads) h { h0 with loaded := true, prog := prog, mspace := bits hdr 15 8, hint := bits hdr 23 16 }))) ∧
    (h0.loaded = true → h0.dir = 0 → h0.drainFed = false →
      let hd := if h0.sent = 0 then apRun 128 h0 else h0
      let s1 := setTile s t (setHandle x h hd)
      let w := hd.prog.getD hd.ip 0
      ∀ (chunks : List (Nat × Nat)) (q : Nat × Nat × Nat) (l : List (Nat × Nat × Nat)), apOp w = 3 → xferBad s1 t part hd w = none →
      memSide s1 part 0 hd.mspace hd.rtile (hd.m + apM w) (apLen w) = .mem chunks [] →
      (requestsOf chunks 0).filter (fun q => decide (hd.sent ≤ q.2.2)) = q :: l → (∀ e ∈ x.merge, ∀ r ∈ q :: l, e.granule ∉ granulesOf [(r.1, r.2.1)]) →
      0 ≤ part.creditRd → h0.reads.length < 64 → readsOut (getTile s1 t) < 256 →
      ∃ s', exec (.streamXfer t h) s = .next s' ∧ (∀ u : Nat, u ≠ t.val → getTile s' u = getTile s u) ∧ (getTile s' t).spad = x.spad ∧ (getTile s' t).flags = x.flags ∧
        (getTile s' t).ctx = x.ctx ∧ (getTile s' t).merge = x.merge ∧
        let n := getHandle (getTile s' t) h
        ∃ k, 0 < k ∧ k ≤ l.length + 1 ∧
          n.reads = h0.reads ++ ((q :: l).take k).map (fun r => { chunks := [(r.1, r.2.1)], runs := sliceRanges (xferRanges hd w) r.2.2 r.2.1 }) ∧
          (k < l.length + 1 → 64 ≤ n.reads.length ∨ 256 ≤ readsOut (getTile s' t) ∨ ∃ part', getPart? s' p = some part' ∧ part'.creditRd < 0))

/-- A read whose landing claim is taken lands in the scratchpad as bytes of the partition's memory (R167, R178): every byte outside its runs reads as
before; one that fills ARR lands there (R70); a package that reports a granule on the way changes nothing of it (R201). A transfer whose program has
ended with nothing outstanding and no merge entry of its own frees its handle and adds one to its DONE flag, and to no other flag where it held no
claim (R144, R185). A merge-buffer entry that is written puts the bytes its mask enables into the partition's memory (R185): every other byte of that
memory reads as before, and the entry leaves the buffer; without write credit it waits (R190). A page entry that a walk has read joins the translation
cache, which keeps the latest 64 (R205); a stripe the combining buffer gives up leaves it, and no other (R202).
The model's choices of log entry 40 stand in it. -/
def Obligations.StreamEvents : Prop :=
  (∀ (t : Fin 64) (h : Fin 8) (i : Nat) (s : State) (p : Nat) (part : Part) (q : MemReq), partOfTile s t = some p → getPart? s p = some part →
      let hd := getHandle (getTile s t) h
      let x := landClaim (getTile s t) hd q.runs
      let b := readChunks part.mem q.chunks
      hd.reads[i]? = some q → (hd.dir = 0 → claimsTaken x hd.opId = true) →
      ∃ s', exec (.streamReadLand t h ⟨i, []⟩) s = .next s' ∧ TileOnly s s' t ∧
        (∀ bad : List Nat, exec (.streamReadLand t h ⟨i, bad⟩) s =
          .next (reportRead s' ((bad.filterMap (fun k => (granulesOf q.chunks)[k]?)).map (fun k => firstGranule p + k)))) ∧
        let y := getTile s' t
        (getHandle y h).reads = dropIdx hd.reads i ∧ y.ctx = x.ctx ∧ y.acc = x.acc ∧ y.flags = x.flags ∧
        (hd.dir = 2 → y.spad = x.spad ∧ y.arr.fill = x.arr.fill + b.length ∧ (y.arr.full = true ↔ leafBytes part x ≤ y.arr.fill)) ∧
        (hd.dir ≠ 2 → y.arr = x.arr ∧ (∀ a, outsideRuns (scatter (opndReads x hd.opId [landOpnd hd q.runs]) b) a → smGet y.spad a = smGet x.spad a) ∧
          ∀ a, q.runs = [(a, b.length)] → ∀ j < b.length, smGet y.spad (a + claimShift x hd.opId 16 + j) = b.getD j 0)) ∧
  (∀ (t : Fin 64) (h : Fin 8) (s : State) (p : Nat), partOfTile s t = some p →
      let x := getTile s t
      let hd := getHandle x h
      let en := apRun 128 hd
      hd.busy = true → hd.loaded = true → hd.sent = 0 → apOp (en.prog.getD en.ip 0) = 0 → surplusRows en = false → hd.reads = [] → hd.far = [] →
      (∀ r ∈ s.remotes, r.src = t.val → r.handle ≠ some h.val) → (∀ e ∈ x.merge, e.handles.getLsbD h = false) → (∀ q ∈ x.claims, q.op ≠ hd.opId) →
      ∃ s', exec (.streamDone t h) s = .next s' ∧ TileAndSignals s s' t (s.sigs ++ lateDone s t hd.ctx hd.done) ∧
        let y := getTile s' t
        (getHandle y h).busy = false ∧ (∀ j, j ≠ h.val → getHandle y j = getHandle x j) ∧ y.spad = x.spad ∧ y.ctx = x.ctx ∧
        ∀ f, getFlag y f = if hd.done = some f ∧ lateDone s t hd.ctx hd.done = [] then getFlag x f + 1 else getFlag x f) ∧
  (∀ (t : Fin 64) (i : Nat) (s : State) (e : MergeEntry) (p : Nat) (part : Part), (getTile s t).merge[i]? = some e → partOfTile s t = some p → getPart? s p = some part →
      ((getTile s t).merge.map (·.granule)).Nodup →
      (part.creditWr < 0 → exec (.mergeEntryTimeout t i) s = .next (setPart s p { part with waitWr := true })) ∧
      (0 ≤ part.creditWr →
        ∃ s', exec (.mergeEntryTimeout t i) s = .next s' ∧ (getTile s' t).merge = dropIdx (getTile s t).merge i ∧ (getTile s' t).spad = (getTile s t).spad ∧
          (∀ q, q ≠ p → getPart? s' q = getPart? s q) ∧
          ∃ part', getPart? s' p = some part' ∧
            ∀ a, smGet part'.mem a =
              if e.granule * 64 ≤ a ∧ a < e.granule * 64 + 64 ∧ e.mask.getLsbD (a - e.granule * 64) then smGet e.bytes (a - e.granule * 64) else smGet part.mem a)) ∧
  ((∀ (t : Fin 64) (h : Fin 8) (s : State) (q : Nat × Nat), (getHandle (getTile s t) h).walking = some q →
      ∃ s', exec (.pageWalkDone t h) s = .next s' ∧ TileOnly s s' t ∧ (getHandle (getTile s' t) h).walking = none ∧
        (getTile s' t).xlate = (if 64 ≤ (getTile s t).xlate.length then (getTile s t).xlate.drop 1 ++ [q] else (getTile s t).xlate ++ [q]) ∧
        (getTile s' t).spad = (getTile s t).spad) ∧
    (∀ (stripe : Nat) (s : State), exec (.combiningBufferTimeout stripe) s =
      .next { s with iod := { s.iod with combining := s.iod.combining.filter (fun q => decide (q.1 ≠ stripe)) } }))

/-! ## Commands of the rings -/

/-- A final completion is put behind the completions that wait for the command's completion ring, with the command's SEQ, HANDLE, status and
RESULT, DEGRADED in solo, and an interrupt where FLAGS asks for one (R303, R309); what follows it there are NOPs of the ring that waited for
nothing else (R321). No register of another kind changes. -/
def Obligations.FinalCompletionsWait : Prop :=
  ∀ (s : State) (ring : Nat) (p : Packet) (status : BitVec 16) (result : BitVec 128), mirroring s = false →
    let r := cplRing s ring p.cls
    let c : Completion := { seq := p.seq, status := status, final := true, event := false, degraded := decide (s.pair.st = 3 ∨ s.pair.st = 4), detail := 0, handle := p.handle,
                            result := result, int := p.flags.getLsbD 1 }
    (∃ l, (getRing (finish s ring p status result) r).waiting = (getRing s r).waiting ++ (c, none) :: l ∧ ∀ q ∈ l, q.1.status = 0 ∧ q.1.final = true) ∧
    (finish s ring p status result).table = s.table ∧ (finish s ring p status result).parts = s.parts ∧ (finish s ring p status result).tiles = s.tiles ∧
    (finish s ring p status result).push = s.push ∧ (finish s ring p status result).fwQueue = s.fwQueue

/-- A command that its ring's level, its tenant, its flags or its opcode does not let through has no effect but its completion (R6, R295, R296, R309);
an opcode that R310 does not list answers BAD_OPCODE.
The model's choices of log entry 14 stand in it. -/
def Obligations.CommandsTurnedAway : Prop :=
  ∀ (s : State) (ring : Nat) (p : Packet) (rd : ImageRead) (hostOk : Bool) (list : Option MemberList) (b : BindInput) (mask : BitVec 8) (img : Option FwImage) (newOk partnerOk : Bool),
    (∀ q ∈ expressRows ring p ++ (firmwareRows ring p rd hostOk list b mask img newOk partnerOk).map (fun q => (q.1, q.2.1)), ∀ st v,
      Decodable s ring q.2 p → gate (decoded s ring) ring q.2.toNat p = some (st, v) →
      exec q.1 s = .next (finish (decoded s ring) ring p st (BitVec.ofNat 128 v))) ∧
    (∀ op : BitVec 8, Decodable s ring op p → listedCommand op.toNat = false →
      exec (.unknownOpcodeCommand ring op p) s = .next (finish (decoded s ring) ring p 0x0200 0))

/-- A command that firmware carries out joins the firmware queue behind the others (R318, R320) while it has room, its SEQ outstanding at its ring; a full
queue answers BUSY_RETRY with no effect. On a pair that mirrors, a command that is let through is sent to the partner and waits for the
acknowledgement of its delta (R375).
The model's choices of log entries 14 and 15 stand in it. -/
def Obligations.CommandsAreQueued : Prop :=
  (∀ (s : State) (ring : Nat) (p : Packet) (rd : ImageRead) (hostOk : Bool) (list : Option MemberList) (b : BindInput) (mask : BitVec 8) (img : Option FwImage) (newOk partnerOk : Bool),
      ∀ q ∈ firmwareRows ring p rd hostOk list b mask img newOk partnerOk,
        Decodable s ring q.2.1 p → gate (decoded s ring) ring q.2.1.toNat p = none →
        (s.fwQueue.length < s.fwLimit.toNat → ∃ s', exec q.1 s = .next s' ∧ s'.fwQueue = s.fwQueue ++ [{ ring := ring, opcode := q.2.1, p := p, input := q.2.2 }] ∧
          { s' with fwQueue := s.fwQueue, rings := s.rings, mod := { s'.mod with lastRing := s.mod.lastRing } } = s ∧ s'.mod.lastRing = ring ∧
          (∀ r, r ≠ ring → getRing s' r = getRing s r) ∧
          getRing s' ring = { getRing s ring with head := (getRing s ring).head + 1, count := (getRing s ring).count + 1, live := (getRing s ring).live.drop 1,
                                                  outstanding := (getRing s ring).outstanding ++ [p.seq] }) ∧
        (s.fwLimit.toNat ≤ s.fwQueue.length → exec q.1 s = .next (finish (decoded s ring) ring p 0x0100 0))) ∧
  (∀ (s : State) (ring : Nat) (p : Packet), ∀ q ∈ expressRows ring p, ring < 8192 → s.ready = true → s.pwr.dev = 0 → bit (getRing s ring).cfg 63 = true → bit (getRing s ring).cfg 62 = false →
      (getRing s ring).live.head? = some (packetBits q.2 p) → cplRoom s ring p = true → handleWaits s ring q.2.toNat p = false → ringTurn s ring = true → s.pair.st = 2 →
      gate (decoded s ring) ring q.2.toNat p = none →
      ∃ s', exec q.1 s = .next s' ∧ s'.pair.held = s.pair.held ++ [(s.pair.nextDelta, { ring := ring, opcode := q.2, p := p, input := .none })] ∧
        s'.pair.nextDelta = s.pair.nextDelta + 1 ∧ s'.out = s.out ++ [.delta s.pair.nextDelta (.command ring q.2 p (getRing s ring).head)] ∧
        s'.table = s.table ∧ s'.parts = s.parts)

/-- SUBMIT_PROMPT that passes its checks, while its partition runs a steep, takes the lowest free table entry as QUEUED with the packet's fields
(R8, R231, R235, R311) and posts ACCEPTED (R313); no other entry changes.
The model's choices of log entry 14 stand in it. -/
def Obligations.SubmissionsAreAdmitted : Prop :=
  ∀ (s : State) (ring : Nat) (p : Packet) (x : Part) (img : Image) (i : Nat),
    let s1 := decoded s ring
    let n := partNo s1 ring
    Decodable s ring 0x01 p → gate s1 ring 0x01 p = none → getPart? s1 n = some x → follower s1 n = false → x.image = some img → x.phase ≠ .none →
    subReserved p = none → submitChecks s1 n x img p = none → freeEntry s1 = some i → n < 64 →
    ∃ s' e, exec (.submitPrompt ring p) s = .next s' ∧ getEntry? s' i = some e ∧ e.st = .queued ∧ e.pages = [] ∧ e.f.handle = p.handle ∧ e.f.seq = p.seq ∧
      e.f.tenant.toNat = p.tenant ∧ e.f.length.toNat = subLen p ∧ e.f.basePrio.toNat = subPrio p ∧ e.f.maxNew.toNat = subMax p ∧ e.f.admitAt = s.pwr.timebase ∧ e.f.charges = 0 ∧
      (∀ j, j ≠ i → getEntry? s' j = getEntry? s j) ∧ getPart? s' n = some { x with stir := true } ∧ (∀ k, k ≠ n → getPart? s' k = getPart? s k) ∧ s'.tiles = s.tiles ∧
      ∃ c, (getRing s' (cplRing s1 ring p.cls)).waiting = (getRing s1 (cplRing s1 ring p.cls)).waiting ++ [(c, none)] ∧ c.status = 0x0001 ∧ c.final = false ∧ c.seq = p.seq ∧ c.handle = p.handle

/-- CANCEL of a live request marks it CANCELLING until its partition's next boundary, or posts TOO_LATE for one that is finished (R19, R237);
SET_PRIORITY writes the base priority; NOP completes when no firmware command of its ring is outstanding (R247, R321).
The model's choices of log entry 14 stand in it. -/
def Obligations.ExpressCommandsTakeEffect : Prop :=
  ∀ (s : State) (ring : Nat) (p : Packet) (i : Nat) (e : Entry) (x : Part),
    let s1 := decoded s ring
    (Decodable s ring 0x02 p → gate s1 ring 0x02 p = none → follower s1 (partNo s1 ring) = false → paramsOk p [] → namedEntry s1 ring p = some (i, e) →
      getPart? s1 (partNo s1 ring) = some x → x.phase ≠ .none →
      (e.st = .queued ∨ e.st = .steeping ∨ e.st = .headstart ∨ e.st = .pouring → exec (.cancel ring p) s = .next (finish (setEntry s1 i { e with st := .cancelling, newt := none }) ring p 0 0)) ∧
      (e.st = .cancelling ∨ e.st = .done ∨ e.st = .failed → exec (.cancel ring p) s = .next (finish s1 ring p 0x0303 0))) ∧
    (Decodable s ring 0x05 p → gate s1 ring 0x05 p = none → paramsOk p [(16, 1)] → 1 ≤ p.le 16 1 → p.le 16 1 ≤ 7 → namedEntry s1 ring p = some (i, e) →
      e.st ≠ .cancelling → e.st ≠ .done → e.st ≠ .failed →
      exec (.setPriority ring p) s = .next (finish (setEntry s1 i { e with f := { e.f with basePrio := BitVec.ofNat 3 (p.le 16 1) } }) ring p 0 0)) ∧
    (Decodable s ring 0x7F p → gate s1 ring 0x7F p = none → paramsOk p [] → (getRing s ring).outstanding = [] → (getRing s ring).nops = [] →
      ∃ s2, exec (.nop ring p) s = .next (postCpl s2 ring p 0 true false 0 0) ∧ { s2 with rings := s1.rings } = s1 ∧ (∀ r, getRing s2 r = getRing s1 r))

/-- The control cores take the front of the firmware queue (R318, R320): a partition is created with the lowest ranges of rings and push memory that fit,
every tile and all push memory of it cleared (R314, R433, R434); one that holds nothing is destroyed; a tenant is created or updated. MODEL_LOAD
places the image at the start of the partition's share with the page pool behind it (R227, R228); MODEL_UNLOAD takes it away (R229).
The model's choices of log entries 7, 15, 30, 73, 74 and 160 stand in it. -/
def Obligations.SetupCommandsTakeEffect : Prop :=
  (∀ (s : State) (c : FwCmd) (rest : List FwCmd), AtFront s c rest →
      let s1 := { s with fwQueue := rest }
      (c.opcode = 0x10 → paramsOk c.p [(16, 1), (18, 19), (38, 8), (48, 8)] → createBad s1 (createArgs c.p) = none → s.mod.gen ≠ BitVec.allOnes 32 →
        ∃ s2 x rb pb, exec .firmwareQueueDispatch s = .next (finish s2 c.ring c.p 0 (BitVec.ofNat 128 (rb + pb * 2 ^ 16))) ∧ getPart? s2 (c.p.le 16 1) = some x ∧
          (∀ q, q ≠ c.p.le 16 1 → getPart? s2 q = getPart? s q) ∧ x.ringBase = rb ∧ x.pushBase = pb ∧ x.tileMask = BitVec.ofNat 64 (c.p.le 20 8) ∧ x.ringQuota = c.p.le 18 2 ∧
          x.dramPages = c.p.le 28 4 ∧ x.keyGen = s.mod.gen + 1 ∧ s2.mod.gen = s.mod.gen + 1 ∧ x.image = none ∧ x.tenants = [] ∧ x.targets = [] ∧ x.pins = [] ∧
          lowestRange (ringsTaken s1) 2 8192 (c.p.le 18 2) = some rb ∧ lowestRange (pushTaken s1) 128 16384 (c.p.le 44 2) = some pb ∧
          (∀ t, t < 64 → (BitVec.ofNat 64 (c.p.le 20 8)).getLsbD t = true → (getTile s2 t).spad = [] ∧ (getTile s2 t).acc = [] ∧ (getTile s2 t).ctrs = []) ∧
          ∀ a, smGet s2.push a = if pb * 2048 ≤ a ∧ a < (pb + c.p.le 44 2) * 2048 then 0 else smGet s.push a) ∧
      (c.opcode = 0x11 → paramsOk c.p [(16, 1)] → ∀ x : Part, getPart? s (c.p.le 16 1) = some x → destroyHeld s1 (c.p.le 16 1) x = false →
        ∃ s2, exec .firmwareQueueDispatch s = .next (finish s2 c.ring c.p 0 0) ∧ getPart? s2 (c.p.le 16 1) = none ∧ (∀ q, q ≠ c.p.le 16 1 → getPart? s2 q = getPart? s q) ∧
          (∀ t, t < 64 → x.tileMask.getLsbD t = true → (getTile s2 t).spad = [] ∧ (getTile s2 t).acc = []) ∧ s2.push = s.push ∧ s2.table = s.table) ∧
      (c.opcode = 0x12 → paramsOk c.p [(16, 3), (20, 6), (28, 4)] → ∀ x : Part, getPart? s1 (partNo s1 c.ring) = some x → tenantBad s1 (partNo s1 c.ring) x c.p = none → c.p.le 18 1 = 0 →
        ∃ s2 y, exec .firmwareQueueDispatch s = .next (finish s2 c.ring c.p 0 0) ∧ getPart? s2 (partNo s1 c.ring) = some y ∧
          y = { x with tenants := tabInsert (c.p.le 16 2) { variant := BitVec.ofNat 16 (c.p.le 20 2), pinQuota := c.p.le 28 4, subRing := c.p.le 22 2, cplRing := c.p.le 24 2 } x.tenants } ∧
          s2.table = s.table ∧ s2.tiles = s.tiles)) ∧
  (∀ (s : State) (c : FwCmd) (rest : List FwCmd), AtFront s c rest →
      let s1 := { s with fwQueue := rest }
      let n := partNo s1 c.ring
      ∀ x : Part, getPart? s1 n = some x →
      (∀ (img : Image) (expected : BitVec 384), c.opcode = 0x13 → c.input = .image (.image img expected) → paramsOk c.p [(16, 17), (40, 8)] → c.p.le 32 1 = 0 → x.image = none →
        img.headerLen = c.p.le 24 8 → (c.p.le 40 8 = 0 ∨ expected = img.measurement) → imageOk x img = true → imagePages img + totalPages img img.contextMax ≤ x.dramPages →
        ∃ s2 y, exec .firmwareQueueDispatch s = .next (finish s2 c.ring c.p 0
            (BitVec.ofNat 128 (resAt 17 (ceilDiv (largestRecord img) 1048576) + resAt 20 (x.dramPages - imagePages img) + resAt 24 (img.measurement.toNat % 2 ^ 64)))) ∧
          getPart? s2 n = some y ∧ y.image = some img ∧ y.imageBase = 0 ∧ y.imageCharges = 0 ∧ y.poolPages.toNat = (x.dramPages - imagePages img) % 2 ^ 32 ∧
          (∀ k ∈ y.pool, imagePages img ≤ k ∧ k < x.dramPages) ∧ y.tenants = x.tenants ∧ y.targets = x.targets ∧ (∀ q, q ≠ n → getPart? s2 q = getPart? s q) ∧
          (∀ a, img.size ≤ a → smGet y.mem a = smGet x.mem a) ∧ s2.table = s.table) ∧
      (c.opcode = 0x14 → paramsOk c.p [] → x.image.isSome = true → (∀ q ∈ entriesOf s1 n, boundLive q.2.st = false) →
        (∀ q ∈ s.pair.waitingEntries, q.2.partition.toNat ≠ n) → x.pins = [] →
        ∃ s2 y, exec .firmwareQueueDispatch s = .next (finish s2 c.ring c.p 0 0) ∧ getPart? s2 n = some y ∧ y.image = none ∧ y.pool = [] ∧ y.poolPages = 0 ∧ y.next = none ∧
          y.tenants = x.tenants ∧ y.mem = x.mem ∧ (∀ q, q ≠ n → getPart? s2 q = getPart? s q) ∧ s2.table = s.table ∧ s2.tiles = s.tiles))

/-- PAUSE, RESUME, QUERY_REQUEST, PREFIX_PIN and PREFIX_UNPIN take effect when firmware carries them out (R237-R239, R252, R254, R312, R316).
The model's choices of log entries 15, 49, 51 and 52 stand in it. -/
def Obligations.RequestCommandsTakeEffect : Prop :=
  (∀ (s : State) (c : FwCmd) (rest : List FwCmd) (i : Nat) (e : Entry) (x : Part), AtFront s c rest →
    let s1 := { s with fwQueue := rest }
    let n := partNo s1 c.ring
    getPart? s1 n = some x → follower s1 n = false → x.phase ≠ .none → namedEntry s1 c.ring c.p = some (i, e) →
    (c.opcode = 0x03 → paramsOk c.p [] → e.st = .queued ∨ e.st = .steeping ∨ e.st = .headstart →
      exec .firmwareQueueDispatch s = .next (setEntry s1 i { e with pauseAsked := e.pauseAsked ++ [(c.ring, c.p, if x.phase = .final then x.steepNo + 1 else x.steepNo)] })) ∧
    (c.opcode = 0x04 → paramsOk c.p [] → e.st = .paused →
      exec .firmwareQueueDispatch s = .next (finish (setPart (setEntry s1 i { e with st := .queued, computed := startPos x e.f, f := { e.f with nextPos := BitVec.ofNat 21 (startPos x e.f) } })
        n { x with stir := true }) c.ring c.p 0 0)) ∧
    (∀ hostOk, c.opcode = 0x06 → c.input = .hostOk hostOk → paramsOk c.p [(16, 8)] → c.p.le 16 8 % 64 = 0 →
      exec .firmwareQueueDispatch s = .next (if hostOk then finish (emit s1 (.hostWrite (ringFunc s1 c.ring) (BitVec.ofNat 64 (c.p.le 16 8)) (queryBytes i e))) c.ring c.p 0 (queryResult e)
        else finish (emit s1 (.hostUndefined (BitVec.ofNat 64 (c.p.le 16 8)) 128)) c.ring c.p 0x0401 0))) ∧
  (∀ (s : State) (c : FwCmd) (rest : List FwCmd) (x : Part), AtFront s c rest →
    let s1 := { s with fwQueue := rest }
    let n := partNo s1 c.ring
    getPart? s1 n = some x → follower s1 n = false → x.phase ≠ .none →
    (∀ (img : Image) (j : Nat), c.opcode = 0x15 → paramsOk c.p [(16, 13)] → x.image = some img → pinChecks s1 n x img c.p = none → freeEntry s1 = some j → n < 64 →
      ∃ s' y, exec .firmwareQueueDispatch s = .next s' ∧ getEntry? s' j = some y ∧ y.st = .queued ∧ y.f.isPin = true ∧ y.f.handle = c.p.handle ∧ y.f.length.toNat = c.p.le 24 4 % 2 ^ 21 ∧
        y.f.basePrio.toNat = c.p.le 28 1 % 8 ∧ (∀ k, k ≠ j → getEntry? s' k = getEntry? s k) ∧ getPart? s' n = some { x with stir := true } ∧ ∀ k, k ≠ n → getPart? s' k = getPart? s k) ∧
    (∀ q : Pin, c.opcode = 0x16 → paramsOk c.p [(16, 2)] → tabGet? (c.p.le 16 2) x.pins = some q → (ringLevel s1 c.ring = 0 → q.tenant = c.p.tenant) →
      (∃ r ∈ entriesOf s1 n, r.2.f.pin.getLsbD 14 = true ∧ r.2.f.pin.toNat % 2 ^ 14 = c.p.le 16 2) →
      ∃ s' y, exec .firmwareQueueDispatch s = .next s' ∧ getPart? s' n = some y ∧ (tabGet? (c.p.le 16 2) y.pins).map (·.retiring) = some true ∧ s'.table = s.table))

/-! ## The register window -/

/-- UNMAPPED_READ, COUNTER_LOW_READ, REGISTER_WRITE and PAIRED_LOW_WRITE complete wherever the host reaches the function. An access is classified by its byte
enables, one that crosses a 64-bit boundary is the accesses on its two sides (R287). ERR_ACCESS keeps the first record and notes that a further error
occurred (R292). A read of an unmapped offset returns zero and is logged, one of a register returns its value or, narrow, the addressed bytes, and changes
nothing (R288, R292); the low half of a counter leaves a snapshot, which the next read of the high half by the same function returns and ends (R290).
Writes that have no effect but their log (R288, R291, R292); a write that is let through takes effect on the bytes it covers, and of ERR_ACCESS clears the
bits written 1; the halves of a paired register: the low half is held, and the high half then writes the register whole (R289). Doorbells read 0 and push
memory its bytes (R298, R299).
The model's choices of log entries 66 and 158 stand in it. -/
def Obligations.WindowAccesses : Prop :=
  (∀ (s : State) (fn kind bar off : Nat), kind < 16 → bar < 4 →
      let w := (getFunc s fn).errAccess
      let s' := errAccess s fn kind bar off
      let w' := (getFunc s' fn).errAccess
      { s' with funcs := s.funcs } = s ∧ (∀ g, g ≠ fn → getFunc s' g = getFunc s g) ∧ { getFunc s' fn with errAccess := w } = getFunc s fn ∧
        (bit w 63 = false → bit w' 63 = true ∧ bit w' 62 = bit w 62 ∧ bits w' 55 52 = kind ∧ bits w' 51 50 = bar ∧ bits w' 39 0 = off % 2 ^ 40) ∧
        (bit w 63 = true → bit w' 62 = true ∧ ∀ i, i ≠ 62 → bit w' i = bit w i)) ∧
  (∀ (fn : Fin 65) (bar2 : Bool) (offset : Nat) (be : BitVec 8) (s : State), hostReach s fn = true →
      ∃ s', exec (.unmappedRead fn ⟨bar2, offset, be⟩) s = .next s' ∧ { s' with out := s.out, funcs := s.funcs } = s ∧ (∀ g : Nat, g ≠ fn.val → getFunc s' g = getFunc s g) ∧
        ∃ s1, exec (.unmappedRead fn ⟨bar2, offset / 8 * 8, be <<< (offset % 8)⟩) s = .next s1 ∧
          exec (.unmappedRead fn ⟨bar2, offset / 8 * 8 + 8, be >>> (8 - offset % 8)⟩) s1 = .next s') ∧
  (∀ (fn : Fin 65) (k : Nat) (be : BitVec 8) (s : State), hostReach s fn = true → be ≠ 0 →
      let off := 8 * k
      let first := off + firstByte be
      (regAt s fn off = none → exec (.unmappedRead fn ⟨false, off, be⟩) s = .next (errAccess (emit s (.readData fn 0 first 0)) fn 1 0 first)) ∧
      (∀ r, regAt s fn off = some r → be = 0xFF → exec (.unmappedRead fn ⟨false, off, be⟩) s = .next (emit s (.readData fn 0 off (regValue s fn r)))) ∧
      (∀ r, regAt s fn off = some r → be ≠ 0xFF → (be ≠ 0x0F ∧ be ≠ 0xF0) ∨ regCounter r = false →
        ∃ v, exec (.unmappedRead fn ⟨false, off, be⟩) s = .next (emit s (.readData fn 0 first v)) ∧
          ∀ i < 8, ∀ j < 8, be.getLsbD i = true → i = firstByte be + j → v.extractLsb' (8 * j) 8 = (regValue s fn r).extractLsb' (8 * i) 8) ∧
      (off < 0x1000000 → doorbellHere s fn off = true → exec (.unmappedRead fn ⟨true, off, be⟩) s = .next (emit s (.readData fn 1 first 0))) ∧
      (off < 0x1000000 → doorbellHere s fn off = false → exec (.unmappedRead fn ⟨true, off, be⟩) s = .next (errAccess (emit s (.readData fn 1 first 0)) fn 1 1 first)) ∧
      (s.ready = true → 0x1000000 ≤ off → off + 8 - 0x1000000 ≤ (pushPart s fn).2 → be = 0xFF →
        exec (.unmappedRead fn ⟨true, off, be⟩) s = .next (emit s (.readData fn 1 off (readLE s.push ((pushPart s fn).1 + (off - 0x1000000)) 8 64))))) ∧
  (∀ (fn : Fin 65) (offset : Nat) (s : State) (r : Reg), hostReach s fn = true → regAt s fn (offset / 8 * 8) = some r → regCounter r = true →
      let off := offset / 8 * 8
      (4 ≤ offset % 8 → ∃ s', exec (.counterLowRead fn offset) s = .next s' ∧ { s' with out := s.out, funcs := s.funcs } = s ∧ ∃ v, s'.out = s.out ++ [.readData fn 0 (off + 4) v]) ∧
      (offset % 8 < 4 →
        ∃ s', exec (.counterLowRead fn offset) s = .next s' ∧ s'.out = s.out ++ [.readData fn 0 off (regValue s fn r &&& 0xFFFFFFFF)] ∧
          { s' with out := s.out, funcs := s.funcs } = s ∧ (∀ g : Nat, g ≠ fn.val → getFunc s' g = getFunc s g) ∧
          ∀ t r', (getFunc t fn).snaps = (getFunc s' fn).snaps → Reaches t fn offset r' → regCounter r' = true →
            ∃ t', exec (.counterLowRead fn (off + 4)) t = .next t' ∧ t'.out = t.out ++ [.readData fn 0 (off + 4) (regValue s fn r >>> 32)] ∧
              { t' with out := t.out, funcs := t.funcs } = t ∧ smGet (getFunc t' fn).snaps off = 0)) ∧
  (∀ (fn : Fin 65) (offset : Nat) (be : BitVec 8) (v : Word64) (s : State), hostReach s fn = true →
      ∃ s' s1, exec (.registerWrite fn offset be v) s = .next s' ∧ exec (.registerWrite fn (offset / 8 * 8) (be <<< (offset % 8)) (v <<< (8 * (offset % 8)))) s = .next s1 ∧
        (hostReach s1 fn = true → exec (.registerWrite fn (offset / 8 * 8 + 8) (be >>> (8 - offset % 8)) (v >>> (8 * (8 - offset % 8)))) s1 = .next s')) ∧
  (∀ (fn : Fin 65) (k : Nat) (s : State), hostReach s fn = true →
      let off := 8 * k
      (∀ be v, be ≠ 0 → regAt s fn off = none → exec (.registerWrite fn off be v) s = .next (errAccess s fn 2 0 (firstByteAt off be))) ∧
      (∀ be v r, regAt s fn off = some r → be ≠ 0 → be ≠ 0xFF → be ≠ 0x0F → be ≠ 0xF0 →
        exec (.registerWrite fn off be v) s = .next (errAccess s fn 3 0 (firstByteAt off be))) ∧
      (∀ be v r n, regAt s fn off = some r → be = 0xFF ∨ be = 0x0F ∨ be = 0xF0 → regBarred s fn r = some n →
        exec (.registerWrite fn off be v) s = .next (errAccess s fn n 0 (firstByteAt off be))) ∧
      (∀ be v r, regAt s fn off = some r → be = 0xFF ∨ be = 0x0F ∨ be = 0xF0 → regBarred s fn r = none → regPaired r = false →
        exec (.registerWrite fn off be v) s = .next (applyWrite s fn r (if be = 0xFF then BitVec.allOnes 64 else if be = 0x0F then 0xFFFFFFFF else 0xFFFFFFFF00000000) v (firstByteAt off be))) ∧
      (∀ v, regAt s fn off = some .errAccess → ∃ s', exec (.registerWrite fn off 0xFF v) s = .next s' ∧ { s' with funcs := s.funcs } = s ∧
        ∀ i < 64, bit (getFunc s' fn).errAccess i = (bit (getFunc s fn).errAccess i && !(bit v i && (i = 62 || i = 63)))) ∧
      (∀ v r, regAt s fn off = some r → regPaired r = true → regBarred s fn r = none →
        exec (.registerWrite fn off 0xFF v) s = .next (applyWrite (dropHeld s fn off) fn r (BitVec.allOnes 64) v off))) ∧
  (∀ (fn : Fin 65) (offset : Nat) (lo : Word32) (v : Word64) (s : State) (r : Reg), hostReach s fn = true → regAt s fn (offset / 8 * 8) = some r → regPaired r = true → regBarred s fn r = none →
      ∃ s', exec (.pairedLowWrite fn offset lo) s = .next s' ∧ { s' with funcs := s.funcs } = s ∧ (∀ g : Nat, g ≠ fn.val → getFunc s' g = getFunc s g) ∧
        ∀ t, (getFunc t fn).heldLow = (getFunc s' fn).heldLow → Reaches t fn offset r → regBarred t fn r = none →
          exec (.registerWrite fn (offset / 8 * 8) 0xF0 v) t = .next (applyWrite (dropHeld t fn (offset / 8 * 8)) fn r (BitVec.allOnes 64) ((v >>> 32 <<< 32) ||| lo.setWidth 64) (offset / 8 * 8 + 4)))

/-- Setting ENABLE of a ring zeroes RING_PTR, and clearing it changes nothing else of the ring (R297), where the pair does not mirror. A write of 1 to
FENCED lets the port train again (R354, R356); a write of 1 to KETTLE_CTL.OFF enters A5 where R410 allows it, and is dropped and logged elsewhere
(R421).
The model's choices of log entry 70 stand in it. -/
def Obligations.RingPortAndKettleSwitches : Prop :=
  (∀ (fn : Fin 65) (i n : Nat) (v : Word64) (s : State), i < 8192 → Reaches s fn (0x100000 + 64 * i) (.ring n 0) → regBarred s fn (.ring n 0) = none → n < 8192 → mirroring s = false →
      let x := getRing s n
      (bit v 63 = true → ringEnabled x = false → enableOk (dropHeld s fn (0x100000 + 64 * i)) fn n (v &&& cfgMask) = true →
        ∃ s', exec (.ringEnable fn i v) s = .next s' ∧ { s' with funcs := s.funcs, rings := s.rings } = s ∧ (∀ m, m ≠ n → getRing s' m = getRing s m) ∧
          getRing s' n = { x with cfg := v &&& cfgMask, head := 0, tail := 0, live := [], unread := [], unsignalled := 0, intDue := false }) ∧
      (bit v 63 = false → ringEnabled x = true → v &&& cfgMask = setBit x.cfg 63 false →
        ∃ s', exec (.ringDisable fn i v) s = .next s' ∧ { s' with funcs := s.funcs, rings := s.rings } = s ∧ (∀ m, m ≠ n → getRing s' m = getRing s m) ∧
          getRing s' n = { x with cfg := setBit x.cfg 63 false }) ∧
      (bit v 63 = true → ringEnabled x = true → (v &&& cfgMask ^^^ x.cfg) &&& 0x7FFFFFFFFFFFFFFF ≠ 0 →
        exec (.ringEnable fn i v) s = .next (errAccess (dropHeld s fn (0x100000 + 64 * i)) fn 6 0 (0x100000 + 64 * i)))) ∧
  (∀ (s : State), hostReach s 0 = true → s.ready = true →
      (∀ port : Fin 18, ∃ s', exec (.portUnfence port) s = .next s' ∧ s' = { s with fab := { s.fab with ports := s'.fab.ports } } ∧
        (∀ q : Nat, q ≠ port.val → getPort s' q = getPort s q) ∧ getPort s' port = { getPort s port with status := setBit (getPort s port).status 62 false }) ∧
      (a4Ready s = true → exec .kettleOff s = .next (enterA5 s)) ∧
      (a4Ready s = false → exec .kettleOff s = .next (errAccess s 0 6 0 0x100CC)))

/-- An access through BAR4 that stays within the partition's share reads or writes the bytes its byte enables name (R286), once the remote class has credit
(R190); a module without BAR4 answers none. -/
def Obligations.Bar4AccessesMemory : Prop :=
  ∀ (vf : Fin 64) (offset : Nat) (be : List Bool) (s : State) (x : Part), hostReach s (vf.val + 1) = true → s.pwr.dev = 0 → getPart? s vf = some x → offset + be.length ≤ 2 ^ 36 →
    let a := bits x.bar4Base 47 30 * 2 ^ 30 + offset
    a + be.length ≤ x.dramPages * 262144 →
    (∀ w, x.creditRm < 0 → exec (.bar4Access vf offset be w) s = .next (if Config.bar4Present then setPart s vf { x with waitRm := true } else s)) ∧
    (0 ≤ x.creditRm → ∃ s', exec (.bar4Access vf offset be none) s = .next s' ∧ (Config.bar4Present = false → s' = s) ∧
      (Config.bar4Present = true → s'.out = s.out ++ [.readBytes (vf.val + 1) offset (be.mapIdx (fun i e => if e then smGet x.mem (a + i) else 0))] ∧
        (getPart? s' vf).map (·.mem) = some x.mem ∧ (∀ q : Nat, q ≠ vf.val → getPart? s' q = getPart? s q))) ∧
    (∀ b : List Byte, 0 ≤ x.creditRm → (∀ img, x.image = some img → a + be.length ≤ x.imageBase ∨ x.imageBase + img.size ≤ a) →
      ∃ s', exec (.bar4Access vf offset be (some b)) s = .next s' ∧ (Config.bar4Present = false → s' = s) ∧
        (Config.bar4Present = true → s'.out = s.out ∧ (∀ q : Nat, q ≠ vf.val → getPart? s' q = getPart? s q) ∧
          ∃ y, getPart? s' vf = some y ∧ ∀ k, smGet y.mem k = if a ≤ k ∧ be.getD (k - a) false = true then b.getD (k - a) 0 else smGet x.mem k))

/-! ## Rings -/

/-- A doorbell in any of the cases of R300 is dropped: it sets RING_STATUS.DB_BAD of the ring it names and logs kind 8; the counts, the captured
entries and every other register of the ring are as before, so that a later correct doorbell covers what it would have covered without it. The byte enables are those at the doorbell's own 64 bits (R287). -/
def Obligations.BadDoorbellsAreDropped : Prop :=
  ∀ (fn : Fin 65) (offset n : Nat) (be0 : BitVec 8) (v0 : Word64) (s : State), hostReach s fn = true → offset < 0x1000000 → doorbellRing s fn (offset / 8 * 8) = some n →
    let be := be0 <<< (offset % 8)
    let v := v0 <<< (8 * (offset % 8))
    be0 >>> (8 - offset % 8) = 0 → s.pwr.dev = 0 → s.ready = false ∨ be = 0xF0 ∨ bits v (if be = 0xFF then 63 else 31) 16 = 0 → be = 0xFF ∨ be = 0x0F ∨ be = 0xF0 →
    let x := getRing s n
    let new : BitVec 16 := v.setWidth 16
    s.ready = false ∨ be = 0xF0 ∨ ringEnabled x = false ∨
      (ringIsCpl x = true ∧ (x.tail - x.head).toNat < (new - x.head).toNat) ∨
      (ringIsCpl x = false ∧ (ringSize x < (new - x.head).toNat ∨ (new - x.head).toNat < (x.tail - x.head).toNat)) →
    ∃ off, exec (.doorbellWrite fn offset be0 v0) s = .next (modRing (errAccess s fn 8 1 off) n (fun y => { y with status := setBit y.status 63 true }))

/-- A doorbell that is taken moves TAIL of a submission ring, or HEAD of a completion ring (R298); on a push ring the entries it newly covers are
captured as they stand in push memory (R299, R301). -/
def Obligations.DoorbellsAreTaken : Prop :=
  ∀ (fn : Fin 65) (offset n : Nat) (v : Word64) (s : State), hostReach s fn = true → offset < 0x1000000 → offset % 8 = 0 → doorbellRing s fn offset = some n → n < 8192 → s.ready = true →
    s.pwr.dev = 0 → mirroring s = false → bits v 63 16 = 0 →
    let x := getRing s n
    let new : BitVec 16 := v.setWidth 16
    ringEnabled x = true →
    (ringIsCpl x = true → (new - x.head).toNat ≤ (x.tail - x.head).toNat →
      exec (.doorbellWrite fn offset 0xFF v) s = .next (modRing s n (fun y => { y with head := new, unread := y.unread.filter (fun q => decide ((q.1 - new).toNat < 32768)) }))) ∧
    (ringIsCpl x = false → (x.tail - x.head).toNat ≤ (new - x.head).toNat → (new - x.head).toNat ≤ ringSize x →
      ∃ l : List (BitVec 512), exec (.doorbellWrite fn offset 0xFF v) s = .next (modRing s n (fun y => { y with tail := new, live := y.live ++ l })) ∧
        (bit x.cfg 61 = false → l = []) ∧
        (bit x.cfg 61 = true → l.length = (new - x.tail).toNat ∧ ∀ k, k < (new - x.tail).toNat →
          l[k]? = some (readLE s.push ((pushPart s fn).1 + bits x.cfg 25 12 * 2048 + 64 * ((x.tail.toNat + k) % ringSize x)) 64 512)))

/-- A push write: bytes of live entries are dropped, RING_STATUS.PUSH_LIVE is set at every ring that has one of them and kind 9 logged, every other byte is taken, and the entries captured
when the doorbell covered them stay as they were. -/
def Obligations.PushWritesSpareLiveEntries : Prop :=
  ∀ (fn : Fin 65) (offset : Nat) (b : List Byte) (s : State), hostReach s fn = true → 0x1000000 ≤ offset → b ≠ [] → s.ready = true →
    let a := offset - 0x1000000
    let base := (pushPart s fn).1
    a + b.length ≤ (pushPart s fn).2 → ringFirst s fn + ringsShown s fn ≤ 8192 →
    ∃ s', exec (.pushWrite fn offset b) s = .next s' ∧ { s' with push := s.push, rings := s.rings, funcs := s.funcs } = s ∧
      (∀ k, smGet s'.push k = if base + a ≤ k ∧ k < base + a + b.length ∧ liveAt s fn (k - base) = none then b.getD (k - base - a) 0 else smGet s.push k) ∧
      (∀ m, (getRing s' m).live = (getRing s m).live ∧ (getRing s' m).head = (getRing s m).head ∧ (getRing s' m).tail = (getRing s m).tail ∧ (getRing s' m).cfg = (getRing s m).cfg) ∧
      ((∀ i, i < b.length → liveAt s fn (a + i) = none) → s'.rings = s.rings ∧ s'.funcs = s.funcs) ∧
      (∀ i n, i < b.length → liveAt s fn (a + i) = some n → bit (getRing s' n).status 62 = true ∧
        ((∀ j, j < i → liveAt s fn (a + j) = none) → getFunc s' fn = getFunc (errAccess s fn 9 1 (offset + i)) fn))

/-- Entries that a pull ring has fetched, each 64 bytes at its place in the ring, join its live entries in order; a fetch that fails disables the ring
(R299). The oldest waiting completion of a
ring that has room is written in 32 bytes at its place in the ring, with PHASE 1 − (⌊c / size⌋ mod 2) for the device count c (R303, R304, R309); TAIL
and RING_COUNT advance. A full ring keeps it waiting and shows FULL_WAIT (R305). An interrupt whose TIME_NS has passed is sent on VECTOR, or stays
pending while its vector is masked (R306, R343).
The model's choices of log entries 5 and 9 stand in it. -/
def Obligations.RingEvents : Prop :=
  (∀ (n : Nat) (s : State), n < 8192 → deviceUp s = true → mirroring s = false →
      let x := getRing s n
      let left := (x.tail - x.head).toNat - x.live.length
      let reads := fun (m : Nat) => (List.range m).map (fun k => Out.hostRead (ringFunc s n) (x.base + BitVec.ofNat 64 (64 * ((x.head.toNat + x.live.length + k) % ringSize x))) 64)
      ringEnabled x = true → ringIsCpl x = false → bit x.cfg 61 = false →
      (∀ l : List (BitVec 512), l ≠ [] → l.length ≤ 8 → l.length ≤ left → exec (.pullFetchDone n (some l)) s = .next (modRing (emits s (reads l.length)) n (fun y => { y with live := y.live ++ l }))) ∧
      (left ≠ 0 → ∃ s', exec (.pullFetchDone n none) s = .next s' ∧ { s' with rings := s.rings, out := s.out } = s ∧ s'.out = s.out ++ reads (min 8 left) ∧ (∀ m, m ≠ n → getRing s' m = getRing s m) ∧
        getRing s' n = { x with status := setBit x.status 60 true, cfg := setBit x.cfg 63 false })) ∧
  (∀ (n : Nat) (s : State) (c : Completion) (rest : List (Completion × Option Nat)), n < 8192 → deviceUp s = true →
      let x := getRing s n
      x.waiting = (c, none) :: rest → ringEnabled x = true → ringIsCpl x = true →
      (∀ ok, ringSize x ≤ (x.tail - x.head).toNat → exec (.completionWrite n ok) s = .next (modRing s n (fun y => { y with status := setBit y.status 61 true }))) ∧
      ((x.tail - x.head).toNat < ringSize x → c.final = false → bit x.int 63 = true →
        ∃ s' b, exec (.completionWrite n true) s = .next s' ∧ s'.out = s.out ++ [.hostWrite (ringFunc s n) (x.base + BitVec.ofNat 64 (32 * (x.tail.toNat % ringSize x))) b] ∧
          b.length = 32 ∧ bytesToNat (b.take 4) = c.seq.toNat ∧ bytesToNat ((b.drop 4).take 2) = c.status.toNat ∧ (b.getD 7 0).toNat / 128 = 1 - x.tail.toNat / ringSize x % 2 ∧
          bytesToNat ((b.drop 8).take 8) = c.handle.toNat ∧ bytesToNat (b.drop 16) = c.result.toNat ∧
          { s' with out := s.out, rings := s.rings } = s ∧ (∀ m, m ≠ n → getRing s' m = getRing s m) ∧
          getRing s' n = { x with waiting := rest, unread := x.unread ++ [(x.tail, c)], tail := x.tail + 1, count := x.count + 1, unsignalled := x.unsignalled + 1 }) ∧
      ((x.tail - x.head).toNat < ringSize x → c.final = true → c.int = true → bit x.int 63 = false → (getFunc s (ringFunc s n)).fnMask = false →
        (getFunc s (ringFunc s n)).masked = [] → (∀ q ∈ s.table, q.2.finalPosted = false) →
        ∃ s' b, exec (.completionWrite n true) s = .next s' ∧
          s'.out = s.out ++ [.hostWrite (ringFunc s n) (x.base + BitVec.ofNat 64 (32 * (x.tail.toNat % ringSize x))) b, .interrupt (ringFunc s n) (bits x.int 42 32)] ∧
          getRing s' n = { x with waiting := rest, unread := x.unread ++ [(x.tail, c)], tail := x.tail + 1, count := x.count + 1, unsignalled := 0, intDue := false } ∧ s'.table = s.table)) ∧
  (∀ (n : Nat) (s : State), n < 8192 → deviceUp s = true → bit (getRing s n).int 63 = false → bits (getRing s n).int 23 0 ≠ 0 → 0 < (getRing s n).unsignalled →
      let fn := ringFunc s n
      let v := bits (getRing s n).int 42 32
      (((getFunc s fn).fnMask = true ∨ v ∈ (getFunc s fn).masked) →
        ∃ s', exec (.interruptAgeExpiry n) s = .next s' ∧ s'.out = s.out ∧ v ∈ (getFunc s' fn).pend ∧ getRing s' n = { getRing s n with unsignalled := 0, intDue := false }) ∧
      ((getFunc s fn).fnMask = false → v ∉ (getFunc s fn).masked →
        ∃ s', exec (.interruptAgeExpiry n) s = .next s' ∧ s'.out = s.out ++ [.interrupt fn v] ∧ getRing s' n = { getRing s n with unsignalled := 0, intDue := false } ∧ s'.funcs = s.funcs))

/-- POUR_TARGET_ADD adds one ACTIVE target on the least loaded permitted port, or none of them is up and it fails (R315, R322, R325); POUR_TARGET_REMOVE
takes away one that no request needs (R473). SET_WAKE_TOLERANCE sets the tolerance of its scope (R409); SET_POWER_CAP sets a cap of 800 to 2 600 W,
which completes at the end of the next loop period, and every other cap answers BAD_PARAM (R415).
The model's choices of log entry 15 stand in it. -/
def Obligations.TargetAndPowerCommands : Prop :=
  (∀ (s : State) (c : FwCmd) (rest : List FwCmd), AtFront s c rest →
      let s1 := { s with fwQueue := rest }
      let n := partNo s1 c.ring
      ∀ x : Part, getPart? s1 n = some x →
      (c.opcode = 0x20 → targetParams c.p = none → tabGet? (c.p.le 16 2) x.targets = none → (s.parts.map (fun q => q.2.targets.length)).sum < 1024 →
        (∀ port, (c.p.le 18 1 = 1 ∧ port = 0) ∨ (c.p.le 18 1 = 0 ∧ leastLoaded s1 (portsFor s1 (BitVec.ofNat 4 (c.p.le 19 1))) = some port) →
          ∃ s2 t r, exec .firmwareQueueDispatch s = .next (finish s2 c.ring c.p 0 r) ∧ getPart? s2 n = some { x with targets := tabInsert (c.p.le 16 2) t x.targets } ∧
            t.st = .active ∧ t.host = decide (c.p.le 18 1 = 1) ∧ t.port = port ∧ t.tenant = c.p.tenant ∧ t.regionAddr.toNat = c.p.le 48 8 ∧ t.regionLen.toNat = c.p.le 56 8 ∧
            t.pos = 0 ∧ t.consumed = 0 ∧ t.queue = [] ∧ t.flights = [] ∧ t.log = none ∧ { s2 with parts := s.parts, iod := s.iod } = s1) ∧
        (c.p.le 18 1 = 0 → portsFor s1 (BitVec.ofNat 4 (c.p.le 19 1)) = [] → exec .firmwareQueueDispatch s = .next (finish s1 c.ring c.p 0x0401 0))) ∧
      (c.opcode = 0x21 → paramsOk c.p [(16, 2)] → ∀ t : Target, tabGet? (c.p.le 16 2) x.targets = some t → (ringLevel s1 c.ring = 0 → t.tenant = c.p.tenant) →
        (∀ q ∈ entriesOf s1 n, lives q.2 = true → names q.2 (c.p.le 16 2) = false) → s.pair.waitingEntries = [] → x.cancelled = [] →
        ∃ s2 y, exec .firmwareQueueDispatch s = .next (finish s2 c.ring c.p 0 0) ∧ getPart? s2 n = some y ∧ y.targets = tabErase (c.p.le 16 2) x.targets ∧ y.pins = x.pins ∧
          y.tenants = x.tenants ∧ y.mem = x.mem ∧ s2.table = s.table ∧ (∀ q, q ≠ n → getPart? s2 q = getPart? s q))) ∧
  (∀ (s : State) (c : FwCmd) (rest : List FwCmd), AtFront s c rest →
      let s1 := { s with fwQueue := rest }
      (c.opcode = 0x40 → paramsOk c.p [(16, 4)] → ringPart s1 c.ring = none → (∀ q ∈ s.parts, q.2.pstate = 0 ∧ q.2.waking = none) → s.pwr.tolCmds = [] →
        exec .firmwareQueueDispatch s = .next (finish { s1 with pwr := { s.pwr with tolUs := BitVec.ofNat 32 (c.p.le 16 4) } } c.ring c.p 0 0)) ∧
      (∀ n x, c.opcode = 0x40 → paramsOk c.p [(16, 4)] → ringPart s1 c.ring = some n → getPart? s1 n = some x → (∀ q ∈ s.parts, q.2.pstate = 0 ∧ q.2.waking = none) → s.pwr.tolCmds = [] →
        exec .firmwareQueueDispatch s = .next (finish (setPart s1 n { x with tolUs := BitVec.ofNat 32 (c.p.le 16 4) }) c.ring c.p 0 0)) ∧
      (c.opcode = 0x41 → paramsOk c.p [(16, 2)] → 800 ≤ c.p.le 16 2 → c.p.le 16 2 ≤ 2600 →
        exec .firmwareQueueDispatch s = .next { s1 with pwr := { s.pwr with capW := BitVec.ofNat 16 (c.p.le 16 2), capCmds := s.pwr.capCmds ++ [(c.ring, c.p)] } }) ∧
      (c.opcode = 0x41 → paramsOk c.p [(16, 2)] → c.p.le 16 2 < 800 ∨ 2600 < c.p.le 16 2 → exec .firmwareQueueDispatch s = .next (badParam s1 c.ring c.p 16)))

/-- TELEMETRY_READ and LOG_READ write whole 16-byte and 64-byte records to the host buffer; SELFTEST reports the tested units that pass;
FIRMWARE_STAGE keeps a verified image and FIRMWARE_ACTIVATE switches to it (R316, R398, R400, R423, R424).
The model's choices of log entries 15, 121, 122 and 124 stand in it. -/
def Obligations.ServiceCommandsTakeEffect : Prop :=
  ∀ (s : State) (c : FwCmd) (rest : List FwCmd), AtFront s c rest →
    let s1 := { s with fwQueue := rest }
    let fn := ringFunc s1 c.ring
    (c.opcode = 0x60 → c.input = .hostOk true → paramsOk c.p [(16, 14)] → c.p.le 16 8 % 64 = 0 → c.p.le 24 4 % 16 = 0 → c.p.le 24 4 ≤ 1048576 → c.p.le 28 2 = 0 →
      ∃ b, b.length = 16 * min (c.p.le 24 4 / 16) (countersOf s1 fn).length ∧
        (∀ k o v, (countersOf s1 fn)[k]? = some (o, v) → 16 * k + 16 ≤ b.length → o < 2 ^ 64 → bytesToNat ((b.drop (16 * k)).take 8) = o ∧ bytesToNat ((b.drop (16 * k + 8)).take 8) = v.toNat) ∧
        exec .firmwareQueueDispatch s = .next (finish (emit s1 (.hostWrite fn (BitVec.ofNat 64 (c.p.le 16 8)) b)) c.ring c.p 0 (BitVec.ofNat 128 (b.length + s.pwr.timebase.toNat * 2 ^ 64)))) ∧
    (c.opcode = 0x61 → c.input = .hostOk true → paramsOk c.p [(16, 20)] → c.p.le 24 4 % 64 = 0 → ringLevel s1 c.ring = 2 →
      let l := (s.log.filter (fun r => decide (c.p.le 28 8 ≤ r.seq))).take (c.p.le 24 4 / 64)
      ∃ r, exec .firmwareQueueDispatch s = .next (finish (emit s1 (.hostWrite fn (BitVec.ofNat 64 (c.p.le 16 8)) (l.flatMap recordBytes))) c.ring c.p 0 r) ∧
        r.toNat % 2 ^ 32 = l.length % 2 ^ 32 ∧ (l.flatMap recordBytes).length = 64 * l.length) ∧
    (∀ pass, c.opcode = 0x70 → c.input = .mask pass → paramsOk c.p [(16, 1)] → c.p.le 16 1 ≤ 15 →
      exec .firmwareQueueDispatch s =
        .next (finish s1 c.ring c.p 0 (BitVec.ofNat 128 ((BitVec.ofNat 8 (c.p.le 16 1) &&& pass).toNat + (BitVec.ofNat 8 (c.p.le 16 1) &&& ~~~pass).toNat * 256)))) ∧
    (∀ i, c.opcode = 0x71 → c.input = .fw (some i) → paramsOk c.p [(16, 12)] → c.p.le 24 4 ≤ 33554432 → s.mod.flashWp = false → imageVerified s i = true →
      exec .firmwareQueueDispatch s = .next (finish { s1 with mod := { s.mod with staged := some i } } c.ring c.p 0 0)) ∧
    (∀ i b, c.opcode = 0x72 → c.input = .activate true b → paramsOk c.p [(16, 2)] → s.mod.staged = some i → i.version.toNat = c.p.le 16 2 → s.pair.partner = none →
      ∃ s2, exec .firmwareQueueDispatch s = .next (finish s2 c.ring c.p 0 0) ∧ s2.mod = { s.mod with fwSlot := !s.mod.fwSlot, fwVersion := i.version, fwSvn := i.svn, staged := none, sessions := 0 } ∧
        { s2 with mod := s.mod, log := s.log, logNext := s.logNext, logLost := s.logLost } = s1)

/-- GROUP_CREATE forms a group that waits for the other members (R358); GROUP_DESTROY of a partition with no steep running frees it; a group
not ACTIVE within 10 s is freed and its command fails.
The model's choices of log entries 15 and 99 stand in it. -/
def Obligations.GroupCommandsTakeEffect : Prop :=
  (∀ (s : State) (c : FwCmd) (rest : List FwCmd), AtFront s c rest →
    let s1 := { s with fwQueue := rest }
    let n := partNo s1 c.ring
    ∀ x : Part, getPart? s1 n = some x →
    (∀ (img : Image) (l : MemberList), c.opcode = 0x30 → c.input = .members (some l) → paramsOk c.p [(16, 6), (24, 16)] → c.p.le 16 1 ≤ 15 → x.image = some img → tabGet? (c.p.le 16 1) s.fab.groups = none →
      c.p.le 17 1 = 7 → 2 ≤ c.p.le 18 2 → c.p.le 18 2 ≤ 4096 → listBad n img c.p l = none →
      ∃ s2 g, exec .firmwareQueueDispatch s = .next s2 ∧ s2 = { s1 with fab := { s.fab with groups := s2.fab.groups }, out := s2.out } ∧
        s2.fab.groups = tabInsert (c.p.le 16 1) g s.fab.groups ∧ s2.out = s.out ++ [.groupMsg (c.p.le 16 1) 0 l.crc.toNat] ∧ g.st = .forming ∧ g.part = n ∧ g.rank = c.p.le 20 2 ∧
        g.key.toNat = c.p.le 32 8 ∧ g.joined = 1 ∧ g.cmd = some (c.ring, c.p) ∧ g.list = l) ∧
    (∀ g : Group, c.opcode = 0x31 → paramsOk c.p [(16, 1)] → tabGet? (c.p.le 16 1) s.fab.groups = some g → g.part = n → g.destroying = false → x.phase = .none →
      ∃ s2, exec .firmwareQueueDispatch s = .next s2 ∧ tabGet? (c.p.le 16 1) s2.fab.groups = none ∧ s2.table = s.table ∧ s2.tiles = s.tiles)) ∧
  (∀ (s : State) (g : Fin 16) (q : Group), tabGet? g s.fab.groups = some q → q.st = .forming → exec (.groupFormTimeout g) s = .next (freeGroup s g q))

/-- PAIR_BIND begins and presents this module's identity, PAIR_BIND_TIMEOUT and a partner that refuses end it with FAULT_FAILED; PAIR_UNBIND of a module with no partner
completes; PAIR_STATUS reports the pair (R315, R371, R372, R374, R381); a certificate that is not the pinned one makes a STRANGER.
The model's choices of log entries 13, 15 and 116 stand in it. -/
def Obligations.PairCommandsTakeEffect : Prop :=
  (∀ (s : State) (c : FwCmd) (rest : List FwCmd), AtFront s c rest →
    let s1 := { s with fwQueue := rest }
    (c.opcode = 0x50 → c.input = .bind .waiting → s.pair.st = 0 →
      exec .firmwareQueueDispatch s = .next (emit { s1 with pair := { s.pair with st := 1, bindCmd := some (c.ring, c.p, c.p.params) } } (.pairAuth Config.identityHash))) ∧
    (c.opcode = 0x50 → ∀ b, c.input = .bind b → s.pair.st ≠ 0 → exec .firmwareQueueDispatch s = .next (notPermitted s1 c.ring c.p)) ∧
    (c.opcode = 0x51 → paramsOk c.p [] → s.pair.st < 2 → exec .firmwareQueueDispatch s = .next (finish s1 c.ring c.p 0 0)) ∧
    (c.opcode = 0x52 → paramsOk c.p [] → ∃ r, exec .firmwareQueueDispatch s = .next (finish s1 c.ring c.p (if s.pair.st = 3 then 0x0501 else 0) r) ∧
      (s.pair.st < 8 → s.pair.rank < 2 → s.pair.aliveIn < 4 → s.pair.mirrorPort < 2 → bits r 7 0 = s.pair.st ∧ bits r 15 8 = s.pair.rank ∧ bits r 23 16 = s.pair.aliveIn ∧ bits r 31 24 = s.pair.mirrorPort))) ∧
  (∀ (s : State) (ring : Nat) (p : Packet) (id : BitVec 384), s.pair.st = 1 → s.pair.bindCmd = some (ring, p, id) →
    let s0 := { s with pair := { s.pair with bindCmd := none, st := 0 } }
    exec .pairBindTimeout s = .next (finish s0 ring p 0x0401 0) ∧
    (∀ port cert ok cfg bad, cert ≠ id → exec (.pairReauth port (.partner cert ok cfg bad)) s = .next (finish s0 ring p 0x0201 16)) ∧
    (∀ port cfg bad, exec (.pairReauth port (.partner id false cfg bad)) s = .next (finish s0 ring p 0x0401 0))) ∧
  (∀ (s : State) (port : Fin 2) (id cert : BitVec 384) (ok : Bool) (cfg : PairConfig) (bad : Option (BitVec 16 × Nat)), s.pair.partner = some id → cert ≠ id → s.pair.st = 2 ∨ s.pair.st = 3 →
    ∃ s', exec (.pairReauth port (.partner cert ok cfg bad)) s = .next s' ∧ s'.pair.st = 4 ∧ s'.pair.partner = some id)

/-! ## Composition, release and newts -/

/-- The reads of a composition return (R240, R253, R267): tokens that pass their checks join the request's, a block that passes is kept, a request that
fails one fails with BAD_PARAM and the composition goes on without it (R241); once all are in, the row maps are written (R11, R19 step 2), and requests that
a composition with no steep running marked are preempted (R237).
The model's choices of log entries 5, 45 and 46 stand in it. -/
def Obligations.CompositionReads : Prop :=
  (∀ (s : State) (e : Fin 32768) (q : Entry) (x : Part) (r : Placement) (img : Image), getEntry? s e = some q → getPart? s (entryPart q) = some x → placedOf x e = some r → x.image = some img →
    (tokensDue q r = true → mirroring s = false → ∀ l : List Word32, l.length = r.pos + r.count - q.tokens.length → tokensBad x img.vocab q l = false →
      ∃ s' y, exec (.tokenReadDone e (some l)) s = .next s' ∧ getEntry? s' e = some y ∧ y.tokens = q.tokens ++ l ∧ y.st = q.st ∧ (∀ j : Nat, j ≠ e.val → getEntry? s' j = getEntry? s j) ∧
        (q.f.crcHwm.toNat < (q.tokens ++ l).length → (q.tokens ++ l).length < 2 ^ 21 → y.f.crcHwm.toNat = (q.tokens ++ l).length ∧ y.f.tokenCrc = crc32c (tokBytes (q.tokens ++ l))) ∧
        s'.tiles = s.tiles ∧ (∀ n, n ≠ entryPart q → getPart? s' n = getPart? s n)) ∧
    (tokensDue q r = true → ∀ o : Option (List Word32), (o = none ∨ ∃ l, o = some l ∧ l.length = r.pos + r.count - q.tokens.length ∧ tokensBad x img.vocab q l = true) →
      exec (.tokenReadDone e o) s = .next (recomposeWithout s (entryPart q) e (fun s => failRequest s e 0x0201 false))) ∧
    (blockDue q r = true → ∀ b : BitVec 2048, q.f.stopSet.toNat < bits x.hsTable 63 48 → blockOk b img.vocab = true → exec (.hsBlockReadDone e (some b)) s = .next (setEntry s e { q with block := some b })) ∧
    (blockDue q r = true → ∀ b : BitVec 2048, bits x.hsTable 63 48 ≤ q.f.stopSet.toNat ∨ blockOk b img.vocab = false →
      exec (.hsBlockReadDone e (some b)) s = .next (recomposeWithout s (entryPart q) e (fun s => failRequest s e 0x0201 false)))) ∧
  (∀ (s : State) (p : Fin 64) (x : Part) (st : Steep), getPart? s p = some x → x.next = some st → st.composed = false → groupsOf s p = [] →
    (∀ r ∈ st.rows, r.dead = false → ∀ e, getEntry? s r.entry = some e → tokensDue e r = false ∧ blockDue e r = false) →
    let late := decide (x.phase = .none) && decide (st.frozenAt + 8000 < now s)
    ∃ s1, exec (.compositionDone p) s = .next (if x.phase = .none then settleMarks s1 p st.marks else s1) ∧
      getPart? s1 p = some { x with next := some { st with composed := true }, delayed := x.delayed || late } ∧ (∀ n : Nat, n ≠ p.val → getPart? s1 n = getPart? s n) ∧
      s1.table = s.table ∧ s1.rings = s.rings ∧ s1.out = s.out)

/-- The release of a composed steep (R19 step 7, R123, R125, R207): it runs, and on every tile each context the plan starts is RUNNING at its entry with its
preloads, every bounds register 0xFFFFFFFF and every mask all ones; every flag but f255 is 0. No byte of a scratchpad changes; a tile outside the plan may lose
no more than the corrections counted while its domain was off (R162). -/
def Obligations.SteepsAreReleased : Prop :=
  ∀ (s : State) (p : Fin 64) (x : Part) (st : Steep) (img : Image), getPart? s p = some x → x.next = some st → x.image = some img → groupsOf s p = [] → canRelease s p x st = true →
    2 ≤ img.layerMarks.length → st.tiles.Nodup →
    ∃ s' y, exec (.steepRelease p) s = .next s' ∧ getPart? s' p = some y ∧ y.phase = .body ∧ y.steepNo = st.n ∧ y.running = some { st with released := now s } ∧ y.next = none ∧ y.pstate = 0 ∧
      smGet y.ctrs 0x138 = smGet x.ctrs 0x138 + 1 ∧ (∀ n : Nat, n ≠ p.val → getPart? s' n = getPart? s n) ∧ (∀ t, t ∉ st.tiles → { getTile s' t with flags := (getTile s t).flags, spadStatus := (getTile s t).spadStatus } = getTile s t) ∧
      ∀ i t, st.tiles[i]? = some t → (getTile s' t).spad = (getTile s t).spad ∧ (getTile s' t).acc = (getTile s t).acc ∧ (∀ f, f ≠ 255 → getFlag (getTile s' t) f = 0) ∧
        ∀ c pc, c < 4 → img.entries.getD c none = some pc →
          let k := ctxOf s' t c
          k.st = .running ∧ k.pc = pc ∧ k.loops = [] ∧ k.held = none ∧ readS k 1 = BitVec.ofNat 64 st.rpt ∧ readS k 2 = BitVec.ofNat 64 i ∧ readS k 3 = BitVec.ofNat 64 st.tiles.length ∧
            (∀ r, readB k r = 0xFFFFFFFF) ∧ (∀ r, readM k r = BitVec.allOnes 512)

/-- A newt takes the output rows of a completed steep from the logit buffer that the tiles wrote: the first token, or a round's tokens while a steep runs (R269-R274), or SCORE or EMBED
values (R233, R234), and with the last of these the result is ready (R342); rows of a cancelled request are dropped (R19), a newt without DRAM credit waits (R190), and one whose check
fails is lost (R263, R279); a package that reports a granule of these rows changes nothing of what is taken (R201).
The model's choices of log entries 19, 29 and 62 stand in it. -/
def Obligations.NewtsSample : Prop :=
  ∀ (s : State) (e : Fin 32768) (q : Entry) (x : Part) (img : Image) (w : Sample) (rest : List Sample) (chk : Check),
    getEntry? s e = some q → getPart? s (entryPart q) = some x → x.image = some img → q.samples = w :: rest → sampleReady q w = true →
    (∀ bad : List Nat, q.st = .cancelling → exec (.newtSample e bad chk) s = .next (setEntry s e { q with samples := rest })) ∧
    (∀ bad : List Nat, q.st ≠ .cancelling → creditOk s (entryPart q) .newt = false → exec (.newtSample e bad chk) s = .next s) ∧
    (q.st ≠ .cancelling → creditOk s (entryPart q) .newt = true →
      let rows := (List.range (sampleSpan img w).2.1).map (fun k => memWords x.mem ((sampleSpan img w).1 + k * (4 * max img.vocab img.embedDim)) (sampleSpan img w).2.2)
      let others := fun (s' : State) => (∀ j : Nat, j ≠ e.val → getEntry? s' j = getEntry? s j) ∧ s'.tiles = s.tiles
      let span := (List.range (sampleSpan img w).2.1).map (fun k => ((sampleSpan img w).1 + k * (4 * max img.vocab img.embedDim), 4 * (sampleSpan img w).2.2))
      (∀ bad n f loc, q.newt = some n → chk = .fail f loc → exec (.newtSample e bad chk) s = .next (loseNewt s n)) ∧
      (checkPassed chk = true → ∃ s', exec (.newtSample e [] chk) s = .next s' ∧ ∀ bad : List Nat,
        exec (.newtSample e bad chk) s = .next (reportRead s' ((bad.filterMap (fun k => (granulesOf span)[k]?)).map (fun k => firstGranule (entryPart q) + k)))) ∧
      (∀ buf b, checkPassed chk = true → w = .first buf → q.block = some b → q.st = .headstart →
        let tok := BitVec.ofNat 32 (sampleLogits b q.f.seed q.f.length.toNat 0 1 (rows.headD []))
        stopCode img q.f b [tok] = 0 →
        ∃ s', exec (.newtSample e [] chk) s = .next s' ∧ getEntry? s' e = some { q with samples := rest, emitted := [tok], stop := 0, base := q.f.length.toNat } ∧ others s') ∧
      (∀ d buf b, checkPassed chk = true → w = .round d buf → q.block = some b → x.phase ≠ .none →
        let o := decideRound img q.f b q.tokens rows q.proposals q.emitted 0
        o.2.1 = 0 →
        ∃ s', exec (.newtSample e [] chk) s = .next s' ∧
          getEntry? s' e = some { q with samples := rest, emitted := o.1, stop := 0, rounds := q.rounds + 1, roundOut := false, base := q.f.length.toNat + o.1.length - 1 } ∧ others s' ∧
          smGet s'.iod.ctrs 0x100 = smGet s.iod.ctrs 0x100 + 1 ∧ smGet s'.iod.ctrs 0x110 = smGet s.iod.ctrs 0x110 + BitVec.ofNat 64 o.2.2) ∧
      (∀ pos n buf, checkPassed chk = true → w = .score pos n buf → q.f.kind = 2 →
        ∃ s' y, exec (.newtSample e [] chk) s = .next s' ∧ getEntry? s' e = some y ∧ y.samples = rest ∧ y.gathered.length = q.gathered.length + n ∧
          (∀ k l, rows[k]? = some l → y.gathered[q.gathered.length + k]? = some (scoreLp l (q.tokens.getD (pos + k + 1) 0).toNat)) ∧ others s' ∧
          (rest ≠ [] ∨ q.st ≠ .pouring → y.resultDue = q.resultDue) ∧ (rest = [] → q.st = .pouring → y.resultDue = true ∧ y.outBytes = tokBytes y.gathered)) ∧
      (∀ pos n buf, checkPassed chk = true → w = .embed pos n buf → q.f.kind = 1 →
        ∃ s' y, exec (.newtSample e [] chk) s = .next s' ∧ getEntry? s' e = some y ∧ y.samples = rest ∧ others s' ∧
          (rest ≠ [] ∨ q.st ≠ .pouring → y.resultDue = q.resultDue ∧ y.gathered = if img.poolMean = true then rows.foldl poolAdd q.gathered else rows.getLastD []) ∧
          (rest = [] → q.st = .pouring → y.resultDue = true ∧ y.outBytes = vectorBytes img.embedFmt.toNat y.gathered ∧
            y.gathered = if img.poolMean = true then (rows.foldl poolAdd q.gathered).map (fun v => fdiv v (toF32 (.fin false q.f.length.toNat 0))) else rows.getLastD [])))

/-- Reserved rows of a running steep are filled with the base token and proposals (R17, R270, R275, R278), and those still unfilled after 10 µs are given up; a newt that hangs with work
pending is lost and its work moves (R263, R279); DRAFT_LIMIT follows its rule (R275); a deadline that passes leaves the reason in force (R248).
The model's choices of log entries 16 and 19 stand in it. -/
def Obligations.HeadStartEvents : Prop :=
  (∀ (s : State) (e : Fin 32768) (q : Entry) (x : Part) (st : Steep) (img : Image) (b : BitVec 2048) (r : Placement),
    getEntry? s e = some q → getPart? s (entryPart q) = some x → x.running = some st → x.image = some img → q.block = some b →
    st.rows.find? (fun r => decide (r.entry = e.val) && r.head && !r.filled && !r.dead) = some r → x.phase ≠ .none → q.st = .headstart → q.samples = [] → q.emitted ≠ [] →
    creditOk s (entryPart q) .newt = true →
    let base := q.f.length.toNat + q.emitted.length - 1
    let d := min r.d (min (q.f.maxNew.toNat - q.emitted.length - 1) (img.contextMax - 1 - base))
    ∃ s', exec (.headstartFill e) s = .next s' ∧ getEntry? s' e = some { q with proposals := proposals img b q.f.seed d (q.tokens ++ q.emitted), d := d, base := base, roundOut := true } ∧
      (∀ j : Nat, j ≠ e.val → getEntry? s' j = getEntry? s j) ∧ s'.log = s.log ∧ s'.rings = s.rings ∧
      smGet s'.iod.ctrs 0x108 = smGet s.iod.ctrs 0x108 + BitVec.ofNat 64 d) ∧
  (∀ (s : State) (p : Fin 64) (x : Part) (st : Steep), getPart? s p = some x → x.running = some st → (∃ r ∈ st.rows, r.head = true ∧ r.filled = false ∧ r.dead = false) →
    ∃ s', exec (.headstartFillTimeout p) s = .next s' ∧ s'.iod.gaveUp = true ∧ s'.table = s.table ∧ (∀ n : Nat, n ≠ p.val → getPart? s' n = getPart? s n) ∧
      smGet s'.iod.ctrs 0x118 = smGet s.iod.ctrs 0x118 + BitVec.ofNat 64 (st.rows.filter (fun r => r.head && !r.filled && !r.dead)).length) ∧
  (∀ (s : State) (n : Fin 8), (∃ q ∈ s.table, q.2.newt = some n.val) → s.iod.newtsLost.getLsbD n = false → setBit s.iod.newtsLost n true ≠ 0xFF →
    ∃ s', exec (.newtHangTimeout n) s = .next s' ∧ s'.iod.newtsLost = setBit s.iod.newtsLost n true ∧ (∀ i e, getEntry? s' i = some e → e.newt ≠ some n.val) ∧
      (∀ g ∈ s'.sigs, g.toNewt = true → g.target ≠ n.val) ∧ s'.parts = s.parts ∧ s'.ready = s.ready) ∧
  (∀ (s : State) (w : Nat),
    let i := s.iod
    ∃ s', exec (.draftLimitTick w) s = .next s' ∧ { s' with iod := i } = s ∧ s'.iod.gaveUp = false ∧
      (100 < w ∨ i.gaveUp = true → s'.iod.draftLimit = max 1 (i.draftLimit - 1)) ∧
      (w < 20 → i.gaveUp = false → s'.iod.draftLimit = if 10 ≤ i.calm + 1 then min 8 (i.draftLimit + 1) else i.draftLimit) ∧
      (20 ≤ w → w ≤ 100 → i.gaveUp = false → s'.iod.draftLimit = i.draftLimit)) ∧
  (∀ (s : State) (e : Fin 32768) (q : Entry), getEntry? s e = some q → q.f.deadline ≠ 0 → q.f.deadline.toNat ≤ s.pwr.timebase.toNat → q.late = none → q.finalPosted = false →
    exec (.deadlinePassed e) s = .next (setEntry s e { q with late := some q.f.delay }))

/-! ## Pours -/

/-- The pour engine writes the next record of a target whose control block has been read (R324, R326, R330, R332, R341): a data record advances the log position and joins the records in flight,
and calls the segments that other members hold (R360); a commit record, while a steep runs, ends its chunk, and at a host target writes PRODUCED behind it; one that does not fit leaves the
target WAITING, one larger than the log makes it ERRORED with cause 5, and a write that the host refuses makes it ERRORED with cause 7. The read-miss class is charged (R190).
The model's choices of log entries 79 and 137 stand in it. -/
def Obligations.PourRecordsAreWritten : Prop :=
  ∀ (s : State) (p : Fin 64) (k : Fin 1024) (x : Part) (t : Target) (img : Image) (j : PourJob) (rest : List PourJob) (far : List (List Byte)), getPart? s p = some x → tabGet? k x.targets = some t →
    x.image = some img → deviceUp s = true → t.st ≠ .errored → t.rnr = false → t.queue = j :: rest → j.wait = false →
    let put := fun (off : Nat) (b : List Byte) (imm : Option Word32) => if t.host = true then Out.hostWrite (p.val + 1) (t.regionAddr + BitVec.ofNat 64 off) b else Out.rdmaWrite p k t.port off b imm
    let read := if t.host = true then Out.hostRead (p.val + 1) t.regionAddr 64 else Out.rdmaRead p k t.port
    (∀ ok, t.log = none → exec (.pourRecordWrite p k ⟨ok, far⟩) s = .next (emit s read)) ∧
    (t.log ≠ none → exec (.pourRecordWrite p k ⟨false, far⟩) s = .next (if t.host = true then errTarget s p k 7 else s)) ∧
    (∀ o len, t.log = some (o, len) → 0 < len →
      let b := nextRecord x.mem p img t j far
      let cuts := cutChunk img j.first j.count
      let pad := padBefore t len b.length
      let pos := t.pos + pad
      let pads : List Out := if pad = 0 then [] else [put (o + t.pos % len) (padRecord pad) none]
      (len < b.length → exec (.pourRecordWrite p k ⟨true, far⟩) s = .next (errTarget s p k 5)) ∧
      (b.length ≤ len → creditOk s p .rm = false → t.recIdx < cuts.length → exec (.pourRecordWrite p k ⟨true, far⟩) s = .next (setPart s p { x with waitRm := true })) ∧
      (b.length ≤ len → creditOk s p .rm = true ∨ cuts.length ≤ t.recIdx → len < t.pos + pad + b.length - t.consumed →
        exec (.pourRecordWrite p k ⟨true, far⟩) s = .next (modTarget s p k (fun t => { t with st := .waiting }))) ∧
      (∀ c, b.length ≤ len → t.pos + pad + b.length - t.consumed ≤ len → cuts[t.recIdx]? = some c → creditOk s p .rm = true →
        ∃ s' t', exec (.pourRecordWrite p k ⟨true, far⟩) s = .next s' ∧ getTarget s' p k = some t' ∧ s'.out = s.out ++ pads ++ [put (o + pos % len) b none] ++ cutGathers p img c ∧ s'.table = s.table ∧
          t'.st = .active ∧ t'.pos = pos + b.length ∧ t'.produced = t.produced ∧ t'.queue = t.queue ∧ t'.recIdx = t.recIdx + 1 ∧
          t'.flights = t.flights ++ [{ pos := pos, len := b.length, entry := j.entry, chunk := j.chunk, commit := false, sent := now s }]) ∧
      (b.length ≤ len → t.pos + pad + b.length - t.consumed ≤ len → cuts.length ≤ t.recIdx → x.phase ≠ .none →
        ∃ s' t', exec (.pourRecordWrite p k ⟨true, far⟩) s = .next s' ∧ getTarget s' p k = some t' ∧
          s'.out = s.out ++ pads ++ (if t.host = true then [put (o + pos % len) b none, .hostWrite (p.val + 1) (t.regionAddr + 32) (natToBytes 8 (pos + b.length)), read]
            else [put (o + pos % len) b (some (BitVec.ofNat 32 (pos / 64)))]) ∧
          t'.pos = pos + b.length ∧ t'.produced = pos + b.length ∧ t'.queue = rest ∧ t'.recIdx = 0 ∧ t'.crcs = []))

/-- A control block is read (R323, R324), a WAITING target's CONSUMED is polled, a commit is acknowledged and PROGRESS rises (R15, R237,
R339), a result is written (R342), and a host that refuses an access makes its target ERRORED with cause 7 (R341).
The model's choices of log entries 77 and 78 stand in it. -/
def Obligations.PourAcknowledgements : Prop :=
  (∀ (s : State) (p : Fin 64) (k : Fin 1024) (x : Part) (t : Target), getPart? s p = some x → tabGet? k x.targets = some t → t.st ≠ .errored →
    (t.st = .waiting → deviceUp s = true →
      exec (.consumedPoll p k) s = .next (emit s (if t.host = true then .hostRead (p.val + 1) t.regionAddr 64 else .rdmaRead p k t.port))) ∧
    exec (.controlBlockRead p k none) s = .next (if t.host = true then errTarget s p k 7 else s) ∧
    (∀ b : BitVec 512, t.host = false → cbField b 0 8 % 64 = 0 → cbField b 0 8 ≤ t.pos → t.consumed ≤ cbField b 0 8 →
      (t.log = none → cbOk x t b = true →
        exec (.controlBlockRead p k (some b)) s = .next (setPart s p { x with targets := tabInsert k { t with log := some (cbField b 8 8, cbField b 16 8), consumed := cbField b 0 8 } x.targets })) ∧
      (t.log ≠ none → exec (.controlBlockRead p k (some b)) s = .next (setPart s p { x with targets := tabInsert k { t with consumed := cbField b 0 8 } x.targets }))) ∧
    (∀ b : BitVec 512, t.log = none → cbOk x t b = false → exec (.controlBlockRead p k (some b)) s = .next (errTarget s p k 5)) ∧
    (∀ b : BitVec 512, t.log ≠ none → cbField b 0 8 % 64 ≠ 0 ∨ t.pos < cbField b 0 8 ∨ cbField b 0 8 < t.consumed → exec (.controlBlockRead p k (some b)) s = .next (errTarget s p k 6)) ∧
    (∀ f e, t.host = false → t.flights.find? (·.commit) = some f → getEntry? s f.entry = some e → e.st ≠ .pouring → mirroring s = false → f.chunk + 1 < 2 ^ 14 →
      ∃ s' t' e', exec (.commitAck p k) s = .next s' ∧ getTarget s' p k = some t' ∧ t'.flights = (t.flights.dropWhile (fun u => !u.commit)).drop 1 ∧ t'.tries = 0 ∧
        getEntry? s' f.entry = some e' ∧ e'.f.progress.toNat = max e.f.progress.toNat (f.chunk + 1) ∧ e'.st = e.st ∧ (∀ i, i ≠ f.entry → getEntry? s' i = getEntry? s i))) ∧
  (∀ (s : State) (e : Fin 32768) (q : Entry) (t : Target), getEntry? s e = some q → getTarget s (entryPart q) (resTarget q.f.result) = some t → q.resultDue = true → q.st = .pouring → t.st ≠ .errored →
    deviceUp s = true →
    (∃ s' l, exec (.resultWriteDone e true) s = .next s' ∧
      s'.out = s.out ++ (if t.host = true then .hostWrite (entryPart q + 1) (t.regionAddr + BitVec.ofNat 64 (resOffset q.f.result)) q.outBytes
        else .rdmaWrite (entryPart q) (resTarget q.f.result) t.port (resOffset q.f.result) q.outBytes none) :: l ∧
      ∀ y, getEntry? s' e = some y → y.resultDue = false) ∧
    exec (.resultWriteDone e false) s = .next (if t.host = true then errTarget s (entryPart q) (resTarget q.f.result) 7 else s))

/-- The failures of the pour path (R334-R338): a NAK makes the target ERRORED with its cause; an ACK timeout sends the unacknowledged writes again, seven times, before the queue pair
moves; RNR holds the queue pair until its timer; a port that fails is fenced and one that has returned for 1 s serves again. -/
def Obligations.PourFailures : Prop :=
  (∀ (s : State) (p : Fin 64) (k : Fin 1024) (x : Part) (t : Target), getPart? s p = some x → tabGet? k x.targets = some t → t.host = false →
    let put := fun (u : Target) => setPart s p { x with targets := tabInsert k u x.targets }
    (∀ cause : Fin 3, exec (.targetNak p k cause) s = .next (errTarget s p k (cause.val + 1))) ∧
    (t.st ≠ .errored → t.flights ≠ [] → t.tries < 7 →
      exec (.transportAckTimeout p k) s = .next (emit (put { t with tries := t.tries + 1, retries := min 255 (t.retries + 1) }) (.retransmit p k t.port (oldestFlight t)))) ∧
    (∀ port, t.st ≠ .errored → t.flights ≠ [] → 7 ≤ t.tries →
      leastLoaded s ((portsFor s t.ports).filter (fun i => !(t.triedPorts ++ [t.port]).contains i && s.iod.portsMacsec.getLsbD i = s.iod.portsMacsec.getLsbD t.port)) = some port →
      exec (.transportAckTimeout p k) s = .next (emit (put { t with port := port, moved := true, tries := 0, triedPorts := t.triedPorts ++ [t.port] }) (.retransmit p k port (oldestFlight t)))) ∧
    exec (.cnpReceived p k) s = .next (put { t with cnps := t.cnps + 1 }) ∧
    (t.st ≠ .errored → t.flights ≠ [] → exec (.rnrNak p k) s = .next (put { t with rnr := true })) ∧
    (t.rnr = true → exec (.rnrTimerExpiry p k) s = .next (emit (put { t with rnr := false }) (.retransmit p k t.port (oldestFlight t))))) ∧
  (∀ (s : State) (port : Fin 4),
    (s.iod.portsUp.getLsbD port = true → (∀ q ∈ s.parts, ∀ r ∈ q.2.targets, r.2.port = port.val → r.2.host = true ∨ r.2.st = .errored) →
      ∃ s', exec (.pourPortFail port) s = .next s' ∧ s'.iod = { s.iod with portsUp := setBit s.iod.portsUp port false, portsFenced := setBit s.iod.portsFenced port true } ∧
        { s' with iod := s.iod, log := s.log, logNext := s.logNext, logLost := s.logLost } = s) ∧
    (s.iod.portsFenced.getLsbD port = true →
      exec (.pourPortReturn port) s = .next { s with iod := { s.iod with portsUp := setBit s.iod.portsUp port true, portsFenced := setBit s.iod.portsFenced port false } }))

/-! ## The fabric -/

/-- The search (R352, R353): HELLOs leave the S ports that are up and name the peer of a port; a later epoch is flooded on and starts a new search, an earlier one is not taken; tables gather at
the leader; PREPARE is confirmed and COMMIT installed under the epoch in force only.
The model's choices of log entries 31 and 92 stand in it. -/
def Obligations.SearchMessages : Prop :=
  (∀ s : State, ∃ s', exec .helloTimer s = .next s' ∧ { s' with out := s.out } = s ∧
    s'.out = s.out ++ (s.fab.ports.filter (fun q => decide (q.1 < 16) && portUp q.2)).map (fun q => .hello q.1 ownId s.fab.epoch)) ∧
  (∀ (s : State) (port : Fin 16) (id : BitVec 64) (peer : Fin 32) (epoch : BitVec 16) (sw : Bool), portUp (getPort s port) = true → laterEpoch epoch s.fab.epoch = false → s.fab.searching = false →
    ∃ s' q, exec (.hello port id peer epoch sw) s = .next s' ∧ s' = { s with fab := { s.fab with ports := s'.fab.ports } } ∧
      getPort s' port = q ∧ q.nbr = some (id, peer.val, sw) ∧ bits q.status 61 60 = (if sw then 2 else 1) ∧ bits q.status 47 43 = peer.val ∧ (∀ p : Nat, p ≠ port.val → getPort s' p = getPort s p)) ∧
  (∀ (s : State) (epoch : BitVec 16),
    (laterEpoch epoch s.fab.epoch = true → exec (.epochMessage epoch) s = .next (startSearch s epoch)) ∧
    (laterEpoch epoch s.fab.epoch = false → exec (.epochMessage epoch) s = .next s) ∧
    (epoch = s.fab.epoch → exec (.prepare epoch) s = .next (emit { s with fab := { s.fab with prepared := some epoch } } (.confirmMsg epoch))) ∧
    (epoch ≠ s.fab.epoch → exec (.prepare epoch) s = .next s ∧ ∀ m w r, exec (.commit epoch m w r) s = .next s) ∧
    (epoch = s.fab.epoch → s.fab.prepared = some epoch → s.fab.groups = [] → ∀ mods sws routes, ∃ s', exec (.commit epoch mods sws routes) s = .next s' ∧ s'.fab.published = true ∧
      s'.fab.pubEpoch = epoch ∧ s'.fab.epoch = epoch ∧ s'.fab.searching = false ∧ s'.fab.routes = routes ∧ s'.fab.moduleIds = mods ∧ s'.fab.routeId.toNat = mods.idxOf ownId % 2 ^ 16 ∧
      { s' with fab := s.fab } = s)) ∧
  (∀ (s : State) (id : BitVec 64) (sw : Bool) (nbrs : List Neighbour), s.fab.searching = true → id ≠ ownId →
    let s1 := { s with fab := { s.fab with tables := s.fab.tables.filter (fun t => t.1 ≠ id) ++ [(id, sw, nbrs)] } }
    exec (.neighbourTable id sw nbrs) s = .next (trySearch s1) ∧ (leads s1 = false ∨ tablesClosed s1 = false → trySearch s1 = s1)) ∧
  (∀ (s : State) (id : BitVec 64), s.fab.searching = true → leads s = true → s.fab.prepared = some s.fab.epoch → id ∈ tableModules s → id ∉ s.fab.confirms →
    let s1 := { s with fab := { s.fab with confirms := s.fab.confirms ++ [id] } }
    ((∃ m ∈ tableModules s, m ∉ s.fab.confirms ++ [id]) → exec (.prepareConfirmation id s.fab.epoch) s = .next s1) ∧
    ((∀ m ∈ tableModules s, m ∈ s.fab.confirms ++ [id]) →
      exec (.prepareConfirmation id s.fab.epoch) s = .next (install (emit s1 (.commitMsg s.fab.epoch)) (tableModules s) (tableSwitches s) (computeRoutes s))))

/-- The link layer (R348-R350): an intact packet for this module that is next in its virtual channel's order is acknowledged, and one that is not intact or not next is dropped; unacknowledged packets
are sent again, oldest first; a port that loses a lane goes on with the others; a port that goes down is logged and the epoch advances (R353, R354).
The model's choices of log entries 91, 97, 98 and 165 stand in it. -/
def Obligations.LinkEvents : Prop :=
  (∀ (s : State) (port : Fin 18) (h : BitVec 128) (b : List Byte), portUp (getPort s port) = true →
    let v := bits h 33 32
    (headerOk h b = false → exec (.fabricLinkPacket port h b) s = .next s) ∧
    (headerOk h b = true → (if port.val < 16 then v ≤ 2 else 2 ≤ v) → bits h 39 36 ≠ 6 → (BitVec.ofNat 32 (bits h 95 64) ≠ (getVc (getPort s port) v).nextRecv) → exec (.fabricLinkPacket port h b) s = .next s) ∧
    (headerOk h b = true → (if port.val < 16 then v ≤ 2 else 2 ≤ v) → bits h 39 36 ≠ 6 → BitVec.ofNat 32 (bits h 95 64) = (getVc (getPort s port) v).nextRecv → (v ≤ 1 → s.fab.published = true ∧ bits h 15 0 = s.fab.routeId.toNat) →
      ∃ s' a g, exec (.fabricLinkPacket port h b) s = .next s' ∧ s'.out = s.out ++ [.fabric port a g] ∧ bits a 95 64 = bits h 95 64 ∧ bits a 39 36 = 6 ∧
        getVc (getPort s' port) v = { getVc (getPort s port) v with nextRecv := BitVec.ofNat 32 (bits h 95 64) + 1 } ∧ { s' with out := s.out, fab := s.fab } = s)) ∧
  (∀ (s : State) (port : Fin 18) (v : Fin 4), portUp (getPort s port) = true → (getVc (getPort s port) v).unacked ≠ [] →
    ∃ s', exec (.linkRetransmitTimeout port v) s = .next s' ∧ s'.out = s.out ++ (getVc (getPort s port) v).unacked.map (fun q => .fabric port q.1 q.2) ∧ { s' with out := s.out, fab := s.fab } = s) ∧
  (∀ (s : State) (port : Fin 16), s.ready = true → portFenced (getPort s port) = false →
    (portUp (getPort s port) = true → exec (.sPortStateChange port false) s = .next (portDown s port)) ∧
    (portUp (getPort s port) = false → exec (.sPortStateChange port true) s = .next (portRise (trained s port) port 0xF)) ∧
    exec (.sPortStateChange port (portUp (getPort s port))) s = .next s) ∧
  (∀ (s : State) (port : Fin 18) (lane : Fin 4), portUp (getPort s port) = true →
    let lanes := BitVec.ofNat 4 (bits (getPort s port).status 55 52)
    lanes.getLsbD lane = true → setBit lanes lane false ≠ 0 → ∃ s', exec (.laneFailure port lane) s = .next s' ∧ portUp (getPort s' port) = true ∧
      bits (getPort s' port).status 55 52 = (setBit lanes lane false).toNat ∧ s'.table = s.table ∧ s'.parts = s.parts)

/-- Records of the fabric (R365, R369): a record of a send region leaves with the sender's rank and tile, one that arrives stands in the next free record of its receive region and nowhere else; the
sums of a forming group make it ACTIVE or end its GROUP_CREATE (R358, R370); the slowest rank is published (R369).
The model's choices of log entries 95, 96, 102, 106 and 107 stand in it. -/
def Obligations.FabricRecords : Prop :=
  (∀ (s : State) (t : Fin 64) (b : List Byte) (p : Nat) (part : Part) (g : Group) (img : Image) (e : Nat) (m : MapEntry), partOfTile s t = some p → getPart? s p = some part → part.image = some img →
    tabGet? (recLE b 3 1) s.fab.groups = some g → regionAt (getTile s t) (recLE b 4 2) = some e → (getTile s t).map[e]? = some m → part.phase ≠ .none → g.part = p → g.st = .active →
    recLE b 0 2 = g.rank → recLE b 2 1 = tileIndex part t →
    (∃ r ∈ img.collRegions, r.send = false ∧ r.tile = tileIndex part t ∧ r.base.toNat = recLE b 4 2 ∧ r.srcRank = recLE b 16 2 ∧ r.srcTile = recLE b 18 1) →
    b.length = 64 + recLE b 8 4 → b.length ≤ entRec m →
    let x := getTile s t
    let c : Claim := { entry := e, index := 0, opnd := 0, circ := true, writer := true, remote := true, who := t, op := x.nextOp, taken := false }
    let a := entBase m + (takeClaim x c).2.index % max 1 m.count.toNat * entRec m
    (canClaim x c = true → ∃ s', exec (.fabricRecordDeliver t b) s = .next s' ∧ (∀ u : Nat, u ≠ t.val → getTile s' u = getTile s u) ∧
      (∀ k, smGet (getTile s' t).spad k = if a ≤ k ∧ k < a + b.length then b.getD (k - a) 0 else smGet x.spad k) ∧ (getTile s' t).ctx = x.ctx ∧ s'.parts = s.parts) ∧
    (canClaim x c = false → exec (.fabricRecordDeliver t b) s = .next s)) ∧
  (∀ (s : State) (t : Fin 64) (base : BitVec 16) (p : Nat) (part : Part) (img : Image) (e : Nat) (m : MapEntry) (g : Group), partOfTile s t = some p → getPart? s p = some part → part.image = some img → part.phase ≠ .none →
    regionAt (getTile s t) base.toNat = some e → (getTile s t).map[e]? = some m → (∃ r ∈ img.collRegions, r.send = true ∧ r.tile = tileIndex part t ∧ r.base = base) →
    let x := getTile s t
    let c : Claim := { entry := e, index := 0, opnd := 0, circ := true, writer := false, remote := true, who := t, op := x.nextOp, taken := false }
    let a := entBase m + (takeClaim x c).2.index % max 1 m.count.toNat * entRec m
    let h := readBytes x.spad a 64
    canClaim x c = true → poisoned x [(a, 64)] = none → poisoned x [(a, 64 + recLE h 8 4)] = none → recordRefused s p (tileIndex part t) img (entRec m) h = false →
    tabGet? (recLE h 3 1) s.fab.groups = some g → recLE h 0 2 = g.rank →
    ∃ s' r, exec (.fabricRecordSend t base) s = .next s' ∧ s'.out = s.out ++ [.collective (recLE h 3 1) (recLE h 0 2) r] ∧ r.length = 64 + recLE h 8 4 ∧ r.take 16 = h.take 16 ∧
      recLE r 16 2 = g.rank % 2 ^ 16 ∧ recLE r 18 1 = tileIndex part t % 256 ∧ r.drop 64 = readBytes x.spad (a + 64) (recLE h 8 4) ∧ (getTile s' t).spad = x.spad) ∧
  (∀ (s : State) (g : Fin 16) (q : Group), tabGet? g s.fab.groups = some q → q.st ≠ .active →
    (∀ joined sums, min joined q.list.members < q.list.members →
      exec (.inPassingReduction g joined sums) s = .next { s with fab := { s.fab with groups := tabInsert g.val { q with joined := min joined q.list.members } s.fab.groups } }) ∧
    (∀ joined sums, q.list.members ≤ joined → sums.length = 104 → unequalBytes q.list.members sums = [] →
      ∃ s', exec (.inPassingReduction g joined sums) s = .next s' ∧ (tabGet? g s'.fab.groups).map (fun y => (y.st, y.cmd)) = some (.active, none)) ∧
    (∀ joined sums, q.list.members ≤ joined → sums.length = 104 → unequalBytes q.list.members sums ≠ [] →
      ∃ s', exec (.inPassingReduction g joined sums) s = .next s' ∧ tabGet? g s'.fab.groups = none)) ∧
  (∀ (s : State) (g : Fin 16) (q : Group) (totals : List (Nat × Nat)), tabGet? g s.fab.groups = some q → q.st = .active →
    ∃ s' y, exec (.lagExchangeTimer g totals) s = .next s' ∧ tabGet? g s'.fab.groups = some y ∧ { y with slowest := q.slowest, slowestNs := q.slowestNs } = q ∧
      s'.out = s.out ++ q.waits.map (fun t => .groupMsg g (16 + t.1) t.2) ∧ { s' with out := s.out, fab := s.fab } = s ∧ (totals = [] → ∀ w ∈ q.waits, w.2 ≤ y.slowestNs))

/-- The lockstep of a group (R360): the leader keeps the members' page counts, a member takes the row maps it is sent as its next steep and releases it on the leader's message, and an abort in another
member aborts the steep here.
The model's choices of log entries 59, 60 and 108 stand in it. -/
def Obligations.LockstepMessages : Prop :=
  ∀ (s : State) (p : Fin 64) (x : Part) (n : Nat) (g : Group) (l : List (Nat × Group)), getPart? s p = some x → groupsOf s p = (n, g) :: l →
    (∀ rank free, g.rank = 0 → rank ≠ 0 → rank < g.list.members → x.awaitCounts = false → exec (.lockstepPageCount p rank free) s = .next (setPart s p { x with counts := tabInsert rank free x.counts })) ∧
    (∀ rank free, g.rank = 0 → rank ≠ 0 → rank < g.list.members → x.awaitCounts = true → g.list.members ≤ (tabInsert rank free x.counts).length + 1 →
      exec (.lockstepPageCount p rank free) s = .next (composeFrozen (setPart s p { x with counts := tabInsert rank free x.counts, awaitCounts := false }) p)) ∧
    (∀ img rpt rows, g.rank ≠ 0 → x.image = some img → groupsReady s p = true → x.phase ≠ .body → rpt ∈ rptChoices 15 → rows.length ≤ tileCount x * rpt →
      ∃ s' y st, exec (.lockstepRowMaps p rpt rows) s = .next s' ∧ getPart? s' p = some y ∧ y.next = some st ∧ st.n = x.steepNo + 1 ∧ st.rpt = rpt ∧ st.composed = true ∧
        st.rows.length = (rows.filter (·.valid)).length ∧ s'.out = s.out ++ [.lockstep p 2 (x.steepNo + 1)] ∧ s'.table = s.table ∧ y.phase = x.phase) ∧
    (g.rank ≠ 0 → exec (.lockstepRelease p) s = .next (releaseSteep s p)) ∧ (g.rank = 0 → exec (.lockstepRelease p) s = .next s) ∧
    (∀ charged rows, x.phase ≠ .none → exec (.lockstepAbort p charged rows) s =
      .next (abortHere s p (if charged = false ∨ g.rank ≠ 0 then .none else if rows = [] then .image else .entries (rows.map (·.val)))))

/-! ## The pair -/

/-- Liveness of the partner (R377-R382): heartbeats leave the mirror ports that are up and are noted when they arrive; the classes of PAIR_ALIVE_IN; three missed heartbeats lead to takeover
only where the wire is static and sound, else to solo, and to a resynchronisation at the end of a wake window, in which none is missed; sleep is announced and confirmed.
The model's choices of log entries 118, 119 and 120 stand in it. -/
def Obligations.PairLiveness : Prop :=
  (∀ s : State, s.pair.partner.isSome = true → s.ready = true → s.pair.selfAsleep = false →
    ∃ s', exec .heartbeatTimer s = .next s' ∧ s'.pair.missed = s.pair.missed + 1 ∧
      s'.out = s.out ++ ((List.range 2).filter (fun p => s.pair.portsUp.getLsbD p)).map (fun p => .heartbeat p s.pwr.timebase s.pair.lastHbRecv s.pair.lastHbArrived) ∧ { s' with out := s.out, pair := s.pair } = s) ∧
  (∀ (s : State) (port : Fin 2) (tb es ea : Word64), s.pair.portsUp.getLsbD port = true → s.pair.partner.isSome = true → s.pair.selfAsleep = false → s.pair.aliveIn ≠ 2 ∨ s.pair.st ≠ 2 ∨ s.pair.wireFault = true →
    ∃ s', exec (.heartbeat port tb es ea) s = .next s' ∧ s'.pair.missed = 0 ∧ s'.pair.lastHbRecv = tb ∧ s'.pair.lastHbArrived = s.pwr.timebase ∧ s'.pair.partnerAsleep = false ∧ s'.pair.window = false ∧
      (es = 0 → s'.pair.delta = s.pair.delta) ∧ s'.pair.st = s.pair.st ∧ { s' with pair := s.pair } = s) ∧
  (∀ s : State, s.pair.st = 2 → s.pair.selfAsleep = false → s.pair.frozen = false →
    (s.pair.window = true → now s < s.pair.windowEnd → exec .heartbeatMissed s = .next s) ∧
    (s.pair.window = false ∨ s.pair.windowEnd ≤ now s →
      (s.pair.aliveIn = 2 → s.pair.wireFault = false → exec .heartbeatMissed s = .next (leapfrog s)) ∧
      (s.pair.aliveIn = 2 → s.pair.wireFault = true → exec .heartbeatMissed s = .next (goSolo s))) ∧
    (s.pair.aliveIn ≠ 2 → s.pair.window = true → s.pair.windowEnd ≤ now s →
      exec .heartbeatMissed s = .next (emit { s with pair := { s.pair with frozen := true, window := false, partnerAsleep := false } } (.resync (controlState s)))) ∧
    (s.pair.aliveIn ≠ 2 → s.pair.window = false → s.pair.partnerAsleep = false → exec .heartbeatMissed s = .next (goSolo s)) ∧
    (s.pair.aliveIn ≠ 2 → s.pair.window = false → s.pair.partnerAsleep = true → exec .heartbeatMissed s = .next s)) ∧
  (∀ s : State,
    (let opens := s.pair.st = 2 ∧ s.pair.partnerAsleep = true ∧ s.pair.aliveIn = 0 ∧ s.pair.window = false;
      (opens → exec .pairAliveInEdge s =
        .next { s with pair := { s.pair with aliveIn := 0, window := true, windowEnd := now s + max 15000 ((s.pwr.tick - s.pair.sleepAt).toNat * 625 / 256) } }) ∧
      (¬opens → exec .pairAliveInEdge s = .next { s with pair := { s.pair with aliveIn := 0 } })) ∧
    (s.pair.partnerAsleep = true → s.pair.aliveIn = 0 → exec .aliveInTimeout s = .next { s with pair := { s.pair with aliveIn := 1 } }) ∧
    (s.pair.partnerAsleep = false ∨ s.pair.aliveIn ≠ 0 → s.pair.st ≠ 3 → exec .aliveInTimeout s = .next { s with pair := { s.pair with aliveIn := 2 } }) ∧
    (s.pair.aliveIn = 0 → exec .wireFaultClear s = .next { s with pair := { s.pair with wireFault := false } }) ∧ (s.pair.aliveIn ≠ 0 → exec .wireFaultClear s = .next s) ∧
    (∀ ticks, s.pair.st = 2 → exec (.sleep ticks) s = .next (emit { s with pair := { s.pair with partnerAsleep := true, sleepTick := ticks, sleepAt := s.pwr.tick, window := false } } .sleepAck)) ∧
    (s.pair.st = 2 → a3Ready s = true → exec .sleepConfirm s =
      .next { s with pair := { s.pair with sleepConfirmed := true, selfAsleep := true, sleepAt := if s.pair.partnerAsleep = true then s.pair.sleepAt else s.pwr.tick, aliveOut := .hz32 } }))

/-- Mirroring (R375, R376, R381, R382): a delta of the partner is applied to the shadow and acknowledged; an acknowledgement confirms every delta up to it, and what waited for one takes effect; mirror ports fail
and return; a resynchronisation ends solo.
The model's choices of log entry 109 stand in it. -/
def Obligations.MirroringEvents : Prop :=
  (∀ (s : State) (d : Delta), s.pair.st = 2 → s.pair.frozen = false →
    ∃ s' f, exec (.mirrorDelta d) s = .next s' ∧ s' = emit (applyDelta { s with pair := { s.pair with received := s.pair.received + 1 } } d).1 (.deltaAck s.pair.received f) ∧
      (∀ i st q, d = .request i st q → findHandle s q.partition.toNat q.handle = none → tabGet? i s'.pair.shadow.requests = some (st, q) ∧ s'.table = s.table ∧ f = none) ∧
      (∀ i, d = .requestFreed i → tabGet? i s'.pair.shadow.requests = none ∧ s'.table = s.table ∧ f = none)) ∧
  (∀ (s : State) (n : Nat) (d : Delta) (c : FwCmd), s.pair.sent = [(n, d)] → (∀ i st q, d ≠ .request i st q) → s.pair.held = [(n, c)] → s.pair.configs = [] → s.pair.pairWrites = [] →
    exec (.mirrorAck n none) s = .next (carryOut { s with pair := { s.pair with sent := [], held := [], ctrs := smSet s.pair.ctrs 0x48 (smGet s.pair.ctrs 0x48 + 1) } } c)) ∧
  (∀ (s : State) (n : Nat) (fails : Option (BitVec 16 × Nat)), (∀ q ∈ s.pair.sent, q.1 ≠ n) → exec (.mirrorAck n fails) s = .next s) ∧
  (∀ (s : State) (port : Fin 2), s.pair.portsUp.getLsbD port = true → s.pair.mirrorPort = port.val → s.pair.portsUp.getLsbD (1 - port.val) = true →
    ∃ s', exec (.mirrorPortFail port) s = .next s' ∧ s'.pair = { s.pair with portsUp := setBit s.pair.portsUp port false, mirrorPort := 1 - port.val } ∧
      s'.out = s.out ++ s.pair.sent.map (fun q => .delta q.1 q.2) ∧ s'.table = s.table) ∧
  (∀ (s : State) (port : Fin 2), s.pair.portsUp.getLsbD port = false → portFenced (getPort s (16 + port.val)) = false → s.ready = true → s.pair.partner.isSome = true →
    ∃ s' l, exec (.mirrorPortReturn port) s = .next s' ∧ s'.pair.portsUp = setBit s.pair.portsUp port true ∧ s'.out = s.out ++ l ++ [.pairAuth Config.identityHash] ∧ s'.table = s.table ∧
      (port.val = 0 → s'.pair.mirrorPort = 0)) ∧
  (∀ (s : State) (x : ResyncInput), s.pair.frozen = true →
    ∃ s', exec (.resyncExchange (some x)) s = .next s' ∧ s'.pair = { s.pair with st := 2, frozen := false, shadow := x.shadow, resyncs := min 0xFFFF (s.pair.resyncs + 1), missed := 0 } ∧
      s'.table = s.table ∧ s'.rings = s.rings) ∧
  (∀ s : State, s.pair.frozen = true → exec (.resyncExchange none) s = .next (goSolo (lostUncovered s)))

/-- A takeover (R383, R390): the pair is a survivor, both mirror ports are fenced, the shadow is gone, and the takeover is announced on the PF's completion ring with an event completion TAKEN_OVER
whose HANDLE is the dead partner's fabric ID. -/
def Obligations.LeapfrogAnnouncesItself : Prop :=
  ∀ (s : State) (id : BitVec 384), s.pair.st = 2 → s.pair.selfAsleep = false → s.pair.frozen = false → s.pair.aliveIn = 2 → s.pair.wireFault = false → s.pair.window = false ∨ s.pair.windowEnd ≤ now s → s.pair.partner = some id →
    s.pair.shadow.requests = [] → s.pair.shadow.commands = [] → s.pair.held = [] → s.pair.configs = [] → s.pair.pairWrites = [] → s.parts = [] →
    ∃ s' c, exec .heartbeatMissed s = .next s' ∧ s'.pair.st = 5 ∧ s'.pair.portsUp = 0 ∧ s'.pair.shadow = noShadow ∧ s'.pair.sent = [] ∧ portFenced (getPort s' 16) = true ∧ portFenced (getPort s' 17) = true ∧
      (getRing s' 1).waiting.getLast? = some (c, none) ∧ c.status = 0x0502 ∧ c.event = true ∧ c.final = false ∧ c.handle = id.setWidth 64 ∧ s'.pair.adopted.length = s.pair.shadow.rings.length

/-! ## Faults, power and resets -/

/-- What a module that runs does not survive stops it (R395, R466): READY falls, PAIR_ALIVE_OUT is static, and the fault is logged; code 0x01 is logged alone. One control core, one lost package and a caddy way less are absorbed (R203, R394, R397); a caddy line with
an uncorrectable error is invalidated, and a way with 2 such errors or 64 corrected ones in 24 hours is disabled with its lines (R196); the patrol scrub counts its passes and corrects a granule
unless two packages are lost (R200, R201).
The model's choices of log entry 133 stand in it. -/
def Obligations.ModuleFaults : Prop :=
  (∀ (s : State) (code : BitVec 8), s.mod.lifeStarted = true → s.mod.stopped = none →
    (code ≠ 0x01 → exec (.moduleFault code) s = .next (moduleStop s code) ∧ (moduleStop s code).ready = false ∧ (moduleStop s code).mod.stopped = some code ∧ (moduleStop s code).pair.aliveOut = .static) ∧
    exec (.moduleFault 0x01) s = .next (faultLog s 11 1 0xFF 0 0 0xFFFF 0)) ∧
  (∀ s : State, s.ready = true →
    (1 < s.mod.cores → exec .controlCoreFail s = .next (faultLog { s with mod := { s.mod with cores := s.mod.cores - 1 } } 8 0 0xFF 5 (s.mod.cores - 1) 0xFFFF 0)) ∧
    (s.mod.cores = 1 → s.mod.lifeStarted = true → s.mod.stopped = none → ∃ s', exec .controlCoreFail s = .next s' ∧ s'.ready = false ∧ s'.mod.stopped = some 0x06) ∧
    (∀ (way : Fin 16) (errs : List CaddyError), s.iod.waysOff.getLsbD way = false →
      let l := (tabGetD s.iod.wayErrs way.val []).filter (fun q => decide (now s < q.2 + 86400000000000)) ++ errs.map (fun e => (e.uncorrectable, now s))
      let tooMany := 2 ≤ (l.filter (fun q => q.1)).length ∨ 64 ≤ (l.filter (fun q => !q.1)).length
      ∃ s', exec (.caddyWayDisable ⟨way, errs⟩) s = .next s' ∧ s'.iod = { s.iod with waysOff := s'.iod.waysOff, caddy := s'.iod.caddy, wayErrs := tabInsert way.val l s.iod.wayErrs } ∧
        { s' with iod := s.iod, log := s.log, logNext := s.logNext, logLost := s.logLost } = s ∧
        (∀ c ∈ s.iod.caddy, c.way ≠ way.val → c ∈ s'.iod.caddy) ∧ (∀ c ∈ s'.iod.caddy, c ∈ s.iod.caddy) ∧
        (∀ c ∈ s'.iod.caddy, c.way = way.val → ¬tooMany ∧ ∀ e ∈ errs, e.uncorrectable = true → ¬(e.part = c.part ∧ e.line = c.line)) ∧
        (tooMany → s'.iod.waysOff = setBit s.iod.waysOff way true) ∧ (¬tooMany → s'.iod.waysOff = s.iod.waysOff ∧ s'.log = s.log)) ∧
    (∀ stripe, stripe < stripes → exec (.patrolScrubTick stripe none) s = .next (if stripe + 1 = stripes then { s with iod := { s.iod with scrubPass := s.iod.scrubPass + 1 } } else s)) ∧
    (∀ stripe (k : Fin 32), stripe < stripes → onesOf s.iod.lost < 2 →
      exec (.patrolScrubTick stripe (some k)) s = .next (if stripe + 1 = stripes then { s with iod := { s.iod with scrubPass := s.iod.scrubPass + 1 } } else s)) ∧
    (∀ stripe (k : Fin 32), stripe < stripes → onesOf s.iod.lost = 2 → s.iod.lost.getLsbD k = false → s.mod.lifeStarted = true → s.mod.stopped = none →
      ∃ s', exec (.patrolScrubTick stripe (some k)) s = .next s' ∧ s'.ready = false ∧ s'.mod.stopped = some 0x02)) ∧
  (∀ (s : State) (k : Fin 32), s.mod.lifeStarted = true → s.iod.lost.getLsbD k = false →
    let l := setBit s.iod.lost k true
    (onesOf l < 3 → exec (.packageLost k) s = .next (faultLog { s with iod := { s.iod with lost := l } } 4 0 0xFF 5 k 0xFFFF 0)) ∧
    (3 ≤ onesOf l → s.mod.stopped = none → ∃ s', exec (.packageLost k) s = .next s' ∧ s'.ready = false ∧ s'.mod.stopped = some 0x02))

/-- The responses of the power path (R415-R419, R448): the cap loop's period by its rule, DIE_HOT and PWR_BRAKE_N, and the current limit.
The model's choices of log entries 82 and 163 stand in it. -/
def Obligations.PowerResponses : Prop :=
  (∀ (s : State) (watts iin vin : Nat), s.ready = true → s.pwr.dev ≤ 3 → s.pwr.capCmds = [] → s.pwr.hot = false →
    let c := if s.pwr.brake = true ∨ s.pwr.limitBrake = true then 800 else s.pwr.capW.toNat
    ∃ s', exec (.powerCapTick ⟨watts, iin, vin⟩) s = .next s' ∧ s'.pwr.measured = BitVec.ofNat 16 watts ∧ s'.mod.iin = BitVec.ofNat 16 iin ∧ s'.mod.vinSns = BitVec.ofNat 16 vin ∧ s'.pwr.vin10mv = BitVec.ofNat 16 vin ∧ s'.table = s.table ∧ s'.tiles = s.tiles ∧ s'.out = s.out ∧
      (c < watts → s.pwr.theta + max 1 (ceilDiv (64 * (watts - c)) watts) ≤ 16 → s'.pwr.theta = s.pwr.theta + max 1 (ceilDiv (64 * (watts - c)) watts) ∧ s'.pwr.step = s.pwr.step) ∧
      (c < watts → 16 < s.pwr.theta + max 1 (ceilDiv (64 * (watts - c)) watts) → s.pwr.step < 3 → s'.pwr.theta = 8 ∧ s'.pwr.step = s.pwr.step + 1) ∧
      (watts ≤ c → 97 * c ≤ 100 * watts → s.pwr.theta ≤ 16 → s'.pwr.theta = s.pwr.theta ∧ s'.pwr.step = s.pwr.step ∧ s'.pwr.capUnmet = false) ∧
      (100 * watts < 97 * c → 0 < s.pwr.theta → s.pwr.theta ≤ 17 → s'.pwr.theta = s.pwr.theta - 1 ∧ s'.pwr.step = s.pwr.step) ∧
      (100 * watts < 97 * c → s.pwr.theta = 0 → 0 < s.pwr.step → s'.pwr.step = if 10 ≤ s.pwr.below + 1 then s.pwr.step - 1 else s.pwr.step)) ∧
  (∀ s : State, s.ready = true → s.pwr.dev < 3 →
    (∃ s', exec .dieHot s = .next s' ∧ s'.pwr.dieHot = true ∧ s'.pwr.hot = true ∧ s'.pwr.step = 3 ∧ s'.pwr.theta = max s.pwr.theta 32 ∧ s'.table = s.table ∧ s'.tiles = s.tiles) ∧
    (s.pwr.dieHot = false → exec .dieHotClearTimeout s = .next { s with pwr := { s.pwr with hot := false } }) ∧ (s.pwr.dieHot = true → exec .dieHotClearTimeout s = .next s) ∧
    (∃ s', exec (.pwrBrakeN true) s = .next s' ∧ s'.pwr.brake = true ∧ s'.pwr.step = 3 ∧ s'.pwr.theta = max s.pwr.theta 48 ∧ s'.table = s.table ∧ s'.tiles = s.tiles) ∧
    exec (.pwrBrakeN false) s = .next { s with pwr := { s.pwr with brake := false } } ∧
    (∃ s', exec .currentLimit s = .next s' ∧ s'.mod = { s.mod with ilimit := true, ilimitSeen := true } ∧ s'.pwr.limitBrake = true ∧ s'.pwr.step = 3 ∧ s'.pwr.theta = max s.pwr.theta 48) ∧
    (s.mod.ilimit = false → exec .currentLimitTimeout s = .next s) ∧
    (s.mod.ilimit = true → s.mod.lifeStarted = true → s.mod.stopped = none → exec .currentLimitTimeout s = .next (moduleStop s 0x0C)) ∧
    exec .currentLimitRelease s = .next { s with mod := { s.mod with ilimit := false }, pwr := { s.pwr with limitBrake := false } })

/-- Sensors and supplies (R419, R445-R453): a temperature sample sets the thermal alert and the comparators, and trips at its limits; VIN outside its window trips the module, below 30 V it loses its state, and beyond the absolute maximum ratings
nothing is known of it; a rail fault and a leak stop the module.
The model's choices of log entries 5 and 88 stand in it. -/
def Obligations.SensorsAndSupplies : Prop :=
  (∀ (s : State) (x : Temps), x.dieTrip = false → x.outletTrip = false → s.mod.stopped = none → s.mod.leakShutdown = false →
    let tj := x.dies.foldl max 0
    ∃ s', exec (.thermalSample x) s = .next s' ∧ s'.table = s.table ∧ s'.tiles = s.tiles ∧ s'.mod.tjMax.toNat = tj % 256 ∧ s'.mod.inlet.toNat = x.inlet % 256 ∧ s'.mod.outlet.toNat = x.outlet % 256 ∧
      (100 ≤ tj ∨ 70 ≤ x.outlet → s'.mod.alert = true) ∧ (tj < 97 → x.outlet < 67 → s'.mod.alert = false) ∧ (104 ≤ tj → s'.pwr.dieHot = true) ∧ (tj < 100 → s'.pwr.dieHot = false)) ∧
  (∀ (s : State) (mv : Int),
    (mv < -60000 ∨ 80000 < mv → exec (.vinOutOfWindow mv) s = .fault .beyondRatings ∧ exec (.vinBackInside mv) s = .fault .beyondRatings) ∧
    (38000 ≤ mv → mv ≤ 62000 → exec (.vinOutOfWindow mv) s = .next s) ∧
    (-60000 ≤ mv → mv < 30000 → exec (.vinOutOfWindow mv) s = .next (supplyLost s)) ∧
    (30000 ≤ mv → mv < 38000 ∨ 62000 < mv → mv ≤ 80000 → s.pwr.dev < 4 → s.mod.lifeStarted = true → s.mod.stopped = none →
      ∃ s', exec (.vinOutOfWindow mv) s = .next s' ∧ s'.ready = false ∧ s'.mod.stopped = some 0x09 ∧ s'.pwr.vinOut = true) ∧
    (38000 ≤ mv → mv ≤ 62000 → ∃ s', exec (.vinBackInside mv) s = .next s' ∧ s'.pwr.vinOut = false ∧ s'.pwr.vin10mv.toNat = (mv / 10).toNat ∧
      (s.mod.stopped = some 0x09 → 42000 ≤ mv → mv ≤ 60000 → s'.mod.restartOk = true) ∧ { s' with pwr := s.pwr, mod := s.mod } = s)) ∧
  (∀ s : State, s.mod.lifeStarted = true → s.mod.stopped = none →
    (∃ s', exec .railFault s = .next s' ∧ s'.mod.pwrGood = false ∧ s'.ready = false ∧ s'.mod.stopped = some 0x0A) ∧
    (s.pwr.dev < 4 → ∃ s', exec .leak s = .next s' ∧ s'.ready = false ∧ s'.mod.stopped = some 0x0B ∧ s'.mod.leakShutdown = true ∧ s'.mod.alert = true ∧ s'.pwr.domains = 0 ∧ s'.pwr.leakNow = true)) ∧
  (∀ s : State, ∃ s', exec .leakNHigh s = .next s' ∧ s'.pwr.leakNow = false ∧ (s.mod.leakShutdown = true → s'.mod.restartOk = true) ∧ (s.mod.leakShutdown = false → s'.mod = s.mod))

/-- Power states (R405-R414, R418, R420): A1 and A2 of an idle partition and A3 and A4 of an idle device, when the tolerance allows; wakes; queued domains power on one by one; alarms fire at their tick; PME_Turn_Off is acknowledged; the local
oscillator takes over from a lost REFCLK.
The model's choices of log entries 85, 87, 89, 90 and 164 stand in it. -/
def Obligations.PowerStates : Prop :=
  (∀ (s : State) (p : Fin 64) (x : Part), getPart? s p = some x → deviceUp s = true → x.waking = none →
    (partIdle s p x = true → x.pstate = 0 → 2 ≤ tolPart s x → exec (.stateDwellExpiry (.part p)) s = .next (settleDomains (setPart s p { x with pstate := 1 }))) ∧
    (partIdle s p x = true → x.pstate = 0 → tolPart s x < 2 → exec (.stateDwellExpiry (.part p)) s = .next s) ∧
    (partIdle s p x = true → x.pstate = 1 → 8 * offIf s p + 4 ≤ tolPart s x → (∀ q ∈ s.parts, q.2.pstate = 2 → 8 * offIf s p + 4 ≤ tolPart s q.2) →
      ∃ s', exec (.stateDwellExpiry (.part p)) s = .next s' ∧ getPart? s' p = some { x with pstate := 2 } ∧ ∀ t, t < 64 → x.tileMask.getLsbD t = true → (getTile s' t).acc = [] ∧ (getTile s' t).spad = [] ∧ (getTile s' t).ctrs = (getTile s t).ctrs) ∧
    (partIdle s p x = false → exec (.stateDwellExpiry (.part p)) s = .next s) ∧
    (∀ source, partIdle s p x = false → x.pstate = 1 → s.pwr.tolCmds = [] → exec (.wakeEvent (.part p) source) s = .next (settleDomains (setPart s p { x with pstate := 0 }))) ∧
    (∀ source, partIdle s p x = true → exec (.wakeEvent (.part p) source) s = .next s)) ∧
  (∀ s : State, s.pwr.dev = 0 →
    (a3Ready s = true → 3000 ≤ tolDevice s → sleepDone s = true → ∃ s', exec (.stateDwellExpiry .device) s = .next s' ∧ s'.pwr = { s.pwr with dev := 3 } ∧ s'.table = s.table ∧ s'.out = s.out) ∧
    (a3Ready s = true → 3000 ≤ tolDevice s → sleepDone s = false → exec (.stateDwellExpiry .device) s = .next (emit s (.sleepMsg s.pwr.tick))) ∧
    (a3Ready s = false ∨ tolDevice s < 3000 → exec (.stateDwellExpiry .device) s = .next s)) ∧
  (∀ s : State, s.pwr.dev = 3 →
    (a4Ready s = true → 40000 ≤ tolDevice s → exec (.stateDwellExpiry .device) s = .next (enterA4 s)) ∧
    (∀ source : BitVec 8, 1 ≤ source.toNat → source.toNat ≤ 7 → wakeMasked s source.toNat = false →
      ∃ s', exec (.wakeEvent .device source) s = .next s' ∧ s'.pwr = { s.pwr with dev := 0, wakeCause := source } ∧ s'.table = s.table ∧ s'.parts = s.parts)) ∧
  (∀ (s : State) (d : Nat) (r : List Nat), s.pwr.switches = d :: r → (∀ q ∈ s.parts, q.2.waking = none) →
    ∃ s', exec .domainSwitchClose s = .next s' ∧ { s' with pwr := s.pwr, tiles := s.tiles } = s ∧ s'.pwr = { s.pwr with switches := r, domains := setBit s.pwr.domains d true } ∧
      (∀ t, { getTile s' t with spadStatus := (getTile s t).spadStatus } = getTile s t) ∧
      (∀ t, t < 64 → domainOf s t = d → (getTile s' t).spadStatus = setBits (getTile s t).spadStatus 55 32 0) ∧ (∀ t, domainOf s t ≠ d → (getTile s' t).spadStatus = (getTile s t).spadStatus)) ∧
  (∀ (s : State) (i : Fin 4), bit (tabGetD s.pwr.alarms i 0) 63 = true →
    (bits (tabGetD s.pwr.alarms i 0) 47 0 ≤ s.pwr.tick.toNat % 2 ^ 48 → bit (tabGetD s.pwr.alarms i 0) 62 = false →
      exec (.alarmFire i) s = .next { s with pwr := { s.pwr with alarms := tabInsert i.val (setBit (setBit (tabGetD s.pwr.alarms i 0) 63 false) 61 true) s.pwr.alarms } }) ∧
    (s.pwr.tick.toNat % 2 ^ 48 < bits (tabGetD s.pwr.alarms i 0) 47 0 → exec (.alarmFire i) s = .next s)) ∧
  (∀ s : State, s.pwr.dev < 3 → exec .wakeNExternal s =
    .next { s with mod := { s.mod with wakePinHeld := false }, pwr := { s.pwr with wakeIn := true, seen := setBit s.pwr.seen 0 true } }) ∧
  (∀ s : State, exec .pmeTurnOff s = .next (emit { s with pwr := { s.pwr with pmeDone := true } } .pme) ∧
    ∃ s', exec .refclkLoss s = .next s' ∧ s'.pwr = { s.pwr with refLocal := true } ∧ s'.mod.pinFaults.getLsbD 19 = true ∧ s'.mod.lastPin = 19 ∧ s'.mod.lastKind = 5)

/-- The checks of the sideband pins (R454, R456, R457): each finding shows in SB_PIN_STATUS with its pin and kind, and is logged unless the pin stays
faulted; a pin that tests clear loses its fault. Attestation and firmware update over the sideband (R425, R429, R430, R457): measurements are answered
by their index, sessions are counted, a certificate is never replaced; a verified image ends recovery.
The model's choices of log entries 8, 84, 128, 129 and 135 stand in it. -/
def Obligations.SidebandEvents : Prop :=
  ((∀ (s : State) (pin kind : Nat), pin < 21 → kind < 8 →
      let s' := pinFinding s pin kind
      s'.mod.pinFaults = setBit s.mod.pinFaults pin true ∧ s'.mod.pinSeen = setBit s.mod.pinSeen pin true ∧ s'.mod.lastPin.toNat = pin ∧ s'.mod.lastKind.toNat = kind ∧ s'.pwr = s.pwr ∧ s'.table = s.table ∧
        (s.mod.pinFaults.getLsbD pin = true → s'.log = s.log) ∧
        (s.mod.pinFaults.getLsbD pin = false → tabGet? pin s.mod.pinClear = none → s.log.length < 65536 → ∃ r, s'.log = s.log ++ [r] ∧ r.cls = 19 ∧ r.code.toNat = kind ∧ r.unit.toNat = pin)) ∧
    (∀ (s : State) (pin : Nat), testPins[s.mod.testPin]? = some pin →
      let s1 := { s with mod := { s.mod with testPin := (s.mod.testPin + 1) % 9 } }
      (∀ l : List (Fin 21), (∀ q ∈ l, q.val ≠ pin) → exec (.pinTestTimer true l) s = .next (l.foldl (fun s q => pinFinding s q.val 3) (pinFinding s1 pin 2)) ∧
        exec (.pinTestTimer false l) s = .next (l.foldl (fun s q => pinFinding s q.val 3) (pinCleared s1 pin))) ∧ (pinCleared s1 pin).mod.pinFaults.getLsbD pin = false) ∧
    (∀ (s : State) (pin : Fin 21), (pin.val ∈ readbackPins → exec (.pinReadbackMismatch pin) s = .next (pinFinding s pin 4)) ∧ (pin.val ∉ readbackPins → exec (.pinReadbackMismatch pin) s = .next s)) ∧
    (∀ (s : State) (pin : Fin 2), exec (.smbusHeldLowTimeout pin) s = .next (pinFinding s (4 + pin.val) 1)) ∧
    (∀ s : State, exec (.sidebandHeldTimeout 0) s = .next (pinFinding s 0 1) ∧
      (s.pwr.wakeIn = true → exec (.sidebandHeldTimeout 2) s = .next (pinFinding { s with mod := { s.mod with wakePinHeld := true } } 2 1)))) ∧
  ((∀ s : State, s.mod.lifeStarted = true → s.mod.recovery = false → s.pwr.dev < 4 →
      (∀ i : BitVec 8, i ≠ 0xFF → measured s i.toNat = true → exec (.spdmRequest (.getMeasurements i)) s = .next (emit s (.spdm 0x60 (measurement s i.toNat)))) ∧
      (∀ i : BitVec 8, i ≠ 0xFF → measured s i.toNat = false → exec (.spdmRequest (.getMeasurements i)) s = .next (emit s (.spdm 0x7F [0x01]))) ∧
      (s.mod.sessions < 4 → ∃ b, exec (.spdmRequest .keyExchange) s = .next (emit { s with mod := { s.mod with sessions := s.mod.sessions + 1 } } (.spdm 0x64 b))) ∧
      (4 ≤ s.mod.sessions → exec (.spdmRequest .keyExchange) s = .next (emit s (.spdm 0x7F [0x03]))) ∧
      (0 < s.mod.sessions → exec (.spdmRequest .endSession) s = .next (emit { s with mod := { s.mod with sessions := s.mod.sessions - 1 } } (.spdm 0x6C []))) ∧
      exec (.spdmRequest .setCertificate) s = .next (emit s (.spdm 0x7F [0x07])) ∧
      (∀ body, ∃ a, exec (.pldmRequest (.telemetry body)) s = .next (emit s (.pldm a)))) ∧
    (∀ (s : State) (cause : BitVec 8) (x : StartCfg) (i : FwImage), s.pwr.dev < 4 → s.mod.recovery = true → s.mod.waitStart = some (cause, x) → s.mod.flashWp = false → imageVerified s i = true →
      exec (.pldmRequest (.fwUpdate i)) s = .next (startUp { s with mod := { s.mod with recovery := false, fwVersion := i.version, fwSvn := i.svn } } { x with slotOk := true } cause)))

/-- Start-up, resets and what outlives them (R344, R408, R460-R467): a module whose self-tests pass is READY with the cause of its reset; RESET_N and power-on lose requests, partitions and
rings; a function-level reset forgets its rings' commands and keeps ERR_ACCESS; a host-link reset clears push memory and keeps the partitions; an exit from A4 restores them.
The model's choices of log entries 9, 72, 86, 125, 127, 130, 131 and 132 stand in it. -/
def Obligations.StartUpAndResets : Prop :=
  (∀ (s : State) (x : StartCfg), x.slotOk = true ∨ x.otherOk = true → x.networksOk = true → x.badTiles = [] → x.newtsLost = 0 → x.cores ≠ 0 → x.lostPkgs = 0 → x.comparatorsOk = true → x.sealOk = true →
    (powered s = false → s.pwr.leakNow = false → s.pwr.vinOut = false → s.mod.restartOk = true →
      ∃ s', exec (.powerOn x) s = .next s' ∧ s'.ready = true ∧ s'.resetCause = 0x01 ∧ s'.parts = [] ∧ s'.table = [] ∧ s'.tiles = [] ∧ s'.push = [] ∧ s'.fwQueue = [] ∧ s'.pwr.dev = 0) ∧
    (powered s = true → s.pwr.leakNow = false → s.pwr.vinOut = false → s.pwr.dieHot = false → s.mod.restartOk = true → onesOf s.iod.lost < 3 → s.iod.newtsLost ≠ 0xFF →
      ∃ s', exec (.resetN x) s = .next s' ∧ s'.ready = true ∧ s'.resetCause = 0x03 ∧ s'.parts = [] ∧ s'.table = [] ∧ s'.tiles = [] ∧ s'.push = [] ∧ s'.mod.gen = s.mod.gen) ∧
    (s.pwr.dev = 5 → s.mod.leakShutdown = false → s.pwr.leakNow = false → s.pwr.vinOut = false → s.pwr.dieHot = false → s.mod.restartOk = true → onesOf s.iod.lost < 3 → s.iod.newtsLost ≠ 0xFF →
      ∃ s', exec (.a4Exit x) s = .next s' ∧ s'.ready = true ∧ s'.resetCause = 0x05) ∧
    (s.pwr.dev = 4 → s.mod.leakShutdown = false → s.pwr.leakNow = false → s.pwr.vinOut = false → s.pwr.dieHot = false → s.saved.valid = true → s.saved.parts = [] → onesOf s.iod.lost < 3 → s.iod.newtsLost ≠ 0xFF →
      ∃ s', exec (.a4Exit x) s = .next s' ∧ s'.ready = true ∧ s'.resetCause = s.resetCause ∧ s'.table = s.saved.table ∧ s'.saved = {})) ∧
  (∀ (s : State) (x : StartCfg), powered s = true → exec (.powerOn x) s = .next s) ∧
  (∀ s : State, s.ready = false → s.mod.stopped = none → powered s = true → s.pwr.dev < 4 → exec .startupTimeout s = .next (moduleStop s 0x07)) ∧
  (∀ (s : State) (vf : Fin 64), s.mod.lifeStarted = true → s.pwr.dev < 4 →
    (∃ s', exec (.flr vf) s = .next s' ∧ getFunc s' (vf.val + 1) = { errAccess := (getFunc s (vf.val + 1)).errAccess, resetCause := 0x04 } ∧ (∀ f, f ≠ vf.val + 1 → (getFunc s' f).errAccess = (getFunc s f).errAccess)) ∧
    (∃ s', exec (.vfEnable vf) s = .next s' ∧ { s' with funcs := s.funcs } = s ∧ getFunc s' (vf.val + 1) = { getFunc s (vf.val + 1) with enabled := true } ∧ (∀ f, f ≠ vf.val + 1 → getFunc s' f = getFunc s f))) ∧
  (∀ (s : State) (kind : LinkReset), s.mod.lifeStarted = true → s.pwr.dev < 4 → s.ready = true → s.parts = [] →
    ∃ s', exec (.perstN kind) s = .next s' ∧ s'.push = [] ∧ s'.ready = true ∧ s'.resetCause = (match kind with | .perst => 0x02 | .hotOrDown => 0x06) ∧ s'.table = s.table ∧ s'.log = s.log ∧
      (∀ f, (getFunc s' f).errAccess = (getFunc s f).errAccess ∧ (getFunc s' f).enabled = false) ∧ (∀ n, n < 8192 → (getRing s' n).cfg = 0 ∧ (getRing s' n).waiting = [] ∧ ((getRing s n).count ≠ 0 → (getRing s' n).count = (getRing s n).count))) ∧
  (∀ (s : State) (port : Fin 22) (x : Training), s.mod.lifeStarted = true → s.mod.stopped = none → s.pwr.dev < 3 → port.val < 16 → portUp (getPort s port) = false → portFenced (getPort s port) = false →
    (x.crossed = true → ∃ s', exec (.trainingRetryTimer port x) s = .next s' ∧ portUp (getPort s' port) = false ∧ bit (getPort s' port).status 57 = true) ∧
    (x.crossed = false → x.lanesOk &&& 0xF ≠ 0 → x.openTx = 0 → x.openRx = 0 → (getPort s port).changes = [] → ∃ s', exec (.trainingRetryTimer port x) s = .next s' ∧ portUp (getPort s' port) = true)) ∧
  (∀ (s : State) (port : Fin 4) (x : Training), s.mod.lifeStarted = true → s.mod.stopped = none → s.pwr.dev < 3 → s.iod.portsUp.getLsbD port = false → s.iod.portsFenced.getLsbD port = false → x.crossed = false → x.openTx = 0 → x.openRx = 0 →
    ∃ s', exec (.trainingRetryTimer ⟨18 + port.val, by omega⟩ x) s = .next s' ∧ (x.lanesOk = 0xFF → s'.iod.portsUp = setBit s.iod.portsUp port true) ∧ (x.lanesOk ≠ 0xFF → s'.iod.portsUp = s.iod.portsUp) ∧
      bits s'.iod.portLanes (8 * port.val + 7) (8 * port.val) = x.lanesOk.toNat ∧ s'.table = s.table ∧ s'.parts = s.parts)

/-! ## Numbers -/

/-- The unit exponents, the largest element integers and their bits are those of the table of R26, and an element of value ± m × 2^e has the
element integer ± m × 2^(e − u). -/
def Obligations.ElementIntegersAndUnitExponents : Prop :=
  ∀ q ∈ ([((0, -9), (229376, 18)), ((1, -16), (3758096384, 32)), ((2, -3), (60, 6)), ((3, -4), (448, 9)), ((4, -1), (12, 4)), ((5, -6), (128, 8))] :
      List ((Nat × Int) × (Nat × Nat))),
    let code := q.1.1
    let u := q.1.2
    unitExp code = u ∧ Nat.log2 q.2.1 + 1 = q.2.2 ∧ (∃ x, x < 2 ^ elemBits code ∧ (elemInt code x).natAbs = q.2.1) ∧
      ∀ x, x < 2 ^ elemBits code → (elemInt code x).natAbs ≤ q.2.1 ∧
        ∀ neg m e, elemNum code x = .fin neg m e → u ≤ e ∧ elemInt code x = (if neg then -1 else 1) * (m : Int) * 2 ^ (e - u).toNat

/-- The addition of a block value to an EXT pair is the routine ext_add, every operation an FP32 operation (R33). FP32 addition and subtraction of
finite numbers round the exact result to the nearest FP32 number, ties to even; a NaN or two infinities of opposite effect give the canonical NaN, and an
infinity alone stays. -/
def Obligations.ExtendedAddition : Prop :=
  (∀ a b : Word32, f32Finite a = true → f32Finite b = true →
    NearestF32 (fadd a b) (f32Units a + f32Units b) ∧ NearestF32 (fsub a b) (f32Units a - f32Units b)) ∧
  (∀ a b : Word32, (isNan a = true ∨ isNan b = true → fadd a b = nan32 ∧ fsub a b = nan32) ∧
    (isInf a = true → isInf b = true → fadd a b = (if signBit a = signBit b then a else nan32) ∧ fsub a b = (if signBit a = signBit b then nan32 else a)) ∧
    (isInf a = true → f32Finite b = true → fadd a b = a ∧ fsub a b = a) ∧
    (f32Finite a = true → isInf b = true → fadd a b = b ∧ fsub a b = b ^^^ 0x80000000)) ∧
  (∀ hi lo v : Word32,
    let s := fadd hi v
    let z := fsub s hi
    let e := fadd (fsub hi (fsub s z)) (fsub v z)
    let t := fadd lo e
    let hi2 := fadd s t
    let lo2 := fsub t (fsub hi2 s)
    extAdd hi lo v = (hi2, if isInf hi2 = true ∨ isNan hi2 = true then 0 else lo2))
end

