-- ==== Sys2Proof/Laws/Table.lean ====
section
/-! SUPPORT. Table.lean: the laws of sparse stores and tables: a read after a write, and the canonical form (Memory.wf) that
every memory operation keeps. -/

namespace Sys2Proof.Machine

open Sys2Proof

section tables
variable {α : Type}

@[simp] theorem tabGet_insert_self (k : Nat) (v : α) (t : List (Nat × α)) : tabGet? k (tabInsert k v t) = some v := by
  induction t with
  | nil => simp [tabInsert, tabGet?]
  | cons q r ih =>
    obtain ⟨a, b⟩ := q
    simp only [tabInsert]
    split
    · simp [tabGet?]
    · split
      · simp [tabGet?]
      · rename_i h1 h2
        simp [tabGet?, h2, ih]

theorem tabGet_insert_other {j k : Nat} (h : j ≠ k) (v : α) (t : List (Nat × α)) : tabGet? j (tabInsert k v t) = tabGet? j t := by
  induction t with
  | nil => simp [tabInsert, tabGet?, h]
  | cons q r ih =>
    obtain ⟨a, b⟩ := q
    simp only [tabInsert]
    split
    · simp [tabGet?, h]
    · split
      · rename_i h1 h2
        subst h2
        simp [tabGet?, h]
      · simp only [tabGet?, ih]

@[simp] theorem tabGet_erase_self (k : Nat) (t : List (Nat × α)) : tabGet? k (tabErase k t) = none := by
  induction t with
  | nil => rfl
  | cons q r ih =>
    obtain ⟨a, b⟩ := q
    simp only [tabErase]
    split
    · exact ih
    · rename_i h
      simp [tabGet?, h, ih]

theorem tabGet_erase_other {j k : Nat} (h : j ≠ k) (t : List (Nat × α)) : tabGet? j (tabErase k t) = tabGet? j t := by
  induction t with
  | nil => rfl
  | cons q r ih =>
    obtain ⟨a, b⟩ := q
    simp only [tabErase]
    split
    · rename_i h1
      subst h1
      simp [tabGet?, h, ih]
    · simp only [tabGet?, ih]

/-- What one insertion does to every read. -/
theorem tabGet_insert (j k : Nat) (v : α) (t : List (Nat × α)) : tabGet? j (tabInsert k v t) = if j = k then some v else tabGet? j t := by
  split
  · next h => subst h; simp
  · next h => exact tabGet_insert_other h v t

theorem tabGetD_insert (j k : Nat) (v d : α) (t : List (Nat × α)) : tabGetD (tabInsert k v t) j d = if j = k then v else tabGetD t j d := by
  simp only [tabGetD, tabGet_insert]
  split <;> rfl

@[simp] theorem tabGetD_insert_self (k : Nat) (v d : α) (t : List (Nat × α)) : tabGetD (tabInsert k v t) k d = v := by simp [tabGetD_insert]

theorem keysRise_cons (k : Nat) (v : α) (t : List (Nat × α)) : keysRise ((k, v) :: t) = true ↔ (∀ q ∈ t, k < q.1) ∧ keysRise t = true := by
  induction t generalizing k v with
  | nil => simp [keysRise]
  | cons q r ih =>
    obtain ⟨a, b⟩ := q
    simp only [keysRise, Bool.and_eq_true, decide_eq_true_eq, List.mem_cons, forall_eq_or_imp]
    constructor
    · rintro ⟨h1, h2⟩
      exact ⟨⟨h1, fun q hq => Nat.lt_trans h1 (((ih a b).1 h2).1 q hq)⟩, h2⟩
    · rintro ⟨⟨h1, -⟩, h2⟩
      exact ⟨h1, h2⟩

theorem mem_tabInsert {k : Nat} {v : α} {t : List (Nat × α)} {q : Nat × α} (h : q ∈ tabInsert k v t) : q = (k, v) ∨ q ∈ t := by
  induction t with
  | nil => simpa [tabInsert] using h
  | cons p r ih =>
    obtain ⟨a, b⟩ := p
    simp only [tabInsert] at h
    split at h
    · simpa using h
    · split at h
      · rcases List.mem_cons.1 h with h | h
        · exact .inl h
        · exact .inr (List.mem_cons_of_mem _ h)
      · rcases List.mem_cons.1 h with h | h
        · exact .inr (h ▸ List.mem_cons_self ..)
        · rcases ih h with h | h
          · exact .inl h
          · exact .inr (List.mem_cons_of_mem _ h)

theorem mem_tabErase {k : Nat} {t : List (Nat × α)} {q : Nat × α} (h : q ∈ tabErase k t) : q ∈ t := by
  induction t with
  | nil => exact h
  | cons p r ih =>
    obtain ⟨a, b⟩ := p
    simp only [tabErase] at h
    split at h
    · exact List.mem_cons_of_mem _ (ih h)
    · rcases List.mem_cons.1 h with h | h
      · exact h ▸ List.mem_cons_self ..
      · exact List.mem_cons_of_mem _ (ih h)

theorem keysRise_tabInsert (k : Nat) (v : α) (t : List (Nat × α)) (h : keysRise t = true) : keysRise (tabInsert k v t) = true := by
  induction t with
  | nil => rfl
  | cons q r ih =>
    obtain ⟨a, b⟩ := q
    have h' := (keysRise_cons a b r).1 h
    simp only [tabInsert]
    split
    · next hlt => exact (keysRise_cons _ _ _).2 ⟨fun q hq => by
        rcases List.mem_cons.1 hq with rfl | hq
        · exact hlt
        · exact Nat.lt_trans hlt (h'.1 q hq), h⟩
    · split
      · next _ heq => subst heq; exact (keysRise_cons _ _ _).2 h'
      · next h1 h2 => exact (keysRise_cons _ _ _).2 ⟨fun q hq => by
          rcases mem_tabInsert hq with rfl | hq
          · show a < k
            omega
          · exact h'.1 q hq, ih h'.2⟩

theorem keysRise_tabErase (k : Nat) (t : List (Nat × α)) (h : keysRise t = true) : keysRise (tabErase k t) = true := by
  induction t with
  | nil => exact h
  | cons q r ih =>
    obtain ⟨a, b⟩ := q
    have h' := (keysRise_cons a b r).1 h
    simp only [tabErase]
    split
    · exact ih h'.2
    · exact (keysRise_cons _ _ _).2 ⟨fun q hq => h'.1 q (mem_tabErase hq), ih h'.2⟩

theorem keysRise_filter (p : Nat × α → Bool) (t : List (Nat × α)) (h : keysRise t = true) : keysRise (t.filter p) = true := by
  induction t with
  | nil => exact h
  | cons q r ih =>
    obtain ⟨a, b⟩ := q
    have h' := (keysRise_cons a b r).1 h
    simp only [List.filter]
    split
    · exact (keysRise_cons _ _ _).2 ⟨fun q hq => h'.1 q (List.mem_filter.1 hq).1, ih h'.2⟩
    · exact ih h'.2
end tables

section stores
variable {w : Nat}

/-- A read after a write, at every cell. -/
theorem smGet_smSet (m : List (Nat × BitVec w)) (a b : Nat) (v : BitVec w) : smGet (smSet m a v) b = if b = a then v else smGet m b := by
  simp only [smGet, smSet]
  split
  · next hv =>
    split
    · next h => subst h; simp [hv]
    · next h => rw [tabGet_erase_other h]
  · rw [tabGet_insert]
    split <;> rfl

@[simp] theorem smGet_smSet_self (m : List (Nat × BitVec w)) (a : Nat) (v : BitVec w) : smGet (smSet m a v) a = v := by simp [smGet_smSet]

theorem smGet_smSet_other (m : List (Nat × BitVec w)) {a b : Nat} (v : BitVec w) (h : b ≠ a) : smGet (smSet m a v) b = smGet m b := by simp [smGet_smSet, h]

theorem wf_iff (m : List (Nat × BitVec w)) : Memory.wf m = true ↔ keysRise m = true ∧ ∀ q ∈ m, q.2 ≠ 0 := by
  simp [Memory.wf]

@[simp] theorem wf_nil : Memory.wf ([] : List (Nat × BitVec w)) = true := rfl

/-- Writing one cell keeps the canonical form. -/
theorem wf_smSet (m : List (Nat × BitVec w)) (a : Nat) (v : BitVec w) (h : Memory.wf m = true) : Memory.wf (smSet m a v) = true := by
  rw [wf_iff] at h ⊢
  simp only [smSet]
  split
  · exact ⟨keysRise_tabErase _ _ h.1, fun q hq => h.2 q (mem_tabErase hq)⟩
  · next hv => exact ⟨keysRise_tabInsert _ _ _ h.1, fun q hq => by
      rcases mem_tabInsert hq with rfl | hq
      · exact hv
      · exact h.2 q hq⟩

/-- Clearing a range keeps it. -/
theorem wf_clearRange (m : List (Nat × BitVec w)) (a n : Nat) (h : Memory.wf m = true) : Memory.wf (clearRange m a n) = true := by
  rw [wf_iff] at h ⊢
  exact ⟨keysRise_filter _ _ h.1, fun q hq => h.2 q (List.mem_filter.1 hq).1⟩

/-- Writing bytes keeps it. -/
theorem wf_writeBytes (l : List Byte) : ∀ (m : SMap 8) (a : Nat), Memory.wf m = true → Memory.wf (writeBytes m a l) = true := by
  induction l with
  | nil => exact fun _ _ h => h
  | cons b r ih => exact fun m a h => ih _ _ (wf_smSet m a b h)

/-- Equal canonical stores read the same; what a store reads is what it lists. -/
theorem smGet_writeBytes (l : List Byte) : ∀ (m : SMap 8) (a i : Nat),
    smGet (writeBytes m a l) i = if a ≤ i ∧ i < a + l.length then l.getD (i - a) 0 else smGet m i := by
  induction l with
  | nil => intro m a i; simp [writeBytes]
  | cons b r ih =>
    intro m a i
    rw [writeBytes, ih, smGet_smSet]
    by_cases h : i = a
    · subst h; simp
    · by_cases h2 : a + 1 ≤ i ∧ i < a + 1 + r.length
      · have h3 : a ≤ i ∧ i < a + (b :: r).length := by simp; omega
        obtain ⟨k, hk⟩ : ∃ k, i - a = k + 1 := ⟨i - a - 1, by omega⟩
        rw [if_pos h2, if_pos h3, hk]
        have : i - (a + 1) = k := by omega
        simp [this]
      · have h3 : ¬ (a ≤ i ∧ i < a + (b :: r).length) := by simp; omega
        rw [if_neg h2, if_neg h3, if_neg h]
end stores

/-- Reset lists nothing, so its stores are canonical. -/
theorem reset_push_wf : Memory.wf State.reset.push = true := rfl

end Sys2Proof.Machine
end

