-- ==== Sys2Proof/Laws/Keeps.lean ====
section
/-! SUPPORT. Keeps.lean: what every shared operation leaves as it was: the queue of waiting commands, and the form of push memory
and of the fault log (Safety.lean, StoresOk). One lemma per operation; a proof about a command cites these and unfolds no operation. -/

namespace Sys2Proof.Machine

open Sys2Proof

/-- From `s0` to `s` the queue is the same, and the stores stay in their form. -/
structure Keeps (s0 s : State) : Prop where
  pending : s.pending = s0.pending
  stores : StoresOk s0 → StoresOk s

theorem Keeps.refl (s : State) : Keeps s s := ⟨rfl, id⟩
theorem Keeps.trans {a b c : State} (h : Keeps a b) (k : Keeps b c) : Keeps a c := ⟨k.pending.trans h.pending, fun q => k.stores (h.stores q)⟩

/-- A state that differs in other fields only. -/
theorem Keeps.mk_ {s0 s : State} {x_free : Nat} {x_ready : Bool} {x_resetCause : BitVec 8} {x_funcs : Tab Func} {x_rings : Tab Ring} {x_fwLimit : BitVec 16} {x_fwQueue : List FwCmd} {x_parts : Tab Part} {x_table : Tab Entry} {x_tiles : Tab Tile} {x_sigs : List Sig} {x_remotes : List Remote} {x_iod : Iod} {x_fab : Fabric} {x_pair : Pair} {x_logLost : List (Nat × Nat)} {x_pwr : Power} {x_mod : Mod} {x_saved : Saved} {x_out : List Out}
    (hk : Keeps s0 s) : Keeps s0 ⟨s.pending, x_free, x_ready, x_resetCause, x_funcs, x_rings, s.push, x_fwLimit, x_fwQueue, x_parts, x_table, x_tiles, x_sigs, x_remotes, x_iod, x_fab, x_pair, s.log, s.logNext, x_logLost, x_pwr, x_mod, x_saved, x_out⟩ :=
  ⟨hk.pending, fun q => ⟨(hk.stores q).push, (hk.stores q).logLen, (hk.stores q).logOrder, (hk.stores q).logSeq⟩⟩

theorem Keeps.ite {s0 a b : State} {c : Prop} [Decidable c] (ha : Keeps s0 a) (hb : Keeps s0 b) : Keeps s0 (if c then a else b) := by
  split
  · exact ha
  · exact hb

theorem Keeps.iteFst {s0 : State} {α : Type} {a b : State × α} {c : Prop} [Decidable c] (ha : Keeps s0 a.1) (hb : Keeps s0 b.1) : Keeps s0 (if c then a else b).1 := by
  split
  · exact ha
  · exact hb

theorem Keeps.foldl {s0 : State} {α : Type} {f : State → α → State} {l : List α} (hf : ∀ s a, Keeps s0 s → Keeps s0 (f s a)) :
    ∀ {s : State}, Keeps s0 s → Keeps s0 (l.foldl f s) := by
  induction l with
  | nil => exact fun h => h
  | cons a r ih => exact fun h => ih (hf _ _ h)

theorem Keeps.foldlFst {s0 : State} {α β : Type} {f : State × β → α → State × β} {l : List α} (hf : ∀ s a, Keeps s0 s.1 → Keeps s0 (f s a).1) :
    ∀ {s : State × β}, Keeps s0 s.1 → Keeps s0 (l.foldl f s).1 := by
  induction l with
  | nil => exact fun h => h
  | cons a r ih => exact fun h => ih (hf _ _ h)

theorem keeps_setTile {s0 : State} {s : State} (t : Nat) (x : Tile) (hk : Keeps s0 s) : Keeps s0 (setTile s t x) := by
  unfold setTile
  try dsimp only
  repeat' first
    | exact hk
    | assumption
    | with_reducible refine Keeps.mk_ ?_

theorem keeps_modTile {s0 : State} {s : State} (t : Nat) (f : Tile → Tile) (hk : Keeps s0 s) : Keeps s0 (modTile s t f) := by
  unfold modTile
  try dsimp only
  repeat' first
    | exact hk
    | assumption
    | with_reducible apply keeps_setTile

theorem keeps_setPart {s0 : State} {s : State} (p : Nat) (x : Part) (hk : Keeps s0 s) : Keeps s0 (setPart s p x) := by
  unfold setPart
  try dsimp only
  repeat' first
    | exact hk
    | assumption
    | with_reducible refine Keeps.mk_ ?_

theorem keeps_modPart {s0 : State} {s : State} (p : Nat) (f : Part → Part) (hk : Keeps s0 s) : Keeps s0 (modPart s p f) := by
  unfold modPart
  try dsimp only
  repeat' first
    | exact hk
    | assumption
    | with_reducible apply keeps_setPart
    | split

theorem keeps_partCtr {s0 : State} {s : State} (p : Nat) (off : Nat) (n : Nat) (hk : Keeps s0 s) : Keeps s0 (partCtr s p off n) := by
  unfold partCtr
  try dsimp only
  repeat' first
    | exact hk
    | assumption
    | with_reducible apply keeps_modPart

theorem keeps_modTiles {s0 : State} {s : State} (ts : List Nat) (f : Tile → Tile) (hk : Keeps s0 s) : Keeps s0 (modTiles s ts f) := by
  unfold modTiles
  try dsimp only
  repeat' first
    | exact hk
    | assumption
    | with_reducible apply keeps_modTile
    | with_reducible refine Keeps.foldl (fun _ _ _ => ?_) ?_

theorem keeps_modFunc {s0 : State} {s : State} (f : Nat) (g : Func → Func) (hk : Keeps s0 s) : Keeps s0 (modFunc s f g) := by
  unfold modFunc
  try dsimp only
  repeat' first
    | exact hk
    | assumption
    | with_reducible refine Keeps.mk_ ?_

theorem keeps_errAccess {s0 : State} {s : State} (fn : Nat) (kind : Nat) (bar : Nat) (off : Nat) (hk : Keeps s0 s) : Keeps s0 (errAccess s fn kind bar off) := by
  unfold errAccess
  try dsimp only
  repeat' first
    | exact hk
    | assumption
    | with_reducible apply keeps_modFunc

theorem keeps_iodCtr {s0 : State} {s : State} (off : Nat) (n : Nat) (hk : Keeps s0 s) : Keeps s0 (iodCtr s off n) := by
  unfold iodCtr
  try dsimp only
  repeat' first
    | exact hk
    | assumption
    | with_reducible refine Keeps.mk_ ?_

theorem keeps_emit {s0 : State} {s : State} (o : Out) (hk : Keeps s0 s) : Keeps s0 (emit s o) := by
  unfold emit
  try dsimp only
  repeat' first
    | exact hk
    | assumption
    | with_reducible refine Keeps.mk_ ?_

theorem keeps_emits {s0 : State} {s : State} (l : List Out) (hk : Keeps s0 s) : Keeps s0 (emits s l) := by
  unfold emits
  try dsimp only
  repeat' first
    | exact hk
    | assumption
    | with_reducible refine Keeps.mk_ ?_

theorem keeps_takeFree {s0 : State} {s : State} (hk : Keeps s0 s) : Keeps s0 (takeFree s).2 := by
  unfold takeFree
  try dsimp only
  repeat' first
    | exact hk
    | assumption
    | with_reducible refine Keeps.mk_ ?_
theorem keeps_takeFree_eq {s0 s1 : State} {n1 : BitVec 64} {s : State}  (he : takeFree s = (n1, s1)) (hk : Keeps s0 s) : Keeps s0 s1 := by
  have k := keeps_takeFree (s0 := s0)   hk
  rw [he] at k
  exact k

theorem keeps_faultLog {s0 s : State} (cls code part action unit : Nat) (phys : BitVec 16) (detail : BitVec 128) (hk : Keeps s0 s) :
    Keeps s0 (faultLog s cls code part action unit phys detail) := by
  unfold faultLog
  extract_lets steep r s1
  have hr : r.seq = s.logNext := rfl
  clear_value r
  have happ : ∀ l : List LogRec, StoresOk s → l.Pairwise (fun a b => a.seq < b.seq) → (∀ q ∈ l, q ∈ s.log) →
      (l ++ [r]).Pairwise (fun a b => a.seq < b.seq) ∧ ∀ q ∈ l ++ [r], q.seq < s.logNext + 1 := by
    intro l ok hp hm
    refine ⟨List.pairwise_append.2 ⟨hp, List.pairwise_singleton _ _, fun a ha b hb => ?_⟩, fun q hq => ?_⟩
    · rw [List.mem_singleton.1 hb, hr]
      exact ok.logSeq a (hm a ha)
    · rcases List.mem_append.1 hq with h | h
      · exact Nat.lt_succ_of_lt (ok.logSeq q (hm q h))
      · rw [List.mem_singleton.1 h, hr]
        exact Nat.lt_succ_self _
  refine ⟨?_, fun ok0 => ?_⟩
  · split
    · exact hk.pending
    · split <;> exact hk.pending
  · have ok := hk.stores ok0
    have hlog : s1.log = s.log := rfl
    have hnext : s1.logNext = s.logNext + 1 := rfl
    split
    · next hlt =>
      have a := happ s.log ok ok.logOrder (fun _ h => h)
      exact ⟨ok.push, by simp only [hlog] at hlt ⊢; simp; omega, a.1, a.2⟩
    · split
      · have a := happ [] ok List.Pairwise.nil (by simp)
        exact ⟨ok.push, by simp, a.1, a.2⟩
      · next o rest he =>
        rw [hlog] at he
        have hp := ok.logOrder
        rw [he] at hp
        have a := happ rest ok (List.pairwise_cons.1 hp).2 (fun q h => he ▸ List.mem_cons_of_mem _ h)
        have hl := ok.logLen
        rw [he] at hl
        exact ⟨ok.push, by simpa using hl, a.1, a.2⟩

theorem keeps_modRing {s0 : State} {s : State} (r : Nat) (f : Ring → Ring) (hk : Keeps s0 s) : Keeps s0 (modRing s r f) := by
  unfold modRing
  try dsimp only
  repeat' first
    | exact hk
    | assumption
    | split
    | with_reducible refine Keeps.mk_ ?_

theorem keeps_sendDelta {s0 : State} {s : State} (d : Delta) (hk : Keeps s0 s) : Keeps s0 (sendDelta s d).1 := by
  unfold sendDelta
  try dsimp only
  repeat' first
    | exact hk
    | assumption
    | with_reducible apply keeps_emit
    | split
    | with_reducible refine Keeps.mk_ ?_
theorem keeps_sendDelta_eq {s0 s1 : State} {n1 : Option Nat} {s : State} {d : Delta}  (he : sendDelta s d = (s1, n1)) (hk : Keeps s0 s) : Keeps s0 s1 := by
  have k := keeps_sendDelta (s0 := s0) d  hk
  rw [he] at k
  exact k

theorem keeps_mirror {s0 : State} {s : State} (d : Delta) (hk : Keeps s0 s) : Keeps s0 (mirror s d) := by
  unfold mirror
  try dsimp only
  repeat' first
    | exact hk
    | assumption
    | with_reducible apply keeps_sendDelta

theorem keeps_enqueueCpl {s0 : State} {s : State} (r : Nat) (c : Completion) (hk : Keeps s0 s) : Keeps s0 (enqueueCpl s r c) := by
  unfold enqueueCpl
  try dsimp only
  repeat' first
    | exact hk
    | assumption
    | with_reducible apply keeps_modRing
    | with_reducible apply keeps_sendDelta

theorem keeps_postCpl {s0 : State} {s : State} (r : Nat) (p : Packet) (status : BitVec 16) (final : Bool) (event : Bool) (detail : BitVec 4) (result : BitVec 128) (hk : Keeps s0 s) : Keeps s0 (postCpl s r p status final event detail result) := by
  unfold postCpl
  try dsimp only
  repeat' first
    | exact hk
    | assumption
    | with_reducible apply keeps_enqueueCpl

theorem keeps_settleNops {s0 : State} {s : State} (r : Nat) (hk : Keeps s0 s) : Keeps s0 (settleNops s r) := by
  unfold settleNops
  try dsimp only
  repeat' first
    | exact hk
    | assumption
    | with_reducible apply keeps_modRing
    | with_reducible apply keeps_postCpl
    | with_reducible refine Keeps.foldl (fun _ _ _ => ?_) ?_

theorem keeps_commandDone {s0 : State} {s : State} (r : Nat) (seq : BitVec 32) (hk : Keeps s0 s) : Keeps s0 (commandDone s r seq) := by
  unfold commandDone
  try dsimp only
  repeat' first
    | exact hk
    | assumption
    | with_reducible apply keeps_modRing
    | with_reducible apply keeps_settleNops

theorem keeps_finish {s0 : State} {s : State} (r : Nat) (p : Packet) (status : BitVec 16) (result : BitVec 128) (hk : Keeps s0 s) : Keeps s0 (finish s r p status result) := by
  unfold finish
  try dsimp only
  repeat' first
    | exact hk
    | assumption
    | with_reducible apply keeps_postCpl
    | with_reducible apply keeps_commandDone

theorem keeps_badParam {s0 : State} {s : State} (r : Nat) (p : Packet) (field : Nat) (hk : Keeps s0 s) : Keeps s0 (badParam s r p field) := by
  unfold badParam
  try dsimp only
  repeat' first
    | exact hk
    | assumption
    | with_reducible apply keeps_finish

theorem keeps_notPermitted {s0 : State} {s : State} (r : Nat) (p : Packet) (hk : Keeps s0 s) : Keeps s0 (notPermitted s r p) := by
  unfold notPermitted
  try dsimp only
  repeat' first
    | exact hk
    | assumption
    | with_reducible apply keeps_finish

theorem keeps_setEntry {s0 : State} {s : State} (i : Nat) (e : Entry) (hk : Keeps s0 s) : Keeps s0 (setEntry s i e) := by
  unfold setEntry
  try dsimp only
  repeat' first
    | exact hk
    | assumption
    | with_reducible refine Keeps.mk_ ?_

theorem keeps_modEntry {s0 : State} {s : State} (i : Nat) (f : Entry → Entry) (hk : Keeps s0 s) : Keeps s0 (modEntry s i f) := by
  unfold modEntry
  try dsimp only
  repeat' first
    | exact hk
    | assumption
    | with_reducible apply keeps_setEntry
    | split

theorem keeps_setEntryM {s0 : State} {s : State} (i : Nat) (e : Entry) (hk : Keeps s0 s) : Keeps s0 (setEntryM s i e) := by
  unfold setEntryM
  try dsimp only
  repeat' first
    | exact hk
    | assumption
    | with_reducible apply keeps_mirror
    | with_reducible apply keeps_setEntry

theorem keeps_modEntryM {s0 : State} {s : State} (i : Nat) (f : Entry → Entry) (hk : Keeps s0 s) : Keeps s0 (modEntryM s i f) := by
  unfold modEntryM
  try dsimp only
  repeat' first
    | exact hk
    | assumption
    | with_reducible apply keeps_setEntryM
    | split

theorem keeps_postReq {s0 : State} {s : State} (e : Entry) (status : BitVec 16) (final : Bool) (event : Bool) (detail : BitVec 4) (result : BitVec 128) (hk : Keeps s0 s) : Keeps s0 (postReq s e status final event detail result) := by
  unfold postReq
  try dsimp only
  repeat' first
    | exact hk
    | assumption
    | with_reducible apply keeps_postCpl
    | with_reducible apply keeps_commandDone
    | split

theorem keeps_postEvent {s0 : State} {s : State} (e : Entry) (status : BitVec 16) (hk : Keeps s0 s) : Keeps s0 (postEvent s e status) := by
  unfold postEvent
  try dsimp only
  repeat' first
    | exact hk
    | assumption
    | with_reducible apply keeps_postReq
    | split

theorem keeps_promoteAll {s0 : State} {s : State} (p : Nat) (x : Part) (hk : Keeps s0 s) : Keeps s0 (promoteAll s p x) := by
  unfold promoteAll
  try dsimp only
  repeat' first
    | exact hk
    | assumption
    | with_reducible apply keeps_partCtr
    | with_reducible apply keeps_setEntryM
    | with_reducible refine Keeps.foldl (fun _ _ _ => ?_) ?_
    | split

theorem keeps_placeHead {s0 : State} (img : Image) (cap : Nat) (x : Part) {c : Comp} (q : Nat × Nat × Nat) (hk : Keeps s0 c.s) :
    Keeps s0 (placeHead img cap x c q).s := by
  unfold placeHead
  split
  · exact hk
  · dsimp only
    split
    · exact keeps_setEntryM _ _ hk
    · exact hk

theorem keeps_placePrompt {s0 : State} (img : Image) (cap : Nat) (x : Part) {c : Comp} (i : Nat) (hk : Keeps s0 c.s) :
    Keeps s0 (placePrompt img cap x c i).s := by
  unfold placePrompt
  split
  · exact hk
  · dsimp only
    split
    · dsimp only
      split
      · exact hk
      · exact keeps_setEntryM _ _ hk
    · exact keeps_setEntryM _ _ hk

theorem keeps_stirPart {s0 : State} {s : State} (p : Nat) (hk : Keeps s0 s) : Keeps s0 (stirPart s p) := by
  unfold stirPart
  try dsimp only
  repeat' first
    | exact hk
    | assumption
    | with_reducible apply keeps_modPart

theorem keeps_returnPages {s0 : State} {s : State} (p : Nat) (e : Entry) (hk : Keeps s0 s) : Keeps s0 (returnPages s p e) := by
  unfold returnPages
  try dsimp only
  repeat' first
    | exact hk
    | assumption
    | with_reducible apply keeps_modPart

theorem keeps_settleLent {s0 : State} {s : State} (p : Nat) (hk : Keeps s0 s) : Keeps s0 (settleLent s p) := by
  unfold settleLent
  try dsimp only
  repeat' first
    | exact hk
    | assumption
    | with_reducible apply keeps_modPart

theorem keeps_modWaiting {s0 : State} {s : State} (p : Nat) (i : Nat) (g : PourJob → PourJob) (hk : Keeps s0 s) : Keeps s0 (modWaiting s p i g) := by
  unfold modWaiting
  try dsimp only
  repeat' first
    | exact hk
    | assumption
    | with_reducible apply keeps_modPart

theorem keeps_sampleLeft {s0 : State} {s : State} (p : Nat) (i : Nat) (hk : Keeps s0 s) : Keeps s0 (sampleLeft s p i) := by
  unfold sampleLeft
  try dsimp only
  repeat' first
    | exact hk
    | assumption
    | with_reducible apply keeps_modWaiting
    | split

theorem keeps_preemptNow {s0 : State} {s : State} (p : Nat) (i : Nat) (hk : Keeps s0 s) : Keeps s0 (preemptNow s p i) := by
  unfold preemptNow
  try dsimp only
  repeat' first
    | exact hk
    | assumption
    | with_reducible apply keeps_partCtr
    | with_reducible apply keeps_setEntryM
    | with_reducible apply keeps_postEvent
    | with_reducible apply keeps_stirPart
    | with_reducible apply keeps_returnPages
    | split

theorem keeps_finishPauses {s0 : State} {s : State} (e : Entry) (status : BitVec 16) (hk : Keeps s0 s) : Keeps s0 (finishPauses s e status) := by
  unfold finishPauses
  try dsimp only
  repeat' first
    | exact hk
    | assumption
    | with_reducible apply keeps_finish
    | with_reducible refine Keeps.foldl (fun _ _ _ => ?_) ?_

theorem keeps_pauseNow {s0 : State} {s : State} (p : Nat) (i : Nat) (hk : Keeps s0 s) : Keeps s0 (pauseNow s p i) := by
  unfold pauseNow
  try dsimp only
  repeat' first
    | exact hk
    | assumption
    | with_reducible apply keeps_setEntryM
    | with_reducible apply keeps_returnPages
    | with_reducible apply keeps_sampleLeft
    | with_reducible apply keeps_finishPauses
    | split

theorem keeps_pauseQueued {s0 : State} {s : State} (p : Nat) (n : Nat) (hk : Keeps s0 s) : Keeps s0 (pauseQueued s p n) := by
  unfold pauseQueued
  try dsimp only
  repeat' first
    | exact hk
    | assumption
    | with_reducible apply keeps_pauseNow
    | with_reducible refine Keeps.foldl (fun _ _ _ => ?_) ?_
    | split

theorem keeps_composeOver {s0 s : State} (p n : Nat) (x : Part) (img : Image) (z : Frozen) (at_ : Nat) (hk : Keeps s0 s) : Keeps s0 (composeOver s p n x img z at_) := by
  unfold composeOver
  extract_lets wants rpt cap c0 c1 c2 marks s1 s2 s3
  have h1 : Keeps s0 c1.s := by
    have : ∀ (l : List (Nat × Nat × Nat)) (c : Comp), Keeps s0 c.s → Keeps s0 (l.foldl (placeHead img cap x) c).s := by
      intro l; induction l with
      | nil => exact fun _ h => h
      | cons a r ih => exact fun c h => ih _ (keeps_placeHead _ _ _ _ h)
    exact this _ _ hk
  have h2 : Keeps s0 c2.s := by
    have : ∀ (l : List Nat) (c : Comp), Keeps s0 c.s → Keeps s0 (l.foldl (placePrompt img cap x) c).s := by
      intro l; induction l with
      | nil => exact fun _ h => h
      | cons a r ih => exact fun c h => ih _ (keeps_placePrompt _ _ _ _ h)
    exact this _ _ h1
  have h3 : Keeps s0 s1 := keeps_modPart _ _ h2
  have h4 : Keeps s0 s2 := Keeps.foldl (fun _ _ h => keeps_modEntry _ _ h) h3
  refine .ite ?_ (keeps_modPart _ _ h4)
  have h5 : Keeps s0 s3 := keeps_partCtr _ _ _ (keeps_modPart _ _ h4)
  exact .ite (Keeps.foldl (fun _ _ h => keeps_preemptNow _ _ h) h5) h5

theorem keeps_freeze {s0 : State} {s : State} (p : Nat) (hk : Keeps s0 s) : Keeps s0 (freeze s p) := by
  unfold freeze
  try dsimp only
  repeat' first
    | exact hk
    | assumption
    | with_reducible apply keeps_setPart
    | with_reducible apply keeps_modPart
    | with_reducible apply keeps_promoteAll
    | with_reducible apply keeps_pauseQueued
    | split

theorem keeps_composeFrozen {s0 : State} {s : State} (p : Nat) (hk : Keeps s0 s) : Keeps s0 (composeFrozen s p) := by
  unfold composeFrozen
  try dsimp only
  repeat' first
    | exact hk
    | assumption
    | with_reducible apply keeps_composeOver
    | split

theorem keeps_compose {s0 : State} {s : State} (p : Nat) (hk : Keeps s0 s) : Keeps s0 (compose s p) := by
  unfold compose
  try dsimp only
  repeat' first
    | exact hk
    | assumption
    | with_reducible apply keeps_freeze
    | with_reducible apply keeps_composeFrozen

theorem keeps_idleLoop {s0 : State} (p k : Nat) : ∀ {s : State}, Keeps s0 s → Keeps s0 (idleLoop k s p) := by
  induction k with
  | zero => exact fun h => h
  | succ k ih =>
    intro s hk
    unfold idleLoop
    split
    · exact hk
    · split
      · exact ih (keeps_compose _ hk)
      · exact hk

theorem keeps_idleCompose {s0 s : State} (p : Nat) (hk : Keeps s0 s) : Keeps s0 (idleCompose s p) := keeps_idleLoop p _ hk

theorem keeps_undoOne {s0 : State} {s : State} (full : Bool) (p : Nat) (u : Undo) (hk : Keeps s0 s) : Keeps s0 (undoOne full p s u) := by
  unfold undoOne
  try dsimp only
  repeat' first
    | exact hk
    | assumption
    | with_reducible apply keeps_modPart
    | with_reducible apply keeps_setEntryM
    | split

theorem keeps_undoNext {s0 : State} {s : State} (p : Nat) (full : Bool) (hk : Keeps s0 s) : Keeps s0 (undoNext s p full) := by
  unfold undoNext
  try dsimp only
  repeat' first
    | exact hk
    | assumption
    | with_reducible apply keeps_modPart
    | with_reducible apply keeps_modEntry
    | with_reducible apply keeps_undoOne
    | with_reducible refine Keeps.foldl (fun _ _ _ => ?_) ?_
    | split

theorem keeps_discardNext {s0 : State} {s : State} (p : Nat) (hk : Keeps s0 s) : Keeps s0 (discardNext s p) := by
  unfold discardNext
  try dsimp only
  repeat' first
    | exact hk
    | assumption
    | with_reducible apply keeps_undoNext

theorem keeps_dropDead {s0 : State} {s : State} (p : Nat) (hk : Keeps s0 s) : Keeps s0 (dropDead s p) := by
  unfold dropDead
  try dsimp only
  repeat' first
    | exact hk
    | assumption
    | with_reducible apply keeps_stirPart
    | with_reducible apply keeps_discardNext
    | split

theorem keeps_recomposeWithout {s0 : State} {s : State} (p : Nat) (i : Nat) (fail : State → State) (h_fail : ∀ s, Keeps s0 s → Keeps s0 (fail s)) (hk : Keeps s0 s) : Keeps s0 (recomposeWithout s p i fail) := by
  unfold recomposeWithout
  try dsimp only
  repeat' first
    | exact hk
    | assumption
    | with_reducible apply keeps_composeOver
    | with_reducible apply keeps_idleCompose
    | with_reducible apply keeps_undoNext
    | apply h_fail
    | split

theorem keeps_domainsUp {s0 : State} {s : State} (l : List Nat) (hk : Keeps s0 s) : Keeps s0 (domainsUp s l) := by
  unfold domainsUp
  try dsimp only
  repeat' first
    | exact hk
    | assumption
    | with_reducible apply keeps_modTiles
    | split

theorem keeps_settleDomains {s0 : State} {s : State} (hk : Keeps s0 s) : Keeps s0 (settleDomains s) := by
  unfold settleDomains
  try dsimp only
  repeat' first
    | exact hk
    | assumption
    | with_reducible apply keeps_domainsUp
    | with_reducible refine Keeps.foldl (fun _ _ _ => ?_) ?_
    | split
    | with_reducible refine Keeps.mk_ ?_

theorem keeps_writeRows {s0 : State} {s : State} (st : Steep) (l : List (Nat × RowEntry)) (hk : Keeps s0 s) : Keeps s0 (writeRows s st l) := by
  unfold writeRows
  try dsimp only
  repeat' first
    | exact hk
    | assumption
    | with_reducible apply keeps_modTile
    | with_reducible refine Keeps.foldl (fun _ _ _ => ?_) ?_

theorem keeps_writeRowMaps {s0 : State} {s : State} (_p : Nat) (st : Steep) (hk : Keeps s0 s) : Keeps s0 (writeRowMaps s _p st) := by
  unfold writeRowMaps
  try dsimp only
  repeat' first
    | exact hk
    | assumption
    | with_reducible apply keeps_writeRows

theorem keeps_headFlags {s0 : State} {s : State} (p : Nat) (st : Steep) (src : SigSrc) (hk : Keeps s0 s) : Keeps s0 (headFlags s p st src) := by
  unfold headFlags
  try dsimp only
  repeat' first
    | exact hk
    | assumption
    | with_reducible apply keeps_modTiles
    | split
    | with_reducible refine Keeps.mk_ ?_

theorem keeps_putRows {s0 : State} {s : State} (st : Steep) (l : List (Nat × List Byte)) (hk : Keeps s0 s) : Keeps s0 (putRows s st l) := by
  unfold putRows
  try dsimp only
  repeat' first
    | exact hk
    | assumption
    | with_reducible apply keeps_modTile
    | with_reducible refine Keeps.foldl (fun _ _ _ => ?_) ?_

theorem keeps_giveUpRows {s0 : State} {s : State} (p : Nat) (i : Nat) (hk : Keeps s0 s) : Keeps s0 (giveUpRows s p i) := by
  unfold giveUpRows
  try dsimp only
  repeat' first
    | exact hk
    | assumption
    | with_reducible apply keeps_setPart
    | with_reducible apply keeps_headFlags
    | with_reducible apply keeps_putRows
    | split

theorem keeps_dropPours {s0 : State} {s : State} (p : Nat) (i : Nat) (hk : Keeps s0 s) : Keeps s0 (dropPours s p i) := by
  unfold dropPours
  try dsimp only
  repeat' first
    | exact hk
    | assumption
    | with_reducible apply keeps_modPart

theorem keeps_orphanFlights {s0 : State} {s : State} (p : Nat) (i : Nat) (e : Entry) (hk : Keeps s0 s) : Keeps s0 (orphanFlights s p i e).1 := by
  unfold orphanFlights
  try dsimp only
  repeat' first
    | exact hk
    | assumption
    | with_reducible apply keeps_setPart
    | split
theorem keeps_orphanFlights_eq {s0 s1 : State} {n1 : Bool} {s : State} {p : Nat} {i : Nat} {e : Entry}  (he : orphanFlights s p i e = (s1, n1)) (hk : Keeps s0 s) : Keeps s0 s1 := by
  have k := keeps_orphanFlights (s0 := s0) p i e  hk
  rw [he] at k
  exact k

theorem keeps_seatWaiting {s0 : State} {s : State} (hk : Keeps s0 s) : Keeps s0 (seatWaiting s) := by
  unfold seatWaiting
  try dsimp only
  repeat' first
    | exact hk
    | assumption
    | with_reducible apply keeps_setEntryM
    | with_reducible apply keeps_stirPart
    | split
    | with_reducible refine Keeps.mk_ ?_

theorem keeps_settlePins {s0 : State} {s : State} (n : Nat) (hk : Keeps s0 s) : Keeps s0 (settlePins s n) := by
  unfold settlePins
  try dsimp only
  repeat' first
    | exact hk
    | assumption
    | with_reducible apply keeps_setPart
    | with_reducible apply keeps_mirror
    | with_reducible refine Keeps.foldl (fun _ _ _ => ?_) ?_
    | split

theorem keeps_freeEntryAt {s0 : State} {s : State} (i : Nat) (hk : Keeps s0 s) : Keeps s0 (freeEntryAt s i) := by
  unfold freeEntryAt
  try dsimp only
  repeat' first
    | exact hk
    | assumption
    | with_reducible apply keeps_mirror
    | with_reducible apply keeps_seatWaiting
    | with_reducible apply keeps_settlePins
    | split
    | with_reducible refine Keeps.mk_ ?_

theorem keeps_idleAll {s0 : State} {s : State} (hk : Keeps s0 s) : Keeps s0 (idleAll s) := by
  unfold idleAll
  try dsimp only
  repeat' first
    | exact hk
    | assumption
    | with_reducible apply keeps_idleCompose
    | with_reducible refine Keeps.foldl (fun _ _ _ => ?_) ?_

theorem keeps_killNext {s0 : State} {s : State} (p : Nat) (i : Nat) (hk : Keeps s0 s) : Keeps s0 (killNext s p i) := by
  unfold killNext
  try dsimp only
  repeat' first
    | exact hk
    | assumption
    | with_reducible apply keeps_modPart
    | with_reducible apply keeps_dropDead
    | with_reducible apply keeps_writeRowMaps
    | split

theorem keeps_postCancelled {s0 : State} {s : State} (e : Entry) (hk : Keeps s0 s) : Keeps s0 (postCancelled s e) := by
  unfold postCancelled
  try dsimp only
  repeat' first
    | exact hk
    | assumption
    | with_reducible apply keeps_postReq
    | split

theorem keeps_applyCancel {s0 : State} {s : State} (p : Nat) (i : Nat) (hk : Keeps s0 s) : Keeps s0 (applyCancel s p i) := by
  unfold applyCancel
  try dsimp only
  repeat' first
    | exact hk
    | assumption
    | with_reducible apply keeps_modPart
    | with_reducible apply keeps_returnPages
    | with_reducible apply keeps_settleLent
    | with_reducible apply keeps_finishPauses
    | with_reducible apply keeps_dropPours
    | with_reducible apply keeps_orphanFlights
    | with_reducible apply keeps_freeEntryAt
    | with_reducible apply keeps_killNext
    | with_reducible apply keeps_postCancelled
    | refine keeps_orphanFlights_eq (by assumption) ?_
    | split

theorem keeps_failRequest {s0 : State} {s : State} (i : Nat) (status : BitVec 16) (pours : Bool) (hk : Keeps s0 s) : Keeps s0 (failRequest s i status pours) := by
  unfold failRequest
  try dsimp only
  repeat' first
    | exact hk
    | assumption
    | with_reducible apply keeps_modPart
    | with_reducible apply keeps_setEntryM
    | with_reducible apply keeps_postReq
    | with_reducible apply keeps_sampleLeft
    | with_reducible apply keeps_finishPauses
    | with_reducible apply keeps_dropPours
    | with_reducible apply keeps_orphanFlights
    | with_reducible apply keeps_killNext
    | refine keeps_orphanFlights_eq (by assumption) ?_
    | split

theorem keeps_chargeEntry {s0 : State} {s : State} (i : Nat) (hk : Keeps s0 s) : Keeps s0 (chargeEntry s i) := by
  unfold chargeEntry
  try dsimp only
  repeat' first
    | exact hk
    | assumption
    | with_reducible apply keeps_setEntryM
    | with_reducible apply keeps_failRequest
    | split

theorem keeps_chargeImage {s0 : State} {s : State} (p : Nat) (hk : Keeps s0 s) : Keeps s0 (chargeImage s p) := by
  unfold chargeImage
  try dsimp only
  repeat' first
    | exact hk
    | assumption
    | with_reducible apply keeps_setPart
    | with_reducible apply keeps_failRequest
    | with_reducible refine Keeps.foldl (fun _ _ _ => ?_) ?_
    | split

theorem keeps_applyCharge {s0 s : State} (p : Nat) (c : Charge) (hk : Keeps s0 s) : Keeps s0 (applyCharge s p c) := by
  cases c
  · exact hk
  · exact keeps_chargeImage _ hk
  · exact Keeps.foldl (fun _ _ h => keeps_chargeEntry _ h) hk

theorem keeps_settleRemote {s0 : State} {q : State × List (Nat × Nat)} (r : Remote) (hk : Keeps s0 q.1) : Keeps s0 (settleRemote q r).1 := by
  unfold settleRemote
  split
  · exact hk
  · extract_lets s1 y
    have h1 : Keeps s0 s1 := keeps_modTile _ _ hk
    split
    · exact h1
    · exact keeps_setTile _ _ h1

theorem keeps_settleRemotes {s0 s : State} (p : Nat) (hk : Keeps s0 s) : Keeps s0 (settleRemotes s p) := by
  have h := Keeps.foldlFst (s0 := s0) (l := s.remotes.filter (fun r => decide (r.part = p) && !r.read)) (fun _ r h => keeps_settleRemote r h) (s := (s, [])) hk
  exact Keeps.mk_ h

theorem keeps_abortRider {s0 : State} {s : State} (charged : List Nat) (p : Nat) (i : Nat) (hk : Keeps s0 s) : Keeps s0 (abortRider charged s p i) := by
  unfold abortRider
  try dsimp only
  repeat' first
    | exact hk
    | assumption
    | with_reducible apply keeps_setEntryM
    | with_reducible apply keeps_postEvent
    | with_reducible apply keeps_stirPart
    | with_reducible apply keeps_returnPages
    | with_reducible apply keeps_sampleLeft
    | split

theorem keeps_settleIdle {s0 : State} {s : State} (p : Nat) (hk : Keeps s0 s) : Keeps s0 (settleIdle s p) := by
  unfold settleIdle
  try dsimp only
  repeat' first
    | exact hk
    | assumption
    | with_reducible apply keeps_pauseNow
    | with_reducible apply keeps_applyCancel
    | with_reducible refine Keeps.foldl (fun _ _ _ => ?_) ?_
    | split

theorem keeps_freeGroup {s0 : State} {s : State} (g : Nat) (q : Group) (hk : Keeps s0 s) : Keeps s0 (freeGroup s g q) := by
  unfold freeGroup
  try dsimp only
  repeat' first
    | exact hk
    | assumption
    | with_reducible apply keeps_emit
    | with_reducible apply keeps_finish
    | split
    | with_reducible refine Keeps.mk_ ?_

theorem keeps_settleGroups {s0 : State} {s : State} (p : Nat) (hk : Keeps s0 s) : Keeps s0 (settleGroups s p) := by
  unfold settleGroups
  try dsimp only
  repeat' first
    | exact hk
    | assumption
    | with_reducible apply keeps_freeGroup
    | with_reducible refine Keeps.foldl (fun _ _ _ => ?_) ?_

theorem keeps_abortHere {s0 : State} {s : State} (p : Nat) (ch : Charge) (hk : Keeps s0 s) : Keeps s0 (abortHere s p ch) := by
  unfold abortHere
  try dsimp only
  repeat' first
    | exact hk
    | assumption
    | with_reducible apply keeps_setPart
    | with_reducible apply keeps_modPart
    | with_reducible apply keeps_modTiles
    | with_reducible apply keeps_modEntry
    | with_reducible apply keeps_idleCompose
    | with_reducible apply keeps_discardNext
    | with_reducible apply keeps_settleRemotes
    | with_reducible apply keeps_abortRider
    | with_reducible apply keeps_settleIdle
    | with_reducible apply keeps_settleGroups
    | with_reducible apply keeps_applyCharge
    | with_reducible refine Keeps.foldl (fun _ _ _ => ?_) ?_
    | split
    | with_reducible refine Keeps.mk_ ?_

theorem keeps_tellAbort {s0 : State} {s : State} (p : Nat) (ch : Charge) (hk : Keeps s0 s) : Keeps s0 (tellAbort s p ch) := by
  unfold tellAbort
  try dsimp only
  repeat' first
    | exact hk
    | assumption
    | with_reducible apply keeps_emit
    | with_reducible apply keeps_emits
    | split

theorem keeps_abortSteep {s0 : State} {s : State} (p : Nat) (ch : Charge) (hk : Keeps s0 s) : Keeps s0 (abortSteep s p ch) := by
  unfold abortSteep
  try dsimp only
  repeat' first
    | exact hk
    | assumption
    | with_reducible apply keeps_abortHere
    | with_reducible apply keeps_tellAbort

theorem keeps_takeException {s0 : State} {s : State} (t : Nat) (c : Nat) (code : Nat) (opcode : Nat) (pc : Nat) (kind : Nat) (value : Nat) (rows : Rows) (hk : Keeps s0 s) : Keeps s0 (takeException s t c code opcode pc kind value rows) := by
  unfold takeException
  try dsimp only
  repeat' first
    | exact hk
    | assumption
    | with_reducible apply keeps_modTile
    | with_reducible apply keeps_abortSteep
    | split

theorem keeps_loadPrograms {s0 : State} {s : State} (p : Nat) (hk : Keeps s0 s) : Keeps s0 (loadPrograms s p) := by
  unfold loadPrograms
  try dsimp only
  repeat' first
    | exact hk
    | assumption
    | with_reducible apply keeps_modTile
    | with_reducible refine Keeps.foldl (fun _ _ _ => ?_) ?_
    | split

theorem keeps_spareTest {s0 : State} {s : State} (t : Nat) (hk : Keeps s0 s) : Keeps s0 (spareTest s t).2 := by
  unfold spareTest
  try dsimp only
  repeat' first
    | exact hk
    | assumption
    | with_reducible apply keeps_takeFree
    | refine keeps_takeFree_eq (by assumption) ?_
    | split
    | with_reducible refine Keeps.mk_ ?_
theorem keeps_spareTest_eq {s0 s1 : State} {n1 : Bool} {s : State} {t : Nat}  (he : spareTest s t = (n1, s1)) (hk : Keeps s0 s) : Keeps s0 s1 := by
  have k := keeps_spareTest (s0 := s0) t  hk
  rw [he] at k
  exact k

theorem keeps_mapSpare {s0 : State} {s : State} (t : Nat) (hk : Keeps s0 s) : Keeps s0 (mapSpare s t) := by
  unfold mapSpare
  try dsimp only
  repeat' first
    | exact hk
    | assumption
    | with_reducible apply keeps_modTile
    | split
    | with_reducible refine Keeps.mk_ ?_

theorem keeps_tileFault {s0 : State} {s : State} (t : Nat) (cause : BitVec 8) (loc : Option (BitVec 8 × BitVec 12)) (shape : Nat) (hk : Keeps s0 s) : Keeps s0 (tileFault s t cause loc shape) := by
  unfold tileFault
  try dsimp only
  repeat' first
    | exact hk
    | assumption
    | with_reducible apply keeps_modTile
    | with_reducible apply keeps_modPart
    | with_reducible apply keeps_faultLog
    | with_reducible apply keeps_abortSteep
    | with_reducible apply keeps_spareTest
    | with_reducible apply keeps_mapSpare
    | refine keeps_spareTest_eq (by assumption) ?_
    | split

theorem keeps_haltWork {s0 : State} {s : State} (hk : Keeps s0 s) : Keeps s0 (haltWork s) := by
  unfold haltWork
  try dsimp only
  repeat' first
    | exact hk
    | assumption
    | with_reducible refine Keeps.mk_ ?_

theorem keeps_moduleStop {s0 : State} {s : State} (code : BitVec 8) (hk : Keeps s0 s) : Keeps s0 (moduleStop s code) := by
  unfold moduleStop
  try dsimp only
  repeat' first
    | exact hk
    | assumption
    | with_reducible apply keeps_faultLog
    | with_reducible apply keeps_haltWork
    | with_reducible refine Keeps.mk_ ?_

theorem keeps_tripModule {s0 : State} {s : State} (code : BitVec 8) (hk : Keeps s0 s) : Keeps s0 (tripModule s code) := by
  unfold tripModule
  try dsimp only
  repeat' first
    | exact hk
    | assumption
    | with_reducible apply keeps_moduleStop
    | split

theorem keeps_spadFault {s0 : State} {s : State} (t : Nat) (w : Nat) (shape : Nat) (hk : Keeps s0 s) : Keeps s0 (spadFault s t w shape) := by
  unfold spadFault
  try dsimp only
  repeat' first
    | exact hk
    | assumption
    | with_reducible apply keeps_modTile
    | with_reducible apply keeps_tileFault

theorem keeps_addDone {s0 s : State} (t c : Nat) (d : Option Nat) (hk : Keeps s0 s) : Keeps s0 (addDone s t c d) := by
  cases d
  · exact hk
  · unfold addDone
    exact .ite (Keeps.mk_ hk) (keeps_modTile _ _ hk)

theorem keeps_fetched {s0 : State} {s : State} (t : Nat) (c : Nat) (hk : Keeps s0 s) : Keeps s0 (fetched s t c) := by
  unfold fetched
  try dsimp only
  repeat' first
    | exact hk
    | assumption
    | with_reducible apply keeps_modTile
    | split

theorem keeps_Iss_accept {s0 : State} {i : Iss} (f : Ctx → Ctx) (g : Tile → Tile) (hk : Keeps s0 i.s) : Keeps s0 (Iss.accept i f g) := by
  unfold Iss.accept
  try dsimp only
  repeat' first
    | exact hk
    | assumption
    | with_reducible apply keeps_setTile

theorem keeps_syncAbort {s0 : State} {s : State} (p : Nat) (flag : Nat) (hk : Keeps s0 s) : Keeps s0 (syncAbort s p flag) := by
  unfold syncAbort
  try dsimp only
  repeat' first
    | exact hk
    | assumption
    | with_reducible apply keeps_modPart
    | with_reducible apply keeps_abortSteep

theorem keeps_arriveBarrier {s0 : State} {s : State} (p : Nat) (t : Nat) (c : Nat) (num : Nat) (hk : Keeps s0 s) : Keeps s0 (arriveBarrier s p t c num) := by
  unfold arriveBarrier
  try dsimp only
  repeat' first
    | exact hk
    | assumption
    | with_reducible apply keeps_modTile
    | with_reducible apply keeps_modPart

theorem keeps_matAccept {s0 : State} {i : Iss} (hk : Keeps s0 i.s) : Keeps s0 (matAccept i) := by
  unfold matAccept
  try dsimp only
  repeat' first
    | exact hk
    | assumption
    | with_reducible apply keeps_Iss_accept
    | split
    | with_reducible refine Keeps.mk_ ?_

theorem keeps_nextEntry {s0 : State} {s : State} (t : Nat) (m : MatOp) (hk : Keeps s0 s) : Keeps s0 (nextEntry s t m) := by
  unfold nextEntry
  try dsimp only
  repeat' first
    | exact hk
    | assumption
    | with_reducible apply keeps_setTile
    | with_reducible apply keeps_takeException
    | with_reducible apply keeps_spadFault
    | split

theorem keeps_ringMove {s0 : State} {s : State} (ts : List Nat) (hk : Keeps s0 s) : Keeps s0 (ringMove s ts) := by
  unfold ringMove
  try dsimp only
  repeat' first
    | exact hk
    | assumption
    | with_reducible apply keeps_setTile
    | with_reducible refine Keeps.foldl (fun _ _ _ => ?_) ?_
    | split

theorem keeps_remoteReady {s0 : State} {s : State} (t : Nat) (part : Part) (d : DrainOp) (hk : Keeps s0 s) : Keeps s0 (remoteReady s t part d).1 := by
  unfold remoteReady
  try dsimp only
  repeat' first
    | exact hk
    | assumption
    | with_reducible apply keeps_modTile
    | split
theorem keeps_remoteReady_eq {s0 s1 : State} {n1 : Bool} {s : State} {t : Nat} {part : Part} {d : DrainOp}  (he : remoteReady s t part d = (s1, n1)) (hk : Keeps s0 s) : Keeps s0 s1 := by
  have k := keeps_remoteReady (s0 := s0) t part d  hk
  rw [he] at k
  exact k

theorem keeps_sendRows {s0 : State} {s : State} (t : Nat) (p : Nat) (part : Part) (z : Slot) (d : DrainOp) (rows : List RowOut) (hk : Keeps s0 s) : Keeps s0 (sendRows s t p part z d rows) := by
  unfold sendRows
  try dsimp only
  repeat' first
    | exact hk
    | assumption
    | split
    | with_reducible refine Keeps.mk_ ?_

theorem keeps_vecAccept {s0 : State} {i : Iss} (hk : Keeps s0 i.s) : Keeps s0 (vecAccept i) := by
  unfold vecAccept
  try dsimp only
  repeat' first
    | exact hk
    | assumption
    | with_reducible apply keeps_Iss_accept
    | split
    | with_reducible refine Keeps.mk_ ?_

theorem keeps_losePackage {s0 : State} {s : State} (k : Nat) (hk : Keeps s0 s) : Keeps s0 (losePackage s k) := by
  unfold losePackage
  try dsimp only
  repeat' first
    | exact hk
    | assumption
    | with_reducible apply keeps_faultLog
    | with_reducible apply keeps_tripModule
    | split
    | with_reducible refine Keeps.mk_ ?_

theorem keeps_reportGranule {s0 : State} {s : State} (k : Nat) (hk : Keeps s0 s) : Keeps s0 (reportGranule s k) := by
  unfold reportGranule
  try dsimp only
  repeat' first
    | exact hk
    | assumption
    | with_reducible apply keeps_losePackage
    | split
    | with_reducible refine Keeps.mk_ ?_

theorem keeps_reportRead {s0 : State} {s : State} (l : List Nat) (hk : Keeps s0 s) : Keeps s0 (reportRead s l) := by
  unfold reportRead
  try dsimp only
  repeat' first
    | exact hk
    | assumption
    | with_reducible apply keeps_tripModule
    | with_reducible apply keeps_reportGranule
    | with_reducible refine Keeps.foldl (fun _ _ _ => ?_) ?_
    | split

theorem keeps_chargeCredit {s0 : State} {s : State} (p : Nat) (c : RegClass) (bytes : Nat) (hk : Keeps s0 s) : Keeps s0 (chargeCredit s p c bytes) := by
  unfold chargeCredit
  try dsimp only
  repeat' first
    | exact hk
    | assumption
    | with_reducible apply keeps_modPart
    | split
    | with_reducible refine Keeps.mk_ ?_

theorem keeps_chargePaced {s0 : State} {s : State} (p : Nat) (bytes : Nat) (hk : Keeps s0 s) : Keeps s0 (chargePaced s p bytes) := by
  unfold chargePaced
  try dsimp only
  repeat' first
    | exact hk
    | assumption
    | with_reducible apply keeps_modPart

theorem keeps_waitCredit {s0 s : State} (p : Nat) (c : RegClass) (hk : Keeps s0 s) : Keeps s0 (waitCredit s p c) := by
  cases c
  · exact keeps_modPart _ _ hk
  · exact keeps_modPart _ _ hk
  · exact keeps_modPart _ _ hk
  · exact hk

theorem keeps_caddyRead {s0 : State} {s : State} (p : Nat) (cls : RegClass) (alloc : Bool) (l : List (Nat × Nat)) (hk : Keeps s0 s) : Keeps s0 (caddyRead s p cls alloc l) := by
  unfold caddyRead
  try dsimp only
  repeat' first
    | exact hk
    | assumption
    | with_reducible apply keeps_modPart
    | with_reducible apply keeps_chargeCredit
    | with_reducible refine Keeps.foldl (fun _ _ _ => ?_) ?_
    | split
    | with_reducible refine Keeps.mk_ ?_

theorem keeps_memWrite {s0 : State} {s : State} (p : Nat) (cls : RegClass) (alloc : Bool) (l : List (Nat × Nat)) (b : List (Option Byte)) (hk : Keeps s0 s) : Keeps s0 (memWrite s p cls alloc l b) := by
  unfold memWrite
  try dsimp only
  repeat' first
    | exact hk
    | assumption
    | with_reducible apply keeps_modPart
    | with_reducible apply keeps_chargeCredit
    | with_reducible refine Keeps.foldl (fun _ _ _ => ?_) ?_
    | split
    | with_reducible refine Keeps.mk_ ?_

theorem keeps_flushEntry {s0 : State} {s : State} (p : Nat) (e : MergeEntry) (hk : Keeps s0 s) : Keeps s0 (flushEntry s p e) := by
  unfold flushEntry
  try dsimp only
  repeat' first
    | exact hk
    | assumption
    | with_reducible apply keeps_memWrite

theorem keeps_flushMerge {s0 s : State} (p t : Nat) (f : MergeEntry → Bool) (hk : Keeps s0 s) : Keeps s0 (flushMerge s p t f) := by
  refine Keeps.foldl (fun s e h => ?_) hk
  split
  · exact keeps_flushEntry _ _ (keeps_modTile _ _ h)
  · exact keeps_waitCredit _ _ h

theorem keeps_mergeByte {s0 : State} {s : State} (t : Nat) (h : Nat) (a : Nat) (b : Byte) (hk : Keeps s0 s) : Keeps s0 (mergeByte s t h a b) := by
  unfold mergeByte
  try dsimp only
  repeat' first
    | exact hk
    | assumption
    | with_reducible apply keeps_modTile

theorem keeps_mergeRoom {s0 : State} {s : State} (p : Nat) (t : Nat) (g : List Nat) (hk : Keeps s0 s) : Keeps s0 (mergeRoom s p t g).1 := by
  unfold mergeRoom
  try dsimp only
  repeat' first
    | exact hk
    | assumption
    | with_reducible apply keeps_flushMerge
theorem keeps_mergeRoom_eq {s0 s1 : State} {n1 : Bool} {s : State} {p : Nat} {t : Nat} {g : List Nat}  (he : mergeRoom s p t g = (s1, n1)) (hk : Keeps s0 s) : Keeps s0 s1 := by
  have k := keeps_mergeRoom (s0 := s0) p t g  hk
  rw [he] at k
  exact k

theorem keeps_lightWrite {s0 : State} {s : State} (p : Nat) (t : Nat) (h : Nat) (a : Nat) (l : List (Option Byte)) (hk : Keeps s0 s) : Keeps s0 (lightWrite s p t h a l) := by
  unfold lightWrite
  try dsimp only
  repeat' first
    | exact hk
    | assumption
    | with_reducible apply keeps_flushMerge
    | with_reducible apply keeps_mergeByte
    | with_reducible refine Keeps.foldl (fun _ _ _ => ?_) ?_
    | split

theorem keeps_flushGranules {s0 : State} {s : State} (p : Nat) (t : Nat) (l : List (Nat × Nat)) (hk : Keeps s0 s) : Keeps s0 (flushGranules s p t l).1 := by
  unfold flushGranules
  try dsimp only
  repeat' first
    | exact hk
    | assumption
    | with_reducible apply keeps_flushMerge
theorem keeps_flushGranules_eq {s0 s1 : State} {n1 : Bool} {s : State} {p : Nat} {t : Nat} {l : List (Nat × Nat)}  (he : flushGranules s p t l = (s1, n1)) (hk : Keeps s0 s) : Keeps s0 s1 := by
  have k := keeps_flushGranules (s0 := s0) p t l  hk
  rw [he] at k
  exact k

theorem keeps_streamFault {s0 : State} {s : State} (t : Nat) (h : Nat) (cause : Nat) (space : Nat) (instr : Nat) (addr : Nat) (hk : Keeps s0 s) : Keeps s0 (streamFault s t h cause space instr addr) := by
  unfold streamFault
  try dsimp only
  repeat' first
    | exact hk
    | assumption
    | with_reducible apply keeps_takeException

theorem keeps_farOp {s0 : State} {s : State} (t : Nat) (h : Nat) (u : Nat) (o : Opnd) (hk : Keeps s0 s) : Keeps s0 (farOp s t h u o).1 := by
  unfold farOp
  try dsimp only
  repeat' first
    | exact hk
    | assumption
    | with_reducible apply keeps_modTile
    | split
theorem keeps_farOp_eq {s0 s1 : State} {n1 : Nat} {s : State} {t : Nat} {h : Nat} {u : Nat} {o : Opnd}  (he : farOp s t h u o = (s1, n1)) (hk : Keeps s0 s) : Keeps s0 s1 := by
  have k := keeps_farOp (s0 := s0) t h u o  hk
  rw [he] at k
  exact k

theorem keeps_handleSent {s0 : State} {s : State} (t : Nat) (h : Nat) (len : Nat) (n : Nat) (f : Handle → Handle) (hk : Keeps s0 s) : Keeps s0 (handleSent s t h len n f) := by
  unfold handleSent
  try dsimp only
  repeat' first
    | exact hk
    | assumption
    | with_reducible apply keeps_modTile

theorem keeps_xferTile {s0 : State} {s : State} (t : Nat) (p : Nat) (h : Nat) (u : Nat) (a : Nat) (hd : Handle) (w : BitVec 128) (hk : Keeps s0 s) : Keeps s0 (xferTile s t p h u a hd w) := by
  unfold xferTile
  try dsimp only
  repeat' first
    | exact hk
    | assumption
    | with_reducible apply keeps_modTile
    | with_reducible apply keeps_farOp
    | with_reducible apply keeps_handleSent
    | refine keeps_farOp_eq (by assumption) ?_
    | split
    | with_reducible refine Keeps.mk_ ?_

theorem keeps_writeRequest {s0 s : State} (t p h : Nat) (hd : Handle) (w : BitVec 128) (a n off : Nat) (hk : Keeps s0 s) : Keeps s0 (writeRequest s t p h hd w a n off).1 := by
  unfold writeRequest
  extract_lets len bulk x here data q s1
  have k1 : Keeps s0 q.1 := .iteFst (keeps_flushGranules _ _ _ hk) (keeps_mergeRoom _ _ _ hk)
  clear_value q
  exact .iteFst k1 (.iteFst (keeps_waitCredit p .wr k1) (keeps_handleSent t h len n _ (keeps_modTile _ _ (.ite (keeps_memWrite _ _ _ _ _ k1) (keeps_lightWrite _ _ _ _ _ k1)))))

theorem keeps_readRequest {s0 s : State} (t p h : Nat) (hd : Handle) (w : BitVec 128) (a n off : Nat) (hk : Keeps s0 s) : Keeps s0 (readRequest s t p h hd w a n off).1 := by
  unfold readRequest
  refine .iteFst hk ?_
  extract_lets q runs
  have k1 : Keeps s0 q.1 := keeps_flushGranules _ _ _ hk
  clear_value q
  refine .iteFst k1 (.iteFst (keeps_waitCredit p .rd k1) ?_)
  dsimp only
  exact keeps_handleSent _ _ _ _ _ (keeps_caddyRead _ _ _ _ k1)

theorem keeps_memRequest {s0 s : State} (t p h : Nat) (hd : Handle) (w : BitVec 128) (q : Nat × Nat × Nat) (hk : Keeps s0 s) : Keeps s0 (memRequest s t p h hd w q).1 :=
  .iteFst (keeps_writeRequest _ _ _ _ _ _ _ _ hk) (keeps_readRequest _ _ _ _ _ _ _ _ hk)

theorem keeps_memRequests {s0 : State} (t p h : Nat) (hd : Handle) (w : BitVec 128) (l : List (Nat × Nat × Nat)) : ∀ {s : State}, Keeps s0 s → Keeps s0 (memRequests t p h hd w s l) := by
  induction l with
  | nil => exact fun h => h
  | cons q r ih =>
    intro s hk
    unfold memRequests
    have h1 := keeps_memRequest t p h hd w q hk
    exact .ite (ih h1) h1

theorem keeps_surplusFault {s0 : State} {s : State} (t : Nat) (h : Nat) (hk : Keeps s0 s) : Keeps s0 (surplusFault s t h) := by
  unfold surplusFault
  try dsimp only
  repeat' first
    | exact hk
    | assumption
    | with_reducible apply keeps_streamFault
    | split

theorem keeps_loadProgram {s0 s : State} (t h : Nat) (hk : Keeps s0 s) : Keeps s0 (loadProgram s t h) := by
  unfold loadProgram
  extract_lets x h0 o
  split
  · exact keeps_spadFault _ _ _ hk
  · split
    · exact keeps_streamFault _ _ _ _ _ _ hk
    · exact keeps_setTile _ _ hk

theorem keeps_endHandle {s0 : State} {s : State} (t : Nat) (h : Nat) (hk : Keeps s0 s) : Keeps s0 (endHandle s t h) := by
  unfold endHandle
  try dsimp only
  repeat' first
    | exact hk
    | assumption
    | with_reducible apply keeps_modTile
    | with_reducible refine Keeps.foldl (fun _ _ _ => ?_) ?_

theorem keeps_queueJobs {s0 : State} {s : State} (p : Nat) (f : ReqFields) (l : List PourJob) (hk : Keeps s0 s) : Keeps s0 (queueJobs s p f l) := by
  unfold queueJobs
  try dsimp only
  repeat' first
    | exact hk
    | assumption
    | with_reducible apply keeps_modPart

theorem keeps_postFinal {s0 : State} {s : State} (e : Entry) (result : BitVec 128) (hk : Keeps s0 s) : Keeps s0 (postFinal s e result) := by
  unfold postFinal
  try dsimp only
  repeat' first
    | exact hk
    | assumption
    | with_reducible apply keeps_partCtr
    | with_reducible apply keeps_postReq
    | split

theorem keeps_doneNow {s0 : State} {s : State} (i : Nat) (e : Entry) (result : BitVec 128) (keepPages : Bool) (hk : Keeps s0 s) : Keeps s0 (doneNow s i e result keepPages) := by
  unfold doneNow
  try dsimp only
  repeat' first
    | exact hk
    | assumption
    | with_reducible apply keeps_setEntryM
    | with_reducible apply keeps_returnPages
    | with_reducible apply keeps_finishPauses
    | with_reducible apply keeps_idleCompose
    | with_reducible apply keeps_postFinal
    | split

theorem keeps_tryDone {s0 : State} {s : State} (i : Nat) (hk : Keeps s0 s) : Keeps s0 (tryDone s i) := by
  unfold tryDone
  try dsimp only
  repeat' first
    | exact hk
    | assumption
    | with_reducible apply keeps_doneNow
    | split

theorem keeps_pinDone {s0 : State} {s : State} (p : Nat) (i : Nat) (hk : Keeps s0 s) : Keeps s0 (pinDone s p i) := by
  unfold pinDone
  try dsimp only
  repeat' first
    | exact hk
    | assumption
    | with_reducible apply keeps_setPart
    | with_reducible apply keeps_mirror
    | with_reducible apply keeps_doneNow
    | split

theorem keeps_advanceRider {s0 s : State} (p : Nat) (img : Image) (st : Steep) (r : Placement) (hk : Keeps s0 s) : Keeps s0 (advanceRider s p img st r) := by
  unfold advanceRider
  split
  · extract_lets e hi lo last cl wait u ends jobs outs new stNew s1 e1 e2 s2
    refine .ite hk (.ite (.ite (keeps_setEntryM _ _ hk) hk) (.ite hk ?_))
    have h1 : Keeps s0 s1 := .ite (keeps_finishPauses _ _ hk) hk
    have h2 : Keeps s0 s2 := keeps_setEntryM _ _ h1
    exact .ite (.ite (keeps_pinDone _ _ h2) h2) (keeps_tryDone _ (.ite (keeps_queueJobs _ _ _ h2) h2))
  · exact hk

theorem keeps_settleAt {s0 : State} {s : State} (p : Nat) (n : Nat) (hk : Keeps s0 s) : Keeps s0 (settleAt s p n) := by
  unfold settleAt
  try dsimp only
  repeat' first
    | exact hk
    | assumption
    | with_reducible apply keeps_modEntry
    | with_reducible apply keeps_preemptNow
    | with_reducible apply keeps_pauseNow
    | with_reducible refine Keeps.foldl (fun _ _ _ => ?_) ?_
    | split

theorem keeps_settleMarks {s0 : State} {s : State} (p : Nat) (l : List Nat) (hk : Keeps s0 s) : Keeps s0 (settleMarks s p l) := by
  unfold settleMarks
  try dsimp only
  repeat' first
    | exact hk
    | assumption
    | with_reducible apply keeps_preemptNow
    | with_reducible refine Keeps.foldl (fun _ _ _ => ?_) ?_
    | split

theorem keeps_replaceSlow {s0 : State} {s : State} (p : Nat) (t : Nat) (hk : Keeps s0 s) : Keeps s0 (replaceSlow s p t) := by
  unfold replaceSlow
  try dsimp only
  repeat' first
    | exact hk
    | assumption
    | with_reducible apply keeps_modPart
    | with_reducible apply keeps_faultLog
    | with_reducible apply keeps_writeRowMaps
    | with_reducible apply keeps_spareTest
    | with_reducible apply keeps_mapSpare
    | refine keeps_spareTest_eq (by assumption) ?_
    | split

theorem keeps_slowRule {s0 : State} {s : State} (p : Nat) (hk : Keeps s0 s) : Keeps s0 (slowRule s p) := by
  unfold slowRule
  try dsimp only
  repeat' first
    | exact hk
    | assumption
    | with_reducible apply keeps_setPart
    | with_reducible apply keeps_replaceSlow
    | with_reducible refine Keeps.foldl (fun _ _ _ => ?_) ?_
    | split

theorem keeps_boundary {s0 : State} {s : State} (p : Nat) (x : Part) (img : Image) (st : Steep) (hk : Keeps s0 s) : Keeps s0 (boundary s p x img st) := by
  unfold boundary
  try dsimp only
  repeat' first
    | exact hk
    | assumption
    | with_reducible apply keeps_setPart
    | with_reducible apply keeps_dropDead
    | with_reducible apply keeps_idleAll
    | with_reducible apply keeps_applyCancel
    | with_reducible apply keeps_settleGroups
    | with_reducible apply keeps_advanceRider
    | with_reducible apply keeps_settleAt
    | with_reducible apply keeps_slowRule
    | with_reducible refine Keeps.foldl (fun _ _ _ => ?_) ?_
    | split

theorem keeps_compositionPoint {s0 : State} {s : State} (p : Nat) (hk : Keeps s0 s) : Keeps s0 (compositionPoint s p) := by
  unfold compositionPoint
  try dsimp only
  repeat' first
    | exact hk
    | assumption
    | with_reducible apply keeps_setPart
    | with_reducible apply keeps_emit
    | with_reducible apply keeps_freeze
    | with_reducible apply keeps_composeFrozen
    | with_reducible apply keeps_compose
    | split

theorem keeps_releaseSteep {s0 : State} {s : State} (p : Nat) (hk : Keeps s0 s) : Keeps s0 (releaseSteep s p) := by
  unfold releaseSteep
  try dsimp only
  repeat' first
    | exact hk
    | assumption
    | with_reducible apply keeps_modTile
    | with_reducible apply keeps_setPart
    | with_reducible apply keeps_modPart
    | with_reducible apply keeps_emit
    | with_reducible apply keeps_modEntryM
    | with_reducible apply keeps_settleDomains
    | with_reducible apply keeps_headFlags
    | with_reducible apply keeps_compositionPoint
    | with_reducible refine Keeps.foldl (fun _ _ _ => ?_) ?_
    | split

theorem keeps_loseNewt {s0 : State} {s : State} (n : Nat) (hk : Keeps s0 s) : Keeps s0 (loseNewt s n) := by
  unfold loseNewt
  try dsimp only
  repeat' first
    | exact hk
    | assumption
    | with_reducible apply keeps_faultLog
    | with_reducible apply keeps_modEntry
    | with_reducible apply keeps_moduleStop
    | with_reducible refine Keeps.foldl (fun _ _ _ => ?_) ?_
    | split
    | with_reducible refine Keeps.mk_ ?_

theorem keeps_endHead {s0 : State} {s : State} (p : Nat) (i : Nat) (hk : Keeps s0 s) : Keeps s0 (endHead s p i) := by
  unfold endHead
  try dsimp only
  repeat' first
    | exact hk
    | assumption
    | with_reducible apply keeps_setEntryM
    | with_reducible apply keeps_modWaiting
    | with_reducible apply keeps_giveUpRows
    | with_reducible apply keeps_killNext
    | with_reducible apply keeps_queueJobs
    | with_reducible apply keeps_tryDone
    | split

theorem keeps_sampleTokens {s0 : State} {s : State} (p : Nat) (i : Nat) (e : Entry) (img : Image) (rest : List Sample) (logits : List (List Word32)) (round : Bool) (hk : Keeps s0 s) : Keeps s0 (sampleTokens s p i e img rest logits round) := by
  unfold sampleTokens
  try dsimp only
  repeat' first
    | exact hk
    | assumption
    | with_reducible apply keeps_iodCtr
    | with_reducible apply keeps_setEntryM
    | with_reducible apply keeps_stirPart
    | with_reducible apply keeps_modWaiting
    | with_reducible apply keeps_idleCompose
    | with_reducible apply keeps_endHead
    | split

theorem keeps_sampleRows {s0 : State} {s : State} (i : Nat) (e : Entry) (img : Image) (rest : List Sample) (pos : Nat) (score : Bool) (logits : List (List Word32)) (hk : Keeps s0 s) : Keeps s0 (sampleRows s i e img rest pos score logits) := by
  unfold sampleRows
  try dsimp only
  repeat' first
    | exact hk
    | assumption
    | with_reducible apply keeps_setEntryM

theorem keeps_admitRequest {s0 : State} {s : State} (i : Nat) (f : ReqFields) (hk : Keeps s0 s) : Keeps s0 (admitRequest s i f) := by
  unfold admitRequest
  try dsimp only
  repeat' first
    | exact hk
    | assumption
    | with_reducible apply keeps_setEntryM
    | with_reducible apply keeps_postReq
    | with_reducible apply keeps_stirPart
    | with_reducible apply keeps_idleCompose

theorem keeps_doSubmit {s0 : State} {s : State} (ring : Nat) (p : Packet) (hk : Keeps s0 s) : Keeps s0 (doSubmit s ring p) := by
  unfold doSubmit
  try dsimp only
  repeat' first
    | exact hk
    | assumption
    | with_reducible apply keeps_finish
    | with_reducible apply keeps_badParam
    | with_reducible apply keeps_notPermitted
    | with_reducible apply keeps_admitRequest
    | split

theorem keeps_doCancel {s0 : State} {s : State} (ring : Nat) (p : Packet) (hk : Keeps s0 s) : Keeps s0 (doCancel s ring p) := by
  unfold doCancel
  try dsimp only
  repeat' first
    | exact hk
    | assumption
    | with_reducible apply keeps_finish
    | with_reducible apply keeps_badParam
    | with_reducible apply keeps_notPermitted
    | with_reducible apply keeps_setEntryM
    | with_reducible apply keeps_postReq
    | with_reducible apply keeps_settleLent
    | with_reducible apply keeps_dropPours
    | with_reducible apply keeps_orphanFlights
    | with_reducible apply keeps_freeEntryAt
    | with_reducible apply keeps_idleAll
    | with_reducible apply keeps_applyCancel
    | refine keeps_orphanFlights_eq (by assumption) ?_
    | split
    | with_reducible refine Keeps.mk_ ?_

theorem keeps_doPause {s0 : State} {s : State} (ring : Nat) (p : Packet) (hk : Keeps s0 s) : Keeps s0 (doPause s ring p) := by
  unfold doPause
  try dsimp only
  repeat' first
    | exact hk
    | assumption
    | with_reducible apply keeps_finish
    | with_reducible apply keeps_badParam
    | with_reducible apply keeps_notPermitted
    | with_reducible apply keeps_setEntry
    | with_reducible apply keeps_pauseNow
    | split
    | with_reducible refine Keeps.mk_ ?_

theorem keeps_doResume {s0 : State} {s : State} (ring : Nat) (p : Packet) (hk : Keeps s0 s) : Keeps s0 (doResume s ring p) := by
  unfold doResume
  try dsimp only
  repeat' first
    | exact hk
    | assumption
    | with_reducible apply keeps_finish
    | with_reducible apply keeps_badParam
    | with_reducible apply keeps_notPermitted
    | with_reducible apply keeps_setEntry
    | with_reducible apply keeps_setEntryM
    | with_reducible apply keeps_stirPart
    | with_reducible apply keeps_finishPauses
    | with_reducible apply keeps_idleCompose
    | split
    | with_reducible refine Keeps.mk_ ?_

theorem keeps_doSetPriority {s0 : State} {s : State} (ring : Nat) (p : Packet) (hk : Keeps s0 s) : Keeps s0 (doSetPriority s ring p) := by
  unfold doSetPriority
  try dsimp only
  repeat' first
    | exact hk
    | assumption
    | with_reducible apply keeps_finish
    | with_reducible apply keeps_badParam
    | with_reducible apply keeps_setEntryM
    | split
    | with_reducible refine Keeps.mk_ ?_

theorem keeps_doQuery {s0 : State} {s : State} (ring : Nat) (p : Packet) (hostOk : Bool) (hk : Keeps s0 s) : Keeps s0 (doQuery s ring p hostOk) := by
  unfold doQuery
  try dsimp only
  repeat' first
    | exact hk
    | assumption
    | with_reducible apply keeps_emit
    | with_reducible apply keeps_finish
    | with_reducible apply keeps_badParam
    | split

theorem keeps_doPin {s0 : State} {s : State} (ring : Nat) (p : Packet) (hk : Keeps s0 s) : Keeps s0 (doPin s ring p) := by
  unfold doPin
  try dsimp only
  repeat' first
    | exact hk
    | assumption
    | with_reducible apply keeps_finish
    | with_reducible apply keeps_badParam
    | with_reducible apply keeps_notPermitted
    | with_reducible apply keeps_admitRequest
    | split

theorem keeps_doUnpin {s0 : State} {s : State} (ring : Nat) (p : Packet) (hk : Keeps s0 s) : Keeps s0 (doUnpin s ring p) := by
  unfold doUnpin
  try dsimp only
  repeat' first
    | exact hk
    | assumption
    | with_reducible apply keeps_setPart
    | with_reducible apply keeps_finish
    | with_reducible apply keeps_badParam
    | with_reducible apply keeps_notPermitted
    | with_reducible apply keeps_idleCompose
    | with_reducible apply keeps_settlePins
    | split

theorem keeps_doNop {s0 : State} {s : State} (ring : Nat) (p : Packet) (hk : Keeps s0 s) : Keeps s0 (doNop s ring p) := by
  unfold doNop
  try dsimp only
  repeat' first
    | exact hk
    | assumption
    | with_reducible apply keeps_modRing
    | with_reducible apply keeps_settleNops
    | with_reducible apply keeps_badParam
    | split

theorem keeps_carryOut {s0 : State} {s : State} (c : FwCmd) (hk : Keeps s0 s) : Keeps s0 (carryOut s c) := by
  unfold carryOut
  try dsimp only
  repeat' first
    | exact hk
    | assumption
    | with_reducible apply keeps_modRing
    | with_reducible apply keeps_finish
    | with_reducible apply keeps_doSubmit
    | with_reducible apply keeps_doCancel
    | with_reducible apply keeps_doSetPriority
    | with_reducible apply keeps_doNop
    | split
    | with_reducible refine Keeps.mk_ ?_

theorem keeps_settleTol {s0 : State} {s : State} (hk : Keeps s0 s) : Keeps s0 (settleTol s) := by
  unfold settleTol
  try dsimp only
  repeat' first
    | exact hk
    | assumption
    | with_reducible apply keeps_finish
    | with_reducible refine Keeps.foldl (fun _ _ _ => ?_) ?_
    | split
    | with_reducible refine Keeps.mk_ ?_

theorem keeps_arriveState {s0 : State} {s : State} (p : Nat) (w : Nat) (hk : Keeps s0 s) : Keeps s0 (arriveState s p w) := by
  unfold arriveState
  try dsimp only
  repeat' first
    | exact hk
    | assumption
    | with_reducible apply keeps_setPart
    | with_reducible apply keeps_settleDomains
    | with_reducible apply keeps_loadPrograms
    | with_reducible apply keeps_settleTol
    | split

theorem keeps_wakePart {s0 : State} {s : State} (p : Nat) (w : Nat) (hk : Keeps s0 s) : Keeps s0 (wakePart s p w) := by
  unfold wakePart
  try dsimp only
  repeat' first
    | exact hk
    | assumption
    | with_reducible apply keeps_setPart
    | with_reducible apply keeps_settleDomains
    | with_reducible apply keeps_settleTol
    | with_reducible apply keeps_arriveState
    | split
    | with_reducible refine Keeps.mk_ ?_

theorem keeps_dwellPart {s0 : State} {s : State} (p : Nat) (hk : Keeps s0 s) : Keeps s0 (dwellPart s p) := by
  unfold dwellPart
  try dsimp only
  repeat' first
    | exact hk
    | assumption
    | with_reducible apply keeps_setPart
    | with_reducible apply keeps_modTiles
    | with_reducible apply keeps_settleDomains
    | split

theorem keeps_kettleOnly {s0 s : State} (hk : Keeps s0 s) : Keeps s0 (kettleOnly s) :=
  ⟨hk.pending, fun q => ⟨wf_nil, (hk.stores q).logLen, (hk.stores q).logOrder, (hk.stores q).logSeq⟩⟩

theorem keeps_enterA4 {s0 : State} {s : State} (hk : Keeps s0 s) : Keeps s0 (enterA4 s) := by
  unfold enterA4
  try dsimp only
  repeat' first
    | exact hk
    | assumption
    | with_reducible apply keeps_errAccess
    | with_reducible apply keeps_kettleOnly
    | with_reducible refine Keeps.foldl (fun _ _ _ => ?_) ?_
    | split
    | with_reducible refine Keeps.mk_ ?_

theorem keeps_enterA5 {s0 : State} {s : State} (hk : Keeps s0 s) : Keeps s0 (enterA5 s) := by
  unfold enterA5
  try dsimp only
  repeat' first
    | exact hk
    | assumption
    | with_reducible apply keeps_kettleOnly
    | with_reducible refine Keeps.mk_ ?_

theorem keeps_dwellDevice {s0 : State} {s : State} (hk : Keeps s0 s) : Keeps s0 (dwellDevice s) := by
  unfold dwellDevice
  try dsimp only
  repeat' first
    | exact hk
    | assumption
    | with_reducible apply keeps_emit
    | with_reducible apply keeps_enterA4
    | split
    | with_reducible refine Keeps.mk_ ?_

theorem keeps_openWindow {s0 : State} {s : State} (hk : Keeps s0 s) : Keeps s0 (openWindow s) := by
  unfold openWindow
  try dsimp only
  repeat' first
    | exact hk
    | assumption
    | split
    | with_reducible refine Keeps.mk_ ?_

theorem keeps_wakeDevice {s0 : State} {s : State} (source : Nat) (hk : Keeps s0 s) : Keeps s0 (wakeDevice s source) := by
  unfold wakeDevice
  try dsimp only
  repeat' first
    | exact hk
    | assumption
    | with_reducible apply keeps_emit
    | with_reducible apply keeps_openWindow
    | split
    | with_reducible refine Keeps.mk_ ?_

theorem keeps_doTolerance {s0 : State} {s : State} (ring : Nat) (p : Packet) (hk : Keeps s0 s) : Keeps s0 (doTolerance s ring p) := by
  unfold doTolerance
  try dsimp only
  repeat' first
    | exact hk
    | assumption
    | with_reducible apply keeps_modPart
    | with_reducible apply keeps_badParam
    | with_reducible apply keeps_settleTol
    | with_reducible apply keeps_wakePart
    | with_reducible refine Keeps.foldl (fun _ _ _ => ?_) ?_
    | split
    | with_reducible refine Keeps.mk_ ?_

theorem keeps_doPowerCap {s0 : State} {s : State} (ring : Nat) (p : Packet) (hk : Keeps s0 s) : Keeps s0 (doPowerCap s ring p) := by
  unfold doPowerCap
  try dsimp only
  repeat' first
    | exact hk
    | assumption
    | with_reducible apply keeps_badParam
    | split
    | with_reducible refine Keeps.mk_ ?_

theorem keeps_markThrottled {s0 : State} {s : State} (old : Nat) (hk : Keeps s0 s) : Keeps s0 (markThrottled s old) := by
  unfold markThrottled
  try dsimp only
  repeat' first
    | exact hk
    | assumption
    | split
    | with_reducible refine Keeps.mk_ ?_

theorem keeps_slowDown {s0 : State} {s : State} (th : Nat) (hk : Keeps s0 s) : Keeps s0 (slowDown s th) := by
  unfold slowDown
  try dsimp only
  repeat' first
    | exact hk
    | assumption
    | with_reducible apply keeps_markThrottled
    | with_reducible refine Keeps.mk_ ?_

theorem keeps_hotAssert {s0 : State} {s : State} (hk : Keeps s0 s) : Keeps s0 (hotAssert s) := by
  unfold hotAssert
  try dsimp only
  repeat' first
    | exact hk
    | assumption
    | with_reducible apply keeps_slowDown
    | split
    | with_reducible refine Keeps.mk_ ?_

theorem keeps_setAlert {s0 : State} {s : State} (on : Bool) (hk : Keeps s0 s) : Keeps s0 (setAlert s on) := by
  unfold setAlert
  try dsimp only
  repeat' first
    | exact hk
    | assumption
    | with_reducible apply keeps_emit
    | split
    | with_reducible refine Keeps.mk_ ?_

theorem keeps_supplyLost {s0 : State} {s : State} (hk : Keeps s0 s) : Keeps s0 (supplyLost s) := by
  unfold supplyLost
  try dsimp only
  repeat' first
    | exact hk
    | assumption
    | with_reducible apply keeps_kettleOnly
    | with_reducible refine Keeps.mk_ ?_

theorem keeps_pinFinding {s0 : State} {s : State} (pin : Nat) (kind : Nat) (hk : Keeps s0 s) : Keeps s0 (pinFinding s pin kind) := by
  unfold pinFinding
  try dsimp only
  repeat' first
    | exact hk
    | assumption
    | with_reducible apply keeps_faultLog
    | split
    | with_reducible refine Keeps.mk_ ?_

theorem keeps_pinCleared {s0 : State} {s : State} (pin : Nat) (hk : Keeps s0 s) : Keeps s0 (pinCleared s pin) := by
  unfold pinCleared
  try dsimp only
  repeat' first
    | exact hk
    | assumption
    | split
    | with_reducible refine Keeps.mk_ ?_

theorem keeps_raiseInt {s0 : State} {s : State} (n : Nat) (hk : Keeps s0 s) : Keeps s0 (raiseInt s n) := by
  unfold raiseInt
  try dsimp only
  repeat' first
    | exact hk
    | assumption
    | with_reducible apply keeps_modFunc
    | with_reducible apply keeps_emit
    | with_reducible apply keeps_modRing
    | split

theorem keeps_settleInt {s0 : State} {s : State} (n : Nat) (hk : Keeps s0 s) : Keeps s0 (settleInt s n) := by
  unfold settleInt
  try dsimp only
  repeat' first
    | exact hk
    | assumption
    | with_reducible apply keeps_raiseInt
    | split

theorem keeps_mirrorRing {s0 : State} {s : State} (n : Nat) (hk : Keeps s0 s) : Keeps s0 (mirrorRing s n) := by
  unfold mirrorRing
  try dsimp only
  repeat' first
    | exact hk
    | assumption
    | with_reducible apply keeps_mirror
    | split

theorem keeps_writeRingCfg {s0 : State} {s : State} (fn : Nat) (n : Nat) (v : Word64) (off : Nat) (hk : Keeps s0 s) : Keeps s0 (writeRingCfg s fn n v off) := by
  unfold writeRingCfg
  try dsimp only
  repeat' first
    | exact hk
    | assumption
    | with_reducible apply keeps_errAccess
    | with_reducible apply keeps_modRing
    | with_reducible apply keeps_mirrorRing
    | split

theorem keeps_writeRing {s0 : State} {s : State} (fn : Nat) (n : Nat) (o : Nat) (mask : Word64) (v : Word64) (off : Nat) (hk : Keeps s0 s) : Keeps s0 (writeRing s fn n o mask v off) := by
  unfold writeRing
  try dsimp only
  repeat' first
    | exact hk
    | assumption
    | with_reducible apply keeps_errAccess
    | with_reducible apply keeps_modRing
    | with_reducible apply keeps_settleInt
    | with_reducible apply keeps_mirrorRing
    | with_reducible apply keeps_writeRingCfg
    | split

theorem keeps_putPairReg {s0 : State} {s : State} (p : Nat) (o : Nat) (v : Word64) (hk : Keeps s0 s) : Keeps s0 (putPairReg s p o v) := by
  unfold putPairReg
  try dsimp only
  repeat' first
    | exact hk
    | assumption
    | with_reducible apply keeps_modPart

theorem keeps_writePairReg {s0 : State} {s : State} (p : Nat) (o : Nat) (v : Word64) (hk : Keeps s0 s) : Keeps s0 (writePairReg s p o v) := by
  unfold writePairReg
  try dsimp only
  repeat' first
    | exact hk
    | assumption
    | with_reducible apply keeps_sendDelta
    | with_reducible apply keeps_putPairReg
    | refine keeps_sendDelta_eq (by assumption) ?_
    | split
    | with_reducible refine Keeps.mk_ ?_

theorem keeps_writePart {s0 : State} {s : State} (fn : Nat) (p : Nat) (o : Nat) (mask : Word64) (v : Word64) (off : Nat) (hk : Keeps s0 s) : Keeps s0 (writePart s fn p o mask v off) := by
  unfold writePart
  try dsimp only
  repeat' first
    | exact hk
    | assumption
    | with_reducible apply keeps_modPart
    | with_reducible apply keeps_errAccess
    | with_reducible apply keeps_writePairReg
    | split

theorem keeps_writeTile {s0 : State} {s : State} (t : Nat) (o : Nat) (mask : Word64) (v : Word64) (hk : Keeps s0 s) : Keeps s0 (writeTile s t o mask v) := by
  unfold writeTile
  try dsimp only
  repeat' first
    | exact hk
    | assumption
    | with_reducible apply keeps_modTile

theorem keeps_unfence {s0 : State} {s : State} (p : Nat) (hk : Keeps s0 s) : Keeps s0 (unfence s p) := by
  unfold unfence
  try dsimp only
  repeat' first
    | exact hk
    | assumption
    | with_reducible refine Keeps.mk_ ?_

theorem keeps_writeGlob {s0 : State} {s : State} (o : Nat) (mask : Word64) (v : Word64) (off : Nat) (hk : Keeps s0 s) : Keeps s0 (writeGlob s o mask v off) := by
  have he : Keeps s0 (errAccess s 0 6 0 off) := keeps_errAccess _ _ _ _ hk
  unfold writeGlob
  exact .ite (.ite he (Keeps.mk_ hk)) (.ite (.ite (Keeps.mk_ hk) he) (.ite (.ite (Keeps.mk_ hk) he) (.ite (Keeps.mk_ hk) (.ite (Keeps.mk_ hk)
    (.ite (.ite (.ite (keeps_enterA5 hk) he) (Keeps.mk_ hk)) (.ite (.ite (Keeps.mk_ hk) hk) (.ite (Keeps.mk_ hk) (.ite (.ite (Keeps.mk_ hk) hk)
      (.ite (.ite (Keeps.mk_ hk) hk) (.ite (keeps_unfence _ hk) hk))))))))))

theorem keeps_applyWrite {s0 : State} {s : State} (fn : Nat) (r : Reg) (mask : Word64) (v : Word64) (off : Nat) (hk : Keeps s0 s) : Keeps s0 (applyWrite s fn r mask v off) := by
  unfold applyWrite
  try dsimp only
  repeat' first
    | exact hk
    | assumption
    | with_reducible apply keeps_modPart
    | with_reducible apply keeps_modFunc
    | with_reducible apply keeps_errAccess
    | with_reducible apply keeps_writeRing
    | with_reducible apply keeps_writePart
    | with_reducible apply keeps_writeTile
    | with_reducible apply keeps_writeGlob
    | split
    | with_reducible refine Keeps.mk_ ?_

theorem keeps_dropHeld {s0 : State} {s : State} (fn : Nat) (off : Nat) (hk : Keeps s0 s) : Keeps s0 (dropHeld s fn off) := by
  unfold dropHeld
  try dsimp only
  repeat' first
    | exact hk
    | assumption
    | with_reducible apply keeps_modFunc

theorem keeps_regWrite {s0 : State} {s : State} (fn : Nat) (off : Nat) (be : BitVec 8) (v : Word64) (hk : Keeps s0 s) : Keeps s0 (regWrite s fn off be v) := by
  unfold regWrite
  try dsimp only
  repeat' first
    | exact hk
    | assumption
    | with_reducible apply keeps_modFunc
    | with_reducible apply keeps_errAccess
    | with_reducible apply keeps_applyWrite
    | with_reducible apply keeps_dropHeld
    | split

theorem keeps_counterRead {s0 : State} {s : State} (fn : Nat) (off : Nat) (r : Reg) (high : Bool) (hk : Keeps s0 s) : Keeps s0 (counterRead s fn off r high) := by
  unfold counterRead
  try dsimp only
  repeat' first
    | exact hk
    | assumption
    | with_reducible apply keeps_modFunc
    | with_reducible apply keeps_emit
    | split

theorem keeps_regRead {s0 : State} {s : State} (fn : Nat) (off : Nat) (be : BitVec 8) (hk : Keeps s0 s) : Keeps s0 (regRead s fn off be) := by
  unfold regRead
  try dsimp only
  repeat' first
    | exact hk
    | assumption
    | with_reducible apply keeps_errAccess
    | with_reducible apply keeps_emit
    | with_reducible apply keeps_counterRead
    | split

theorem keeps_bar2Read {s0 : State} {s : State} (fn : Nat) (off : Nat) (be : BitVec 8) (hk : Keeps s0 s) : Keeps s0 (bar2Read s fn off be) := by
  unfold bar2Read
  try dsimp only
  repeat' first
    | exact hk
    | assumption
    | with_reducible apply keeps_errAccess
    | with_reducible apply keeps_emit
    | split

theorem keeps_bar4Read {s0 : State} {s : State} (vf : Nat) (p : Nat) (x : Part) (a : Nat) (off : Nat) (be : List Bool) (hk : Keeps s0 s) : Keeps s0 (bar4Read s vf p x a off be) := by
  unfold bar4Read
  try dsimp only
  repeat' first
    | exact hk
    | assumption
    | with_reducible apply keeps_errAccess
    | with_reducible apply keeps_emit
    | with_reducible apply keeps_caddyRead
    | split

theorem keeps_bar4Write {s0 : State} {s : State} (vf : Nat) (p : Nat) (x : Part) (a : Nat) (off : Nat) (be : List Bool) (b : List Byte) (hk : Keeps s0 s) : Keeps s0 (bar4Write s vf p x a off be b) := by
  unfold bar4Write
  try dsimp only
  repeat' first
    | exact hk
    | assumption
    | with_reducible apply keeps_errAccess
    | with_reducible apply keeps_memWrite
    | split

theorem keeps_badDoorbell {s0 : State} {s : State} (fn : Nat) (off : Nat) (ring : Option Nat) (hk : Keeps s0 s) : Keeps s0 (badDoorbell s fn off ring) := by
  unfold badDoorbell
  try dsimp only
  repeat' first
    | exact hk
    | assumption
    | with_reducible apply keeps_errAccess
    | with_reducible apply keeps_modRing
    | split

theorem keeps_takeDoorbell {s0 : State} {s : State} (fn : Nat) (n : Nat) (off : Nat) (v : BitVec 16) (hk : Keeps s0 s) : Keeps s0 (takeDoorbell s fn n off v) := by
  unfold takeDoorbell
  try dsimp only
  repeat' first
    | exact hk
    | assumption
    | with_reducible apply keeps_modRing
    | with_reducible apply keeps_mirrorRing
    | with_reducible apply keeps_badDoorbell
    | split

theorem keeps_doorbellPart {s0 : State} {s : State} (fn : Nat) (off : Nat) (be : BitVec 8) (v : Word64) (hk : Keeps s0 s) : Keeps s0 (doorbellPart s fn off be v) := by
  unfold doorbellPart
  try dsimp only
  repeat' first
    | exact hk
    | assumption
    | with_reducible apply keeps_errAccess
    | with_reducible apply keeps_wakeDevice
    | with_reducible apply keeps_badDoorbell
    | with_reducible apply keeps_takeDoorbell
    | split

theorem keeps_fetchError {s0 : State} {s : State} (n : Nat) (hk : Keeps s0 s) : Keeps s0 (fetchError s n) := by
  unfold fetchError
  try dsimp only
  repeat' first
    | exact hk
    | assumption
    | with_reducible apply keeps_modRing
    | with_reducible apply keeps_mirrorRing

theorem keeps_releaseEntry {s0 : State} {s : State} (ring : Nat) (c : Completion) (hk : Keeps s0 s) : Keeps s0 (releaseEntry s ring c) := by
  unfold releaseEntry
  try dsimp only
  repeat' first
    | exact hk
    | assumption
    | with_reducible apply keeps_orphanFlights
    | with_reducible apply keeps_freeEntryAt
    | with_reducible apply keeps_idleAll
    | refine keeps_orphanFlights_eq (by assumption) ?_
    | split

theorem keeps_modTarget {s0 : State} {s : State} (p : Nat) (k : Nat) (f : Target → Target) (hk : Keeps s0 s) : Keeps s0 (modTarget s p k f) := by
  unfold modTarget
  try dsimp only
  repeat' first
    | exact hk
    | assumption
    | with_reducible apply keeps_modPart

theorem keeps_settleCancelled {s0 : State} {s : State} (p : Nat) (hk : Keeps s0 s) : Keeps s0 (settleCancelled s p) := by
  unfold settleCancelled
  try dsimp only
  repeat' first
    | exact hk
    | assumption
    | with_reducible apply keeps_setPart
    | with_reducible apply keeps_postCancelled
    | with_reducible refine Keeps.foldl (fun _ _ _ => ?_) ?_
    | split

theorem keeps_errTarget {s0 : State} {s : State} (p : Nat) (k : Nat) (cause : Nat) (hk : Keeps s0 s) : Keeps s0 (errTarget s p k cause) := by
  unfold errTarget
  try dsimp only
  repeat' first
    | exact hk
    | assumption
    | with_reducible apply keeps_postReq
    | with_reducible apply keeps_settleLent
    | with_reducible apply keeps_idleAll
    | with_reducible apply keeps_failRequest
    | with_reducible apply keeps_settleIdle
    | with_reducible apply keeps_modTarget
    | with_reducible apply keeps_settleCancelled
    | with_reducible refine Keeps.foldl (fun _ _ _ => ?_) ?_
    | split
    | with_reducible refine Keeps.mk_ ?_

theorem keeps_sendBytes {s0 : State} {s : State} (p : Nat) (k : Nat) (t : Target) (off : Nat) (b : List Byte) (imm : Option Word32) (hk : Keeps s0 s) : Keeps s0 (sendBytes s p k t off b imm) := by
  unfold sendBytes
  try dsimp only
  repeat' first
    | exact hk
    | assumption
    | with_reducible apply keeps_emit
    | split

theorem keeps_writeRecord {s0 s : State} (p k : Nat) (x : Part) (img : Image) (t : Target) (j : PourJob) (rest : List PourJob) (logOff len : Nat) (far : List (List Byte))
    (hk : Keeps s0 s) : Keeps s0 (writeRecord s p k x img t j rest logOff len far) := by
  unfold writeRecord
  extract_lets cuts b n pad commit s1 pos s2 s3 s4 s5 fl s6
  refine .ite (keeps_errTarget _ _ _ hk) (.ite (keeps_waitCredit _ _ hk) (.ite (keeps_modTarget _ _ _ hk) ?_))
  have h1 : Keeps s0 s1 := .ite hk (keeps_sendBytes _ _ _ _ _ _ hk)
  have h2 : Keeps s0 s2 := keeps_sendBytes _ _ _ _ _ _ h1
  have h3 : Keeps s0 s3 := .ite (keeps_emit _ (keeps_emit _ h2)) h2
  have h4 : Keeps s0 s4 := by
    simp only [s4]
    split
    · exact keeps_caddyRead _ _ _ _ (keeps_emits _ h3)
    · exact h3
  have h5 : Keeps s0 s5 := keeps_partCtr _ _ _ (keeps_partCtr _ _ _ h4)
  have h6 : Keeps s0 s6 := keeps_modTarget _ _ _ h5
  exact .ite (keeps_idleCompose _ (keeps_settleLent _ h6)) h6

theorem keeps_ackCommit {s0 : State} {s : State} (p : Nat) (k : Nat) (hk : Keeps s0 s) : Keeps s0 (ackCommit s p k) := by
  unfold ackCommit
  try dsimp only
  repeat' first
    | exact hk
    | assumption
    | with_reducible apply keeps_partCtr
    | with_reducible apply keeps_mirror
    | with_reducible apply keeps_setEntry
    | with_reducible apply keeps_setEntryM
    | with_reducible apply keeps_tryDone
    | with_reducible apply keeps_modTarget
    | with_reducible apply keeps_settleCancelled
    | split

theorem keeps_movePair {s0 : State} {s : State} (p : Nat) (k : Nat) (tried : List Nat) (hk : Keeps s0 s) : Keeps s0 (movePair s p k tried) := by
  unfold movePair
  try dsimp only
  repeat' first
    | exact hk
    | assumption
    | with_reducible apply keeps_emit
    | with_reducible apply keeps_modTarget
    | with_reducible apply keeps_errTarget
    | split

theorem keeps_doTargetAdd {s0 : State} {s : State} (ring : Nat) (p : Packet) (hk : Keeps s0 s) : Keeps s0 (doTargetAdd s ring p) := by
  unfold doTargetAdd
  try dsimp only
  repeat' first
    | exact hk
    | assumption
    | with_reducible apply keeps_setPart
    | with_reducible apply keeps_finish
    | with_reducible apply keeps_badParam
    | with_reducible apply keeps_notPermitted
    | split
    | with_reducible refine Keeps.mk_ ?_

theorem keeps_doTargetRemove {s0 : State} {s : State} (ring : Nat) (p : Packet) (hk : Keeps s0 s) : Keeps s0 (doTargetRemove s ring p) := by
  unfold doTargetRemove
  try dsimp only
  repeat' first
    | exact hk
    | assumption
    | with_reducible apply keeps_setPart
    | with_reducible apply keeps_finish
    | with_reducible apply keeps_badParam
    | with_reducible apply keeps_notPermitted
    | with_reducible apply keeps_settleLent
    | with_reducible apply keeps_settleCancelled
    | split

theorem keeps_createPart {s0 s : State} (a : CreateArgs) (hk : Keeps s0 s) : Keeps s0 (createPart s a).1 := by
  unfold createPart
  extract_lets rb pb gen x s1 m2 s2
  have h1 : Keeps s0 s1 := keeps_modTiles _ _ hk
  have h2 : Keeps s0 s2 := ⟨h1.pending, fun q => ⟨wf_clearRange _ _ _ (h1.stores q).push, (h1.stores q).logLen, (h1.stores q).logOrder, (h1.stores q).logSeq⟩⟩
  exact keeps_settleDomains (keeps_setPart _ _ h2)
theorem keeps_createPart_eq {s0 s s1 : State} {a : CreateArgs} {n : Nat × Nat} (he : createPart s a = (s1, n)) (hk : Keeps s0 s) : Keeps s0 s1 := by
  have k := keeps_createPart (s0 := s0) a hk
  rw [he] at k
  exact k

theorem keeps_configure {s0 s : State} (c : FwCmd) (d : Delta) (now_ : State → State) (h_now_ : ∀ s, Keeps s0 s → Keeps s0 (now_ s)) (hk : Keeps s0 s) :
    Keeps s0 (configure s c d now_) := by
  unfold configure
  split
  · next he => exact h_now_ _ (keeps_sendDelta_eq he hk)
  · next he => exact Keeps.mk_ (keeps_sendDelta_eq he hk)

theorem keeps_createNow {s0 : State} {s : State} (ring : Nat) (p : Packet) (hk : Keeps s0 s) : Keeps s0 (createNow s ring p) := by
  unfold createNow
  try dsimp only
  repeat' first
    | exact hk
    | assumption
    | with_reducible apply keeps_finish
    | with_reducible apply keeps_badParam
    | with_reducible apply keeps_notPermitted
    | with_reducible apply keeps_createPart
    | refine keeps_createPart_eq (by assumption) ?_
    | split

theorem keeps_doPartitionCreate {s0 s : State} (c : FwCmd) (hk : Keeps s0 s) : Keeps s0 (doPartitionCreate s c) := by
  unfold doPartitionCreate
  try dsimp only
  repeat' first
    | exact hk
    | assumption
    | with_reducible apply keeps_badParam
    | with_reducible apply keeps_notPermitted
    | with_reducible apply keeps_finish
    | with_reducible apply keeps_createNow
    | with_reducible refine keeps_configure _ _ _ (fun _ h => ?_) ?_
    | split

theorem keeps_destroyPart {s0 : State} {s : State} (n : Nat) (x : Part) (hk : Keeps s0 s) : Keeps s0 (destroyPart s n x) := by
  unfold destroyPart
  try dsimp only
  repeat' first
    | exact hk
    | assumption
    | with_reducible apply keeps_modTiles
    | with_reducible apply keeps_emit
    | with_reducible apply keeps_settleDomains
    | with_reducible refine Keeps.foldl (fun _ _ _ => ?_) ?_
    | with_reducible refine Keeps.mk_ ?_

theorem keeps_keepCounts {s0 : State} {s : State} (x : Part) (old : Tab Ring) (hk : Keeps s0 s) : Keeps s0 (keepCounts s x old) := by
  unfold keepCounts
  try dsimp only
  repeat' first
    | exact hk
    | assumption
    | with_reducible refine Keeps.foldl (fun _ _ _ => ?_) ?_
    | split
    | with_reducible refine Keeps.mk_ ?_

theorem keeps_destroyNow {s0 : State} {s : State} (ring : Nat) (p : Packet) (hk : Keeps s0 s) : Keeps s0 (destroyNow s ring p) := by
  unfold destroyNow
  try dsimp only
  repeat' first
    | exact hk
    | assumption
    | with_reducible apply keeps_finish
    | with_reducible apply keeps_badParam
    | with_reducible apply keeps_notPermitted
    | with_reducible apply keeps_destroyPart
    | with_reducible apply keeps_keepCounts
    | split

theorem keeps_doPartitionDestroy {s0 s : State} (c : FwCmd) (hk : Keeps s0 s) : Keeps s0 (doPartitionDestroy s c) := by
  unfold doPartitionDestroy
  try dsimp only
  repeat' first
    | exact hk
    | assumption
    | with_reducible apply keeps_badParam
    | with_reducible apply keeps_notPermitted
    | with_reducible apply keeps_finish
    | with_reducible apply keeps_destroyNow
    | with_reducible refine keeps_configure _ _ _ (fun _ h => ?_) ?_
    | split

theorem keeps_bindRing {s0 : State} {s : State} (x : Part) (i : Nat) (t : Nat) (hk : Keeps s0 s) : Keeps s0 (bindRing s x i t) := by
  unfold bindRing
  try dsimp only
  repeat' first
    | exact hk
    | assumption
    | with_reducible apply keeps_modRing
    | with_reducible apply keeps_mirrorRing
    | split

theorem keeps_setTenant {s0 : State} {s : State} (n : Nat) (x : Part) (p : Packet) (hk : Keeps s0 s) : Keeps s0 (setTenant s n x p) := by
  unfold setTenant
  try dsimp only
  repeat' first
    | exact hk
    | assumption
    | with_reducible apply keeps_setPart
    | with_reducible apply keeps_bindRing
    | split

theorem keeps_tenantNow {s0 : State} {s : State} (n : Nat) (ring : Nat) (p : Packet) (hk : Keeps s0 s) : Keeps s0 (tenantNow s n ring p) := by
  unfold tenantNow
  try dsimp only
  repeat' first
    | exact hk
    | assumption
    | with_reducible apply keeps_finish
    | with_reducible apply keeps_notPermitted
    | with_reducible apply keeps_setTenant
    | split

theorem keeps_doTenantConfigure {s0 s : State} (c : FwCmd) (hk : Keeps s0 s) : Keeps s0 (doTenantConfigure s c) := by
  unfold doTenantConfigure
  try dsimp only
  repeat' first
    | exact hk
    | assumption
    | with_reducible apply keeps_badParam
    | with_reducible apply keeps_notPermitted
    | with_reducible apply keeps_finish
    | with_reducible apply keeps_tenantNow
    | with_reducible refine keeps_configure _ _ _ (fun _ h => ?_) ?_
    | split

theorem keeps_placeImage {s0 : State} {s : State} (n : Nat) (x : Part) (img : Image) (hk : Keeps s0 s) : Keeps s0 (placeImage s n x img) := by
  unfold placeImage
  try dsimp only
  repeat' first
    | exact hk
    | assumption
    | with_reducible apply keeps_setPart
    | with_reducible apply keeps_partCtr
    | with_reducible apply keeps_mirror
    | with_reducible apply keeps_loadPrograms
    | with_reducible apply keeps_chargePaced

theorem keeps_doModelLoad {s0 : State} {s : State} (ring : Nat) (p : Packet) (rd : ImageRead) (hk : Keeps s0 s) : Keeps s0 (doModelLoad s ring p rd) := by
  unfold doModelLoad
  try dsimp only
  repeat' first
    | exact hk
    | assumption
    | with_reducible apply keeps_finish
    | with_reducible apply keeps_badParam
    | with_reducible apply keeps_notPermitted
    | with_reducible apply keeps_placeImage
    | split

theorem keeps_doModelUnload {s0 : State} {s : State} (ring : Nat) (p : Packet) (hk : Keeps s0 s) : Keeps s0 (doModelUnload s ring p) := by
  unfold doModelUnload
  try dsimp only
  repeat' first
    | exact hk
    | assumption
    | with_reducible apply keeps_setPart
    | with_reducible apply keeps_mirror
    | with_reducible apply keeps_finish
    | with_reducible apply keeps_badParam
    | with_reducible apply keeps_notPermitted
    | split

theorem keeps_modPort {s0 : State} {s : State} (p : Nat) (f : FabPort → FabPort) (hk : Keeps s0 s) : Keeps s0 (modPort s p f) := by
  unfold modPort
  try dsimp only
  repeat' first
    | exact hk
    | assumption
    | with_reducible refine Keeps.mk_ ?_

theorem keeps_sendHead {s0 : State} {s : State} (p : Nat) (v : Nat) (hk : Keeps s0 s) : Keeps s0 (sendHead s p v) := by
  unfold sendHead
  try dsimp only
  repeat' first
    | exact hk
    | assumption
    | with_reducible apply keeps_emit
    | with_reducible apply keeps_modPort
    | split
    | with_reducible refine Keeps.mk_ ?_

theorem keeps_pumpStep {s0 : State} {s : State} (p : Nat) (hk : Keeps s0 s) : Keeps s0 (pumpStep s p) := by
  unfold pumpStep
  try dsimp only
  repeat' first
    | exact hk
    | assumption
    | with_reducible apply keeps_modPort
    | with_reducible apply keeps_sendHead
    | split

theorem keeps_pumpPort {s0 : State} (p k : Nat) : ∀ {s : State}, Keeps s0 s → Keeps s0 (pumpPort k s p) := by
  induction k with
  | zero => exact fun h => h
  | succ k ih =>
    intro s hk
    unfold pumpPort
    split
    · exact ih (keeps_pumpStep _ hk)
    · exact hk

theorem keeps_pump {s0 s : State} (p : Nat) (hk : Keeps s0 s) : Keeps s0 (pump s p) := keeps_pumpPort p _ hk

theorem keeps_queueOn {s0 : State} {s : State} (p : Nat) (v : Nat) (dst : Nat) (src : Nat) (type : Nat) (group : Nat) (b : List Byte) (hk : Keeps s0 s) : Keeps s0 (queueOn s p v dst src type group b).1 := by
  unfold queueOn
  try dsimp only
  repeat' first
    | exact hk
    | assumption
    | with_reducible apply keeps_modPort
theorem keeps_queueOn_eq {s0 s1 : State} {n1 : Word32} {s : State} {p : Nat} {v : Nat} {dst : Nat} {src : Nat} {type : Nat} {group : Nat} {b : List Byte}  (he : queueOn s p v dst src type group b = (s1, n1)) (hk : Keeps s0 s) : Keeps s0 s1 := by
  have k := keeps_queueOn (s0 := s0) p v dst src type group b  hk
  rw [he] at k
  exact k

theorem keeps_sendOn {s0 : State} {s : State} (p : Nat) (v : Nat) (dst : Nat) (src : Nat) (type : Nat) (group : Nat) (b : List Byte) (hk : Keeps s0 s) : Keeps s0 (sendOn s p v dst src type group b) := by
  unfold sendOn
  try dsimp only
  repeat' first
    | exact hk
    | assumption
    | with_reducible apply keeps_pump
    | with_reducible apply keeps_queueOn

theorem keeps_breakGroup {s0 : State} {s : State} (g : Nat) (q : Group) (r : Nat) (hk : Keeps s0 s) : Keeps s0 (breakGroup s g q r) := by
  unfold breakGroup
  try dsimp only
  repeat' first
    | exact hk
    | assumption
    | with_reducible apply keeps_abortHere
    | with_reducible refine Keeps.mk_ ?_

theorem keeps_settleReach {s0 : State} {s : State} (published : Bool) (hk : Keeps s0 s) : Keeps s0 (settleReach s published) := by
  unfold settleReach
  try dsimp only
  repeat' first
    | exact hk
    | assumption
    | with_reducible apply keeps_emit
    | with_reducible apply keeps_breakGroup
    | with_reducible refine Keeps.foldl (fun _ _ _ => ?_) ?_
    | split

theorem keeps_install {s0 : State} {s : State} (mods : List (BitVec 64)) (sws : List (BitVec 64)) (routes : List Route) (hk : Keeps s0 s) : Keeps s0 (install s mods sws routes) := by
  unfold install
  try dsimp only
  repeat' first
    | exact hk
    | assumption
    | with_reducible apply keeps_settleReach
    | split
    | with_reducible refine Keeps.mk_ ?_

theorem keeps_trySearch {s0 : State} {s : State} (hk : Keeps s0 s) : Keeps s0 (trySearch s) := by
  unfold trySearch
  try dsimp only
  repeat' first
    | exact hk
    | assumption
    | with_reducible apply keeps_emit
    | with_reducible apply keeps_install
    | split
    | with_reducible refine Keeps.mk_ ?_

theorem keeps_startSearch {s0 : State} {s : State} (epoch : BitVec 16) (hk : Keeps s0 s) : Keeps s0 (startSearch s epoch) := by
  unfold startSearch
  try dsimp only
  repeat' first
    | exact hk
    | assumption
    | with_reducible apply keeps_emits
    | with_reducible apply keeps_trySearch
    | with_reducible refine Keeps.mk_ ?_

theorem keeps_bumpEpoch {s0 : State} {s : State} (hk : Keeps s0 s) : Keeps s0 (bumpEpoch s) := by
  unfold bumpEpoch
  try dsimp only
  repeat' first
    | exact hk
    | assumption
    | with_reducible apply keeps_startSearch

theorem keeps_ackSends {s0 : State} {s : State} (p : Nat) (seq : Word32) (hk : Keeps s0 s) : Keeps s0 (ackSends s p seq) := by
  unfold ackSends
  try dsimp only
  repeat' first
    | exact hk
    | assumption
    | with_reducible apply keeps_modTile
    | with_reducible refine Keeps.foldl (fun _ _ _ => ?_) ?_
    | with_reducible refine Keeps.mk_ ?_

theorem keeps_linkAck {s0 : State} {s : State} (p : Nat) (v : Nat) (seq : Word32) (payload : List Byte) (hk : Keeps s0 s) : Keeps s0 (linkAck s p v seq payload) := by
  unfold linkAck
  try dsimp only
  repeat' first
    | exact hk
    | assumption
    | with_reducible apply keeps_modPort
    | with_reducible apply keeps_pump
    | with_reducible apply keeps_ackSends
    | split

theorem keeps_resend {s0 : State} {s : State} (p : Nat) (v : Nat) (hk : Keeps s0 s) : Keeps s0 (resend s p v) := by
  unfold resend
  try dsimp only
  repeat' first
    | exact hk
    | assumption
    | with_reducible apply keeps_emits
    | with_reducible apply keeps_modPort

theorem keeps_movePacket {s0 : State} {s : State} (p : Nat) (v : Nat) (sent : Bool) (h : BitVec 128) (b : List Byte) (hk : Keeps s0 s) : Keeps s0 (movePacket s p v sent h b) := by
  unfold movePacket
  try dsimp only
  repeat' first
    | exact hk
    | assumption
    | with_reducible apply keeps_pump
    | with_reducible apply keeps_queueOn
    | refine keeps_queueOn_eq (by assumption) ?_
    | split
    | with_reducible refine Keeps.mk_ ?_

theorem keeps_moveTraffic {s0 : State} {s : State} (p : Nat) (hk : Keeps s0 s) : Keeps s0 (moveTraffic s p) := by
  unfold moveTraffic
  try dsimp only
  repeat' first
    | exact hk
    | assumption
    | with_reducible apply keeps_modPort
    | with_reducible apply keeps_movePacket
    | with_reducible refine Keeps.foldl (fun _ _ _ => ?_) ?_
    | split
    | with_reducible refine Keeps.mk_ ?_

theorem keeps_countChange {s0 : State} {s : State} (p : Nat) (hk : Keeps s0 s) : Keeps s0 (countChange s p) := by
  unfold countChange
  try dsimp only
  repeat' first
    | exact hk
    | assumption
    | with_reducible apply keeps_modPort

theorem keeps_portDown {s0 : State} {s : State} (p : Nat) (hk : Keeps s0 s) : Keeps s0 (portDown s p) := by
  unfold portDown
  try dsimp only
  repeat' first
    | exact hk
    | assumption
    | with_reducible apply keeps_faultLog
    | with_reducible apply keeps_modPort
    | with_reducible apply keeps_settleReach
    | with_reducible apply keeps_bumpEpoch
    | with_reducible apply keeps_moveTraffic
    | with_reducible apply keeps_countChange
    | split

theorem keeps_portRise {s0 : State} {s : State} (p : Nat) (lanes : BitVec 4) (hk : Keeps s0 s) : Keeps s0 (portRise s p lanes) := by
  unfold portRise
  try dsimp only
  repeat' first
    | exact hk
    | assumption
    | with_reducible apply keeps_faultLog
    | with_reducible apply keeps_modPort
    | with_reducible apply keeps_bumpEpoch
    | with_reducible apply keeps_countChange
    | split

theorem keeps_trained {s0 : State} {s : State} (port : Nat) (hk : Keeps s0 s) : Keeps s0 (trained s port) := by
  unfold trained
  try dsimp only
  repeat' first
    | exact hk
    | assumption
    | with_reducible refine Keeps.mk_ ?_

theorem keeps_doGroupCreate {s0 : State} {s : State} (ring : Nat) (p : Packet) (list : Option MemberList) (hk : Keeps s0 s) : Keeps s0 (doGroupCreate s ring p list) := by
  unfold doGroupCreate
  try dsimp only
  repeat' first
    | exact hk
    | assumption
    | with_reducible apply keeps_emit
    | with_reducible apply keeps_finish
    | with_reducible apply keeps_badParam
    | with_reducible apply keeps_notPermitted
    | with_reducible refine Keeps.foldl (fun _ _ _ => ?_) ?_
    | split
    | with_reducible refine Keeps.mk_ ?_

theorem keeps_doGroupDestroy {s0 : State} {s : State} (ring : Nat) (p : Packet) (hk : Keeps s0 s) : Keeps s0 (doGroupDestroy s ring p) := by
  unfold doGroupDestroy
  try dsimp only
  repeat' first
    | exact hk
    | assumption
    | with_reducible apply keeps_finish
    | with_reducible apply keeps_badParam
    | with_reducible apply keeps_notPermitted
    | with_reducible apply keeps_settleGroups
    | split
    | with_reducible refine Keeps.mk_ ?_

theorem keeps_launch {s0 s : State} (t op : Nat) (q : Group) (b : List Byte) (hk : Keeps s0 s) : Keeps s0 (launch s t op q b) := by
  unfold launch
  extract_lets dst id
  split
  · exact keeps_modTile _ _ (keeps_emit _ hk)
  · split
    · exact hk
    · next port _ =>
      have h := fun route => Keeps.foldlFst (s0 := s0) (f := fun (a : State × Word32) (c : List Byte) => queueOn a.1 port 0 route s.fab.routeId.toNat 1 (recLE b 3 1) c)
        (l := cutRecord (b.length / 4096 + 1) b) (fun s a h => keeps_queueOn _ _ _ _ _ _ _ h) (s := (s, (0 : Word32))) hk
      exact keeps_pump _ (Keeps.mk_ (h _))

theorem keeps_chargeWait {s0 : State} {s : State} (g : Nat) (q : Group) (x : Tile) (e : Nat) (tag : Nat) (slow : Nat) (hk : Keeps s0 s) : Keeps s0 (chargeWait s g q x e tag slow) := by
  unfold chargeWait
  try dsimp only
  repeat' first
    | exact hk
    | assumption
    | split
    | with_reducible refine Keeps.mk_ ?_

theorem keeps_pairCtr {s0 : State} {s : State} (off : Nat) (n : Nat) (hk : Keeps s0 s) : Keeps s0 (pairCtr s off n) := by
  unfold pairCtr
  try dsimp only
  repeat' first
    | exact hk
    | assumption
    | with_reducible refine Keeps.mk_ ?_

theorem keeps_mirrorStatus {s0 : State} {s : State} (p : Nat) (lanes : BitVec 4) (hk : Keeps s0 s) : Keeps s0 (mirrorStatus s p lanes) := by
  unfold mirrorStatus
  try dsimp only
  repeat' first
    | exact hk
    | assumption
    | with_reducible apply keeps_modPort

theorem keeps_setMPort {s0 : State} {s : State} (p : Nat) (up : Bool) (hk : Keeps s0 s) : Keeps s0 (setMPort s p up) := by
  unfold setMPort
  try dsimp only
  repeat' first
    | exact hk
    | assumption
    | with_reducible refine Keeps.mk_ ?_

theorem keeps_releaseHeld {s0 : State} {s : State} (deg : Bool) (hk : Keeps s0 s) : Keeps s0 (releaseHeld s deg) := by
  unfold releaseHeld
  try dsimp only
  repeat' first
    | exact hk
    | assumption
    | with_reducible apply keeps_idleAll
    | with_reducible apply keeps_carryOut
    | with_reducible apply keeps_putPairReg
    | with_reducible apply keeps_createNow
    | with_reducible apply keeps_destroyNow
    | with_reducible apply keeps_tenantNow
    | with_reducible refine Keeps.foldl (fun _ _ _ => ?_) ?_
    | split
    | with_reducible refine Keeps.mk_ ?_

theorem keeps_goSolo {s0 : State} {s : State} (hk : Keeps s0 s) : Keeps s0 (goSolo s) := by
  unfold goSolo
  try dsimp only
  repeat' first
    | exact hk
    | assumption
    | with_reducible apply keeps_faultLog
    | with_reducible apply keeps_releaseHeld
    | with_reducible refine Keeps.mk_ ?_

theorem keeps_goStranger {s0 : State} {s : State} (cert : BitVec 384) (hk : Keeps s0 s) : Keeps s0 (goStranger s cert) := by
  unfold goStranger
  try dsimp only
  repeat' first
    | exact hk
    | assumption
    | with_reducible apply keeps_faultLog
    | with_reducible apply keeps_releaseHeld
    | with_reducible refine Keeps.mk_ ?_

theorem keeps_unbindHere {s0 : State} {s : State} (hk : Keeps s0 s) : Keeps s0 (unbindHere s) := by
  unfold unbindHere
  try dsimp only
  repeat' first
    | exact hk
    | assumption
    | with_reducible apply keeps_releaseHeld
    | with_reducible refine Keeps.mk_ ?_

theorem keeps_tryCreate {s0 : State} {s : State} (v : BitVec 384) (hk : Keeps s0 s) : Keeps s0 (tryCreate s v).1 := by
  unfold tryCreate
  try dsimp only
  repeat' first
    | exact hk
    | assumption
    | with_reducible apply keeps_createPart
    | refine keeps_createPart_eq (by assumption) ?_
    | split
theorem keeps_tryCreate_eq {s0 s1 : State} {n1 : Option (BitVec 16 × Nat)} {s : State} {v : BitVec 384}  (he : tryCreate s v = (s1, n1)) (hk : Keeps s0 s) : Keeps s0 s1 := by
  have k := keeps_tryCreate (s0 := s0) v  hk
  rw [he] at k
  exact k

theorem keeps_tryDestroy {s0 : State} {s : State} (n : Nat) (hk : Keeps s0 s) : Keeps s0 (tryDestroy s n).1 := by
  unfold tryDestroy
  try dsimp only
  repeat' first
    | exact hk
    | assumption
    | with_reducible apply keeps_destroyPart
    | with_reducible apply keeps_keepCounts
    | split
theorem keeps_tryDestroy_eq {s0 s1 : State} {n1 : Option (BitVec 16 × Nat)} {s : State} {n : Nat}  (he : tryDestroy s n = (s1, n1)) (hk : Keeps s0 s) : Keeps s0 s1 := by
  have k := keeps_tryDestroy (s0 := s0) n  hk
  rw [he] at k
  exact k

theorem keeps_tryTenant {s0 : State} {s : State} (n : Nat) (v : BitVec 384) (hk : Keeps s0 s) : Keeps s0 (tryTenant s n v).1 := by
  unfold tryTenant
  try dsimp only
  repeat' first
    | exact hk
    | assumption
    | with_reducible apply keeps_setTenant
    | split
theorem keeps_tryTenant_eq {s0 s1 : State} {n1 : Option (BitVec 16 × Nat)} {s : State} {n : Nat} {v : BitVec 384}  (he : tryTenant s n v = (s1, n1)) (hk : Keeps s0 s) : Keeps s0 s1 := by
  have k := keeps_tryTenant (s0 := s0) n v  hk
  rw [he] at k
  exact k

theorem keeps_takeConfig {s0 s : State} (c : PairConfig) (hk : Keeps s0 s) : Keeps s0 (takeConfig s c).1 := by
  unfold takeConfig
  extract_lets step a b
  have hstep : ∀ x f, Keeps s0 x.1 → (∀ y, Keeps s0 y → Keeps s0 (f y).1) → Keeps s0 (step x f).1 := by
    intro x f hx hf
    simp only [step]
    split
    · exact hx
    · exact hf _ hx
  have ha : Keeps s0 a.1 := Keeps.foldlFst (fun x v hx => hstep x _ hx (fun y hy => keeps_tryCreate _ hy)) hk
  have hb : Keeps s0 b.1 := Keeps.foldlFst (fun x v hx => hstep x _ hx (fun y hy => keeps_tryTenant _ _ hy)) ha
  split
  · exact hb
  · exact hk
theorem keeps_takeConfig_eq {s0 s s1 : State} {c : PairConfig} {n : Option (BitVec 16 × Nat)} (he : takeConfig s c = (s1, n)) (hk : Keeps s0 s) : Keeps s0 s1 := by
  have k := keeps_takeConfig (s0 := s0) c hk
  rw [he] at k
  exact k

theorem keeps_mirrorAll {s0 : State} {s : State} (hk : Keeps s0 s) : Keeps s0 (mirrorAll s) := by
  unfold mirrorAll
  try dsimp only
  repeat' first
    | exact hk
    | assumption
    | with_reducible apply keeps_mirror
    | with_reducible refine Keeps.foldl (fun _ _ _ => ?_) ?_
    | with_reducible refine Keeps.mk_ ?_

theorem keeps_endBind {s0 : State} {s : State} (st : BitVec 16) (v : Nat) (hk : Keeps s0 s) : Keeps s0 (endBind s st v) := by
  unfold endBind
  try dsimp only
  repeat' first
    | exact hk
    | assumption
    | with_reducible apply keeps_finish
    | split
    | with_reducible refine Keeps.mk_ ?_

theorem keeps_resolveBind {s0 s : State} (cert : BitVec 384) (accepts : Bool) (c : PairConfig) (fails : Option (BitVec 16 × Nat)) (hk : Keeps s0 s) : Keeps s0 (resolveBind s cert accepts c fails) := by
  unfold resolveBind
  split
  · exact hk
  · split
    · exact keeps_endBind _ _ hk
    · split
      · exact keeps_endBind _ _ hk
      · extract_lets own a
        have ha : Keeps s0 a.1 := by
          simp only [a]
          split
          · exact keeps_takeConfig _ hk
          · split
            · exact hk
            · split <;> exact hk
        clear_value a
        obtain ⟨s1, n⟩ := a
        cases n with
        | some q => exact keeps_endBind _ _ ha
        | none => exact keeps_mirrorAll (keeps_endBind _ _ (Keeps.mk_ ha))

theorem keeps_doPairBind {s0 : State} {s : State} (ring : Nat) (p : Packet) (b : BindInput) (hk : Keeps s0 s) : Keeps s0 (doPairBind s ring p b) := by
  unfold doPairBind
  try dsimp only
  repeat' first
    | exact hk
    | assumption
    | with_reducible apply keeps_emit
    | with_reducible apply keeps_notPermitted
    | with_reducible apply keeps_resolveBind
    | split
    | with_reducible refine Keeps.mk_ ?_

theorem keeps_doPairUnbind {s0 : State} {s : State} (ring : Nat) (p : Packet) (hk : Keeps s0 s) : Keeps s0 (doPairUnbind s ring p) := by
  unfold doPairUnbind
  try dsimp only
  repeat' first
    | exact hk
    | assumption
    | with_reducible apply keeps_emit
    | with_reducible apply keeps_finish
    | with_reducible apply keeps_badParam
    | with_reducible apply keeps_unbindHere
    | split

theorem keeps_doPairStatus {s0 : State} {s : State} (ring : Nat) (p : Packet) (hk : Keeps s0 s) : Keeps s0 (doPairStatus s ring p) := by
  unfold doPairStatus
  try dsimp only
  repeat' first
    | exact hk
    | assumption
    | with_reducible apply keeps_finish
    | with_reducible apply keeps_badParam
    | split

theorem keeps_confirmDelta {s0 : State} {s : State} (n : Nat) (d : Delta) (fails : Option (BitVec 16 × Nat)) (hk : Keeps s0 s) : Keeps s0 (confirmDelta s n d fails) := by
  unfold confirmDelta
  try dsimp only
  repeat' first
    | exact hk
    | assumption
    | with_reducible apply keeps_finish
    | with_reducible apply keeps_setEntry
    | with_reducible apply keeps_stirPart
    | with_reducible apply keeps_idleCompose
    | with_reducible apply keeps_carryOut
    | with_reducible apply keeps_putPairReg
    | with_reducible apply keeps_createNow
    | with_reducible apply keeps_destroyNow
    | with_reducible apply keeps_tenantNow
    | with_reducible apply keeps_pairCtr
    | with_reducible refine Keeps.foldl (fun _ _ _ => ?_) ?_
    | split
    | with_reducible refine Keeps.mk_ ?_

theorem keeps_modShadow {s0 : State} {s : State} (f : Shadow → Shadow) (hk : Keeps s0 s) : Keeps s0 (modShadow s f) := by
  unfold modShadow
  try dsimp only
  repeat' first
    | exact hk
    | assumption
    | with_reducible refine Keeps.mk_ ?_

theorem keeps_lostHere {s0 : State} {s : State} (hk : Keeps s0 s) : Keeps s0 (lostHere s) := by
  unfold lostHere
  try dsimp only
  repeat' first
    | exact hk
    | assumption
    | with_reducible apply keeps_pairCtr

theorem keeps_discardFor {s0 s : State} (i : Nat) (e : Entry) (hk : Keeps s0 s) : Keeps s0 (dropAdmission.discardFor s i e) :=
  keeps_killNext _ _ (keeps_returnPages _ _ hk)
theorem keeps_dropAdmission {s0 s : State} (i : Nat) (e : Entry) (hk : Keeps s0 s) : Keeps s0 (dropAdmission s i e) := by
  unfold dropAdmission
  extract_lets r s1 s2
  have h1 : Keeps s0 s1 := keeps_modRing _ _ hk
  have h2 : Keeps s0 s2 := keeps_discardFor _ _ h1
  exact keeps_lostHere (keeps_postReq _ _ _ _ _ _ (keeps_freeEntryAt _ h2))

theorem keeps_requestDelta {s0 : State} {s : State} (i : Nat) (st : ReqState) (f : ReqFields) (hk : Keeps s0 s) : Keeps s0 (requestDelta s i st f) := by
  unfold requestDelta
  try dsimp only
  repeat' first
    | exact hk
    | assumption
    | with_reducible apply keeps_modShadow
    | with_reducible apply keeps_dropAdmission
    | split

theorem keeps_configDelta {s0 : State} {s : State} (op : Nat) (part : Nat) (tenant : Nat) (f : State → State × Option (BitVec 16 × Nat)) (h_f : ∀ s, Keeps s0 s → Keeps s0 (f s).1) (hk : Keeps s0 s) : Keeps s0 (configDelta s op part tenant f).1 := by
  unfold configDelta
  try dsimp only
  repeat' first
    | exact hk
    | assumption
    | with_reducible apply keeps_finish
    | with_reducible apply keeps_lostHere
    | apply h_f
    | with_reducible refine Keeps.foldl (fun _ _ _ => ?_) ?_
    | split
    | with_reducible refine Keeps.mk_ ?_
theorem keeps_configDelta_eq {s0 s1 : State} {n1 : Option (BitVec 16 × Nat)} {s : State} {op : Nat} {part : Nat} {tenant : Nat} (f : State → State × Option (BitVec 16 × Nat)) (h_f : ∀ s, Keeps s0 s → Keeps s0 (f s).1) (he : configDelta s op part tenant f = (s1, n1)) (hk : Keeps s0 s) : Keeps s0 s1 := by
  have k := keeps_configDelta (s0 := s0) op part tenant f h_f hk
  rw [he] at k
  exact k

theorem keeps_pairRegDelta {s0 : State} {s : State} (p : Nat) (off : Nat) (v : Word64) (hk : Keeps s0 s) : Keeps s0 (pairRegDelta s p off v) := by
  unfold pairRegDelta
  try dsimp only
  repeat' first
    | exact hk
    | assumption
    | with_reducible apply keeps_errAccess
    | with_reducible apply keeps_putPairReg
    | with_reducible apply keeps_lostHere
    | with_reducible refine Keeps.foldl (fun _ _ _ => ?_) ?_
    | split
    | with_reducible refine Keeps.mk_ ?_

theorem keeps_applyDelta {s0 s : State} (d : Delta) (hk : Keeps s0 s) : Keeps s0 (applyDelta s d).1 := by
  cases d <;> dsimp only [applyDelta]
  · exact keeps_modShadow _ hk
  · exact keeps_requestDelta _ _ _ hk
  · exact keeps_modShadow _ hk
  · exact keeps_modShadow _ hk
  · exact keeps_modShadow _ hk
  · exact keeps_modShadow _ hk
  · exact keeps_configDelta _ _ _ _ (fun _ h => keeps_tryCreate _ h) hk
  · exact keeps_configDelta _ _ _ _ (fun _ h => keeps_tryDestroy _ h) hk
  · exact keeps_configDelta _ _ _ _ (fun _ h => keeps_tryTenant _ _ h) hk
  · exact keeps_pairRegDelta _ _ _ hk
  · exact keeps_modShadow _ hk
  · exact keeps_modShadow _ hk
  · exact keeps_unbindHere hk
theorem keeps_applyDelta_eq {s0 s s1 : State} {d : Delta} {n : Option (BitVec 16 × Nat)} (he : applyDelta s d = (s1, n)) (hk : Keeps s0 s) : Keeps s0 s1 := by
  have k := keeps_applyDelta (s0 := s0) d hk
  rw [he] at k
  exact k

theorem keeps_wireFaultNow {s0 : State} {s : State} (hk : Keeps s0 s) : Keeps s0 (wireFaultNow s) := by
  unfold wireFaultNow
  try dsimp only
  repeat' first
    | exact hk
    | assumption
    | with_reducible apply keeps_faultLog
    | split
    | with_reducible refine Keeps.mk_ ?_

theorem keeps_adoptOne {s0 : State} {s : State} (sh : Shadow) (st : ReqState) (f : ReqFields) (hk : Keeps s0 s) : Keeps s0 (adoptOne sh s st f) := by
  unfold adoptOne
  try dsimp only
  repeat' first
    | exact hk
    | assumption
    | with_reducible apply keeps_setEntryM
    | with_reducible apply keeps_postReq
    | with_reducible apply keeps_postEvent
    | with_reducible apply keeps_pairCtr
    | split
    | with_reducible refine Keeps.mk_ ?_

theorem keeps_finishShadow {s0 : State} {s : State} (sh : Shadow) (m : ShadowCmd) (hk : Keeps s0 s) : Keeps s0 (finishShadow sh s m) := by
  unfold finishShadow
  try dsimp only
  repeat' first
    | exact hk
    | assumption
    | with_reducible apply keeps_finish
    | with_reducible apply keeps_doCancel
    | with_reducible apply keeps_doPause
    | with_reducible apply keeps_doResume
    | with_reducible apply keeps_doSetPriority
    | with_reducible apply keeps_doQuery
    | with_reducible apply keeps_doUnpin
    | split

theorem keeps_leapfrog {s0 : State} {s : State} (hk : Keeps s0 s) : Keeps s0 (leapfrog s) := by
  unfold leapfrog
  try dsimp only
  repeat' first
    | exact hk
    | assumption
    | with_reducible apply keeps_faultLog
    | with_reducible apply keeps_enqueueCpl
    | with_reducible apply keeps_idleAll
    | with_reducible apply keeps_modPort
    | with_reducible apply keeps_releaseHeld
    | with_reducible apply keeps_adoptOne
    | with_reducible apply keeps_finishShadow
    | with_reducible refine Keeps.foldl (fun _ _ _ => ?_) ?_
    | with_reducible refine Keeps.mk_ ?_

theorem keeps_lostUncovered {s0 : State} {s : State} (hk : Keeps s0 s) : Keeps s0 (lostUncovered s) := by
  unfold lostUncovered
  try dsimp only
  repeat' first
    | exact hk
    | assumption
    | with_reducible apply keeps_faultLog

theorem keeps_resendDeltas {s0 : State} {s : State} (hk : Keeps s0 s) : Keeps s0 (resendDeltas s) := by
  unfold resendDeltas
  try dsimp only
  repeat' first
    | exact hk
    | assumption
    | with_reducible apply keeps_emits

theorem keeps_mirrorPortLost {s0 : State} {s : State} (p : Nat) (hk : Keeps s0 s) : Keeps s0 (mirrorPortLost s p) := by
  unfold mirrorPortLost
  try dsimp only
  repeat' first
    | exact hk
    | assumption
    | with_reducible apply keeps_faultLog
    | with_reducible apply keeps_mirrorStatus
    | with_reducible apply keeps_setMPort
    | with_reducible apply keeps_resendDeltas
    | split
    | with_reducible refine Keeps.mk_ ?_

theorem keeps_mirrorPortBack {s0 s : State} (p : Nat) (lanes : BitVec 4) (hk : Keeps s0 s) : Keeps s0 (mirrorPortBack s p lanes) := by
  unfold mirrorPortBack
  extract_lets s1 p2 s2 s3
  have h1 : Keeps s0 s1 := keeps_mirrorStatus _ _ (keeps_setMPort _ _ hk)
  have h2 : Keeps s0 s2 := by
    simp only [s2]
    split
    · exact Keeps.mk_ h1
    · exact h1
  have h3 : Keeps s0 s3 := by
    simp only [s3]
    split
    · exact keeps_resendDeltas h2
    · exact h2
  split
  · exact keeps_emit _ h3
  · exact h3

theorem keeps_mapDie {s0 s : State} (l : List (Nat × Nat)) (d : Nat) (hk : Keeps s0 s) : Keeps s0 (mapDie s l d) := by
  unfold mapDie
  extract_lets f spare bad s1
  have h1 : Keeps s0 s1 := .ite hk (keeps_modTiles _ _ hk)
  clear_value s1
  refine Keeps.foldl (fun s k h => ?_) h1
  extract_lets t
  split
  · exact Keeps.mk_ (keeps_modTile _ _ h)
  · exact keeps_modTile _ _ h

theorem keeps_raisePorts {s0 : State} {s : State} (x : StartCfg) (hk : Keeps s0 s) : Keeps s0 (raisePorts s x) := by
  unfold raisePorts
  try dsimp only
  repeat' first
    | exact hk
    | assumption
    | with_reducible apply keeps_portRise
    | with_reducible apply keeps_trained
    | with_reducible apply keeps_mirrorPortBack
    | with_reducible refine Keeps.foldl (fun _ _ _ => ?_) ?_
    | split
    | with_reducible refine Keeps.mk_ ?_

theorem keeps_openSeal {s0 s : State} (ok : Bool) (hk : Keeps s0 s) : Keeps s0 (openSeal s ok) := by
  unfold openSeal
  split
  · exact hk
  · exact keeps_faultLog _ _ _ _ _ _ _ ⟨hk.pending, fun q => ⟨(hk.stores q).push, Nat.zero_le _, List.Pairwise.nil, fun _ h => absurd h List.not_mem_nil⟩⟩

theorem keeps_bringUp {s0 s : State} (x : StartCfg) (cause : BitVec 8) (hk : Keeps s0 s) : Keeps s0 (bringUp s x cause) := by
  unfold bringUp
  extract_lets m1 s1 s2 m3 s3 p4 s4 p5 s5 p6 s6 new i7 s7 newN i8 s8 i9 s9
  have h1 : Keeps s0 s1 := Keeps.mk_ hk
  have h2 : Keeps s0 s2 := keeps_emit _ h1
  clear_value s2
  split
  · exact Keeps.mk_ h2
  · have h3 : Keeps s0 s3 := Keeps.mk_ h2
    have h4 : Keeps s0 s4 := keeps_setAlert _ (keeps_openSeal _ (Keeps.mk_ h3))
    have h5 : Keeps s0 s5 := by
      simp only [s5]
      split
      · exact h4
      · exact keeps_pinFinding _ _ (Keeps.mk_ h4)
    have h6 : Keeps s0 s6 := keeps_raisePorts _ (Keeps.mk_ h5)
    have h7 : Keeps s0 s7 := Keeps.foldl (fun _ _ h => keeps_faultLog _ _ _ _ _ _ _ h) (Keeps.mk_ h6)
    have h8 : Keeps s0 s8 := Keeps.foldl (fun _ _ h => keeps_faultLog _ _ _ _ _ _ _ h) (Keeps.mk_ h7)
    have h9 : Keeps s0 s9 := Keeps.foldl (fun _ _ h => keeps_mapDie _ _ h) (Keeps.mk_ h8)
    clear_value s9
    split
    · exact keeps_moduleStop _ h9
    · exact keeps_settleDomains (Keeps.mk_ h9)

theorem keeps_startUp {s0 : State} {s : State} (x : StartCfg) (cause : BitVec 8) (hk : Keeps s0 s) : Keeps s0 (startUp s x cause) := by
  unfold startUp
  try dsimp only
  repeat' first
    | exact hk
    | assumption
    | with_reducible apply keeps_bringUp
    | split
    | with_reducible refine Keeps.mk_ ?_

theorem keeps_resumeStart {s0 : State} {s : State} (hk : Keeps s0 s) : Keeps s0 (resumeStart s) := by
  unfold resumeStart
  try dsimp only
  repeat' first
    | exact hk
    | assumption
    | with_reducible apply keeps_bringUp
    | split

theorem keeps_restoreA4 {s0 : State} {s : State} (hk : Keeps s0 s) : Keeps s0 (restoreA4 s) := by
  unfold restoreA4
  try dsimp only
  repeat' first
    | exact hk
    | assumption
    | with_reducible apply keeps_loadPrograms
    | with_reducible refine Keeps.foldl (fun _ _ _ => ?_) ?_
    | with_reducible refine Keeps.mk_ ?_

theorem keeps_resetRings {s0 : State} {s : State} (mine : Nat → Bool) (hk : Keeps s0 s) : Keeps s0 (resetRings s mine) := by
  unfold resetRings
  try dsimp only
  repeat' first
    | exact hk
    | assumption
    | split
    | with_reducible refine Keeps.mk_ ?_

theorem keeps_silentCancel {s0 : State} {s : State} (p : Nat) (q : Nat × Entry) (hk : Keeps s0 s) : Keeps s0 (silentCancel s p q) := by
  unfold silentCancel
  try dsimp only
  repeat' first
    | exact hk
    | assumption
    | with_reducible apply keeps_setEntryM
    | with_reducible apply keeps_settleLent
    | with_reducible apply keeps_dropPours
    | with_reducible apply keeps_orphanFlights
    | with_reducible apply keeps_freeEntryAt
    | with_reducible apply keeps_applyCancel
    | refine keeps_orphanFlights_eq (by assumption) ?_
    | split

theorem keeps_resetVf {s0 : State} {s : State} (p : Nat) (hk : Keeps s0 s) : Keeps s0 (resetVf s p) := by
  unfold resetVf
  try dsimp only
  repeat' first
    | exact hk
    | assumption
    | with_reducible apply keeps_idleCompose
    | with_reducible apply keeps_settlePins
    | with_reducible apply keeps_resetRings
    | with_reducible apply keeps_silentCancel
    | with_reducible refine Keeps.foldl (fun _ _ _ => ?_) ?_
    | split
    | with_reducible refine Keeps.mk_ ?_

theorem keeps_laneFaultLog {s0 : State} {s : State} (port : Nat) (old : Word64) (new : Word64) (hk : Keeps s0 s) : Keeps s0 (laneFaultLog s port old new) := by
  unfold laneFaultLog
  try dsimp only
  repeat' first
    | exact hk
    | assumption
    | with_reducible apply keeps_faultLog
    | split

theorem keeps_doTelemetry {s0 : State} {s : State} (ring : Nat) (p : Packet) (hostOk : Bool) (hk : Keeps s0 s) : Keeps s0 (doTelemetry s ring p hostOk) := by
  unfold doTelemetry
  try dsimp only
  repeat' first
    | exact hk
    | assumption
    | with_reducible apply keeps_emit
    | with_reducible apply keeps_finish
    | with_reducible apply keeps_badParam
    | with_reducible apply keeps_notPermitted
    | split

theorem keeps_doLogRead {s0 : State} {s : State} (ring : Nat) (p : Packet) (hostOk : Bool) (hk : Keeps s0 s) : Keeps s0 (doLogRead s ring p hostOk) := by
  unfold doLogRead
  try dsimp only
  repeat' first
    | exact hk
    | assumption
    | with_reducible apply keeps_emit
    | with_reducible apply keeps_finish
    | with_reducible apply keeps_badParam
    | split

theorem keeps_doSelftest {s0 : State} {s : State} (ring : Nat) (p : Packet) (pass : BitVec 8) (hk : Keeps s0 s) : Keeps s0 (doSelftest s ring p pass) := by
  unfold doSelftest
  try dsimp only
  repeat' first
    | exact hk
    | assumption
    | with_reducible apply keeps_finish
    | with_reducible apply keeps_badParam
    | split

theorem keeps_doStage {s0 : State} {s : State} (ring : Nat) (p : Packet) (img : Option FwImage) (hk : Keeps s0 s) : Keeps s0 (doStage s ring p img) := by
  unfold doStage
  try dsimp only
  repeat' first
    | exact hk
    | assumption
    | with_reducible apply keeps_finish
    | with_reducible apply keeps_badParam
    | with_reducible apply keeps_notPermitted
    | split
    | with_reducible refine Keeps.mk_ ?_

theorem keeps_doActivate {s0 : State} {s : State} (ring : Nat) (p : Packet) (newOk : Bool) (partnerOk : Bool) (hk : Keeps s0 s) : Keeps s0 (doActivate s ring p newOk partnerOk) := by
  unfold doActivate
  try dsimp only
  repeat' first
    | exact hk
    | assumption
    | with_reducible apply keeps_faultLog
    | with_reducible apply keeps_finish
    | with_reducible apply keeps_badParam
    | with_reducible apply keeps_notPermitted
    | split
    | with_reducible refine Keeps.mk_ ?_

theorem keeps_runFirmware {s0 : State} {s : State} (c : FwCmd) (hk : Keeps s0 s) : Keeps s0 (runFirmware s c) := by
  unfold runFirmware
  try dsimp only
  repeat' first
    | exact hk
    | assumption
    | with_reducible apply keeps_finish
    | with_reducible apply keeps_doPause
    | with_reducible apply keeps_doResume
    | with_reducible apply keeps_doQuery
    | with_reducible apply keeps_doPin
    | with_reducible apply keeps_doUnpin
    | with_reducible apply keeps_doTolerance
    | with_reducible apply keeps_doPowerCap
    | with_reducible apply keeps_doTargetAdd
    | with_reducible apply keeps_doTargetRemove
    | with_reducible apply keeps_doPartitionCreate
    | with_reducible apply keeps_doPartitionDestroy
    | with_reducible apply keeps_doTenantConfigure
    | with_reducible apply keeps_doModelLoad
    | with_reducible apply keeps_doModelUnload
    | with_reducible apply keeps_doGroupCreate
    | with_reducible apply keeps_doGroupDestroy
    | with_reducible apply keeps_doPairBind
    | with_reducible apply keeps_doPairUnbind
    | with_reducible apply keeps_doPairStatus
    | with_reducible apply keeps_doTelemetry
    | with_reducible apply keeps_doLogRead
    | with_reducible apply keeps_doSelftest
    | with_reducible apply keeps_doStage
    | with_reducible apply keeps_doActivate
    | split

theorem keeps_tick {s0 s : State} (hk : Keeps s0 s) : Keeps s0 (tick s) := by
  unfold tick
  split
  · exact hk
  · extract_lets s1 p2 s2 f p3
    have h1 : Keeps s0 s1 := keeps_resumeStart (Keeps.mk_ hk)
    clear_value s1
    split
    · exact h1
    · have h2 : Keeps s0 s2 := Keeps.mk_ h1
      split
      · exact h2
      · exact Keeps.mk_ h2

end Sys2Proof.Machine
end

