-- ==== Sys2Proof/Laws/Commands.lean ====
section
/-! SUPPORT. Commands.lean: what every command leaves as it was when it answers a next state: the queue, and the form of push
memory and of the fault log. One lemma per meaning; they cite the lemmas of Keeps.lean. -/

namespace Sys2Proof.Machine

open Sys2Proof

/-- Whatever next state the outcome holds keeps the queue and the stores of `s0`. -/
def OkNext (s0 : State) (r : Res) : Prop := ∀ t, r = .next t → Keeps s0 t

theorem OkNext.next {s0 s : State} (h : Keeps s0 s) : OkNext s0 (.next s) := by
  intro t ht
  injection ht with ht
  exact ht ▸ h
theorem OkNext.fault {s0 : State} (f : Fault) : OkNext s0 (.fault f) := fun _ h => by injection h

theorem OkNext.ite {s0 : State} {a b : Res} {c : Prop} [Decidable c] (ha : OkNext s0 a) (hb : OkNext s0 b) : OkNext s0 (if c then a else b) := by
  split
  · exact ha
  · exact hb

theorem keeps_issue {s0 s : State} (t c op : Nat) (w : BitVec 120) (rsv : List (Nat × Nat)) (check : Iss → Verdict) (rows : Iss → Rows) (go : Iss → State)
    (h_go : ∀ i : Iss, Keeps s0 i.s → Keeps s0 (go i)) (hk : Keeps s0 s) : OkNext s0 (issue s t c op w rsv check rows go) := by
  unfold issue
  split
  · exact OkNext.next hk
  split
  · exact OkNext.next hk
  extract_lets before s1 x k i
  have h1 : Keeps s0 s1 := keeps_fetched _ _ hk
  have hi : Keeps s0 (go i) := h_go i h1
  split
  · exact OkNext.next hk
  split
  · exact OkNext.next (keeps_takeException _ _ _ _ _ _ _ _ hk)
  split
  · exact OkNext.next (keeps_spadFault _ _ _ hk)
  split
  · exact OkNext.next (keeps_takeException _ _ _ _ _ _ _ _ h1)
  split
  · exact OkNext.next hi
  · exact OkNext.next (keeps_modTile _ _ h1)
  · exact OkNext.next (keeps_modTile _ _ h1)
  · exact OkNext.next (keeps_takeException _ _ _ _ _ _ _ _ h1)
  · exact OkNext.next (keeps_spadFault _ _ _ h1)
  · exact OkNext.next (keeps_modTile _ _ h1)

theorem keeps_scalarOp {s0 : State} (t : Fin 64) (c : Fin 4) (op : Nat) (w : BitVec 120) (f : Iss → Word64) {s : State} (hk : Keeps s0 s) : OkNext s0 (scalarOp s t c op w f) := by
  unfold scalarOp
  try dsimp only
  repeat' first
    | exact hk
    | assumption
    | exact OkNext.fault _
    | with_reducible refine OkNext.next ?_
    | with_reducible apply keeps_Iss_accept
    | with_reducible apply keeps_issue
    | intro i hk

theorem keeps_execSli {s0 : State} (t : Fin 64) (c : Fin 4) (w : BitVec 120) {s : State} (hk : Keeps s0 s) : OkNext s0 (execSli t c w s) := by
  unfold execSli
  try dsimp only
  repeat' first
    | exact hk
    | assumption
    | exact OkNext.fault _
    | with_reducible refine OkNext.next ?_
    | with_reducible apply keeps_scalarOp

theorem keeps_execSadd {s0 : State} (t : Fin 64) (c : Fin 4) (w : BitVec 120) {s : State} (hk : Keeps s0 s) : OkNext s0 (execSadd t c w s) := by
  unfold execSadd
  try dsimp only
  repeat' first
    | exact hk
    | assumption
    | exact OkNext.fault _
    | with_reducible refine OkNext.next ?_
    | with_reducible apply keeps_scalarOp

theorem keeps_execSsub {s0 : State} (t : Fin 64) (c : Fin 4) (w : BitVec 120) {s : State} (hk : Keeps s0 s) : OkNext s0 (execSsub t c w s) := by
  unfold execSsub
  try dsimp only
  repeat' first
    | exact hk
    | assumption
    | exact OkNext.fault _
    | with_reducible refine OkNext.next ?_
    | with_reducible apply keeps_scalarOp

theorem keeps_execSmul {s0 : State} (t : Fin 64) (c : Fin 4) (w : BitVec 120) {s : State} (hk : Keeps s0 s) : OkNext s0 (execSmul t c w s) := by
  unfold execSmul
  try dsimp only
  repeat' first
    | exact hk
    | assumption
    | exact OkNext.fault _
    | with_reducible refine OkNext.next ?_
    | with_reducible apply keeps_scalarOp

theorem keeps_execSand {s0 : State} (t : Fin 64) (c : Fin 4) (w : BitVec 120) {s : State} (hk : Keeps s0 s) : OkNext s0 (execSand t c w s) := by
  unfold execSand
  try dsimp only
  repeat' first
    | exact hk
    | assumption
    | exact OkNext.fault _
    | with_reducible refine OkNext.next ?_
    | with_reducible apply keeps_scalarOp

theorem keeps_execSor {s0 : State} (t : Fin 64) (c : Fin 4) (w : BitVec 120) {s : State} (hk : Keeps s0 s) : OkNext s0 (execSor t c w s) := by
  unfold execSor
  try dsimp only
  repeat' first
    | exact hk
    | assumption
    | exact OkNext.fault _
    | with_reducible refine OkNext.next ?_
    | with_reducible apply keeps_scalarOp

theorem keeps_execSxor {s0 : State} (t : Fin 64) (c : Fin 4) (w : BitVec 120) {s : State} (hk : Keeps s0 s) : OkNext s0 (execSxor t c w s) := by
  unfold execSxor
  try dsimp only
  repeat' first
    | exact hk
    | assumption
    | exact OkNext.fault _
    | with_reducible refine OkNext.next ?_
    | with_reducible apply keeps_scalarOp

theorem keeps_execSshl {s0 : State} (t : Fin 64) (c : Fin 4) (w : BitVec 120) {s : State} (hk : Keeps s0 s) : OkNext s0 (execSshl t c w s) := by
  unfold execSshl
  try dsimp only
  repeat' first
    | exact hk
    | assumption
    | exact OkNext.fault _
    | with_reducible refine OkNext.next ?_
    | with_reducible apply keeps_scalarOp

theorem keeps_execSshr {s0 : State} (t : Fin 64) (c : Fin 4) (w : BitVec 120) {s : State} (hk : Keeps s0 s) : OkNext s0 (execSshr t c w s) := by
  unfold execSshr
  try dsimp only
  repeat' first
    | exact hk
    | assumption
    | exact OkNext.fault _
    | with_reducible refine OkNext.next ?_
    | with_reducible apply keeps_scalarOp

theorem keeps_execSshrl {s0 : State} (t : Fin 64) (c : Fin 4) (w : BitVec 120) {s : State} (hk : Keeps s0 s) : OkNext s0 (execSshrl t c w s) := by
  unfold execSshrl
  try dsimp only
  repeat' first
    | exact hk
    | assumption
    | exact OkNext.fault _
    | with_reducible refine OkNext.next ?_
    | with_reducible apply keeps_scalarOp

theorem keeps_execSmin {s0 : State} (t : Fin 64) (c : Fin 4) (w : BitVec 120) {s : State} (hk : Keeps s0 s) : OkNext s0 (execSmin t c w s) := by
  unfold execSmin
  try dsimp only
  repeat' first
    | exact hk
    | assumption
    | exact OkNext.fault _
    | with_reducible refine OkNext.next ?_
    | with_reducible apply keeps_scalarOp

theorem keeps_execSmax {s0 : State} (t : Fin 64) (c : Fin 4) (w : BitVec 120) {s : State} (hk : Keeps s0 s) : OkNext s0 (execSmax t c w s) := by
  unfold execSmax
  try dsimp only
  repeat' first
    | exact hk
    | assumption
    | exact OkNext.fault _
    | with_reducible refine OkNext.next ?_
    | with_reducible apply keeps_scalarOp

theorem keeps_execSld {s0 : State} (t : Fin 64) (c : Fin 4) (w : BitVec 120) {s : State} (hk : Keeps s0 s) : OkNext s0 (execSld t c w s) := by
  unfold execSld
  try dsimp only
  repeat' first
    | exact hk
    | assumption
    | exact OkNext.fault _
    | with_reducible refine OkNext.next ?_
    | with_reducible apply keeps_Iss_accept
    | with_reducible apply keeps_issue
    | intro i hk

theorem keeps_execSst {s0 : State} (t : Fin 64) (c : Fin 4) (w : BitVec 120) {s : State} (hk : Keeps s0 s) : OkNext s0 (execSst t c w s) := by
  unfold execSst
  try dsimp only
  repeat' first
    | exact hk
    | assumption
    | exact OkNext.fault _
    | with_reducible refine OkNext.next ?_
    | with_reducible apply keeps_Iss_accept
    | with_reducible apply keeps_issue
    | intro i hk

theorem keeps_execBset {s0 : State} (t : Fin 64) (c : Fin 4) (w : BitVec 120) {s : State} (hk : Keeps s0 s) : OkNext s0 (execBset t c w s) := by
  unfold execBset
  try dsimp only
  repeat' first
    | exact hk
    | assumption
    | exact OkNext.fault _
    | with_reducible refine OkNext.next ?_
    | with_reducible apply keeps_Iss_accept
    | with_reducible apply keeps_issue
    | intro i hk

theorem keeps_execMld {s0 : State} (t : Fin 64) (c : Fin 4) (w : BitVec 120) {s : State} (hk : Keeps s0 s) : OkNext s0 (execMld t c w s) := by
  unfold execMld
  try dsimp only
  repeat' first
    | exact hk
    | assumption
    | exact OkNext.fault _
    | with_reducible refine OkNext.next ?_
    | with_reducible apply keeps_Iss_accept
    | with_reducible apply keeps_issue
    | intro i hk

theorem keeps_execMst {s0 : State} (t : Fin 64) (c : Fin 4) (w : BitVec 120) {s : State} (hk : Keeps s0 s) : OkNext s0 (execMst t c w s) := by
  unfold execMst
  try dsimp only
  repeat' first
    | exact hk
    | assumption
    | exact OkNext.fault _
    | with_reducible refine OkNext.next ?_
    | with_reducible apply keeps_Iss_accept
    | with_reducible apply keeps_issue
    | intro i hk

theorem keeps_execMrng {s0 : State} (t : Fin 64) (c : Fin 4) (w : BitVec 120) {s : State} (hk : Keeps s0 s) : OkNext s0 (execMrng t c w s) := by
  unfold execMrng
  try dsimp only
  repeat' first
    | exact hk
    | assumption
    | exact OkNext.fault _
    | with_reducible refine OkNext.next ?_
    | with_reducible apply keeps_Iss_accept
    | with_reducible apply keeps_issue
    | intro i hk

theorem keeps_execMvalid {s0 : State} (t : Fin 64) (c : Fin 4) (w : BitVec 120) {s : State} (hk : Keeps s0 s) : OkNext s0 (execMvalid t c w s) := by
  unfold execMvalid
  try dsimp only
  repeat' first
    | exact hk
    | assumption
    | exact OkNext.fault _
    | with_reducible refine OkNext.next ?_
    | with_reducible apply keeps_Iss_accept
    | with_reducible apply keeps_issue
    | intro i hk

theorem keeps_execMseg {s0 : State} (t : Fin 64) (c : Fin 4) (w : BitVec 120) {s : State} (hk : Keeps s0 s) : OkNext s0 (execMseg t c w s) := by
  unfold execMseg
  try dsimp only
  repeat' first
    | exact hk
    | assumption
    | exact OkNext.fault _
    | with_reducible refine OkNext.next ?_
    | with_reducible apply keeps_Iss_accept
    | with_reducible apply keeps_issue
    | intro i hk

theorem keeps_execRmap {s0 : State} (t : Fin 64) (c : Fin 4) (w : BitVec 120) {s : State} (hk : Keeps s0 s) : OkNext s0 (execRmap t c w s) := by
  unfold execRmap
  try dsimp only
  repeat' first
    | exact hk
    | assumption
    | exact OkNext.fault _
    | with_reducible refine OkNext.next ?_
    | with_reducible apply keeps_Iss_accept
    | with_reducible apply keeps_issue
    | intro i hk

theorem keeps_execFrd {s0 : State} (t : Fin 64) (c : Fin 4) (w : BitVec 120) {s : State} (hk : Keeps s0 s) : OkNext s0 (execFrd t c w s) := by
  unfold execFrd
  try dsimp only
  repeat' first
    | exact hk
    | assumption
    | exact OkNext.fault _
    | with_reducible refine OkNext.next ?_
    | with_reducible apply keeps_scalarOp

theorem keeps_execNopInstruction {s0 : State} (t : Fin 64) (c : Fin 4) (w : BitVec 120) {s : State} (hk : Keeps s0 s) : OkNext s0 (execNopInstruction t c w s) := by
  unfold execNopInstruction
  try dsimp only
  repeat' first
    | exact hk
    | assumption
    | exact OkNext.fault _
    | with_reducible refine OkNext.next ?_
    | with_reducible apply keeps_Iss_accept
    | with_reducible apply keeps_issue
    | intro i hk

theorem keeps_execEndI {s0 : State} (t : Fin 64) (c : Fin 4) (w : BitVec 120) {s : State} (hk : Keeps s0 s) : OkNext s0 (execEndI t c w s) := by
  unfold execEndI
  try dsimp only
  repeat' first
    | exact hk
    | assumption
    | exact OkNext.fault _
    | with_reducible refine OkNext.next ?_
    | with_reducible apply keeps_Iss_accept
    | with_reducible apply keeps_issue
    | with_reducible apply keeps_syncAbort
    | split
    | with_reducible refine Keeps.mk_ ?_
    | intro i hk

theorem keeps_execJmp {s0 : State} (t : Fin 64) (c : Fin 4) (w : BitVec 120) {s : State} (hk : Keeps s0 s) : OkNext s0 (execJmp t c w s) := by
  unfold execJmp
  try dsimp only
  repeat' first
    | exact hk
    | assumption
    | exact OkNext.fault _
    | with_reducible refine OkNext.next ?_
    | with_reducible apply keeps_Iss_accept
    | with_reducible apply keeps_issue
    | intro i hk

theorem keeps_execBr {s0 : State} (t : Fin 64) (c : Fin 4) (w : BitVec 120) {s : State} (hk : Keeps s0 s) : OkNext s0 (execBr t c w s) := by
  unfold execBr
  try dsimp only
  repeat' first
    | exact hk
    | assumption
    | exact OkNext.fault _
    | with_reducible refine OkNext.next ?_
    | with_reducible apply keeps_Iss_accept
    | with_reducible apply keeps_issue
    | split
    | intro i hk

theorem keeps_execLoop {s0 : State} (t : Fin 64) (c : Fin 4) (w : BitVec 120) {s : State} (hk : Keeps s0 s) : OkNext s0 (execLoop t c w s) := by
  unfold execLoop
  try dsimp only
  repeat' first
    | exact hk
    | assumption
    | exact OkNext.fault _
    | with_reducible refine OkNext.next ?_
    | with_reducible apply keeps_Iss_accept
    | with_reducible apply keeps_issue
    | intro i hk

theorem keeps_execIllegalOpcode {s0 : State} (t : Fin 64) (c : Fin 4) (w : BitVec 128) {s : State} (hk : Keeps s0 s) : OkNext s0 (execIllegalOpcode t c w s) := by
  unfold execIllegalOpcode
  try dsimp only
  repeat' first
    | exact hk
    | assumption
    | exact OkNext.fault _
    | with_reducible refine OkNext.next ?_
    | with_reducible apply keeps_issue
    | split
    | intro i hk

theorem keeps_execSignal {s0 : State} (t : Fin 64) (c : Fin 4) (w : BitVec 120) {s : State} (hk : Keeps s0 s) : OkNext s0 (execSignal t c w s) := by
  unfold execSignal
  try dsimp only
  repeat' first
    | exact hk
    | assumption
    | exact OkNext.fault _
    | with_reducible refine OkNext.next ?_
    | with_reducible apply keeps_Iss_accept
    | with_reducible apply keeps_issue
    | with_reducible refine Keeps.mk_ ?_
    | intro i hk

theorem keeps_execWait {s0 : State} (t : Fin 64) (c : Fin 4) (w : BitVec 120) {s : State} (hk : Keeps s0 s) : OkNext s0 (execWait t c w s) := by
  unfold execWait
  try dsimp only
  repeat' first
    | exact hk
    | assumption
    | exact OkNext.fault _
    | with_reducible refine OkNext.next ?_
    | with_reducible apply keeps_modTile
    | with_reducible apply keeps_Iss_accept
    | with_reducible apply keeps_issue
    | split
    | with_reducible refine Keeps.mk_ ?_
    | intro i hk

theorem keeps_execWaitSatisfied {s0 : State} (t : Fin 64) (c : Fin 4) {s : State} (hk : Keeps s0 s) : OkNext s0 (execWaitSatisfied t c s) := by
  unfold execWaitSatisfied
  try dsimp only
  repeat' first
    | exact hk
    | assumption
    | exact OkNext.fault _
    | with_reducible refine OkNext.next ?_
    | with_reducible apply keeps_setTile
    | split

theorem keeps_execFset {s0 : State} (t : Fin 64) (c : Fin 4) (w : BitVec 120) {s : State} (hk : Keeps s0 s) : OkNext s0 (execFset t c w s) := by
  unfold execFset
  try dsimp only
  repeat' first
    | exact hk
    | assumption
    | exact OkNext.fault _
    | with_reducible refine OkNext.next ?_
    | with_reducible apply keeps_Iss_accept
    | with_reducible apply keeps_issue
    | split
    | with_reducible refine Keeps.mk_ ?_
    | intro i hk

theorem keeps_execFence {s0 : State} (t : Fin 64) (c : Fin 4) (w : BitVec 120) {s : State} (hk : Keeps s0 s) : OkNext s0 (execFence t c w s) := by
  unfold execFence
  try dsimp only
  repeat' first
    | exact hk
    | assumption
    | exact OkNext.fault _
    | with_reducible refine OkNext.next ?_
    | with_reducible apply keeps_modTile
    | with_reducible apply keeps_Iss_accept
    | with_reducible apply keeps_issue
    | split
    | with_reducible refine Keeps.mk_ ?_
    | intro i hk

theorem keeps_execBarrier {s0 : State} (t : Fin 64) (c : Fin 4) (w : BitVec 120) {s : State} (hk : Keeps s0 s) : OkNext s0 (execBarrier t c w s) := by
  unfold execBarrier
  try dsimp only
  repeat' first
    | exact hk
    | assumption
    | exact OkNext.fault _
    | with_reducible refine OkNext.next ?_
    | with_reducible apply keeps_modTile
    | with_reducible apply keeps_issue
    | with_reducible apply keeps_arriveBarrier
    | split
    | with_reducible refine Keeps.mk_ ?_
    | intro i hk

theorem keeps_execFenceComplete {s0 : State} (t : Fin 64) (c : Fin 4) {s : State} (hk : Keeps s0 s) : OkNext s0 (execFenceComplete t c s) := by
  unfold execFenceComplete
  try dsimp only
  repeat' first
    | exact hk
    | assumption
    | exact OkNext.fault _
    | with_reducible refine OkNext.next ?_
    | with_reducible apply keeps_modTile
    | with_reducible apply keeps_arriveBarrier
    | split

theorem keeps_execSignalArrive {s0 : State} (i : Nat) {s : State} (hk : Keeps s0 s) : OkNext s0 (execSignalArrive i s) := by
  unfold execSignalArrive
  try dsimp only
  repeat' first
    | exact hk
    | assumption
    | exact OkNext.fault _
    | with_reducible refine OkNext.next ?_
    | with_reducible apply keeps_modTile
    | split
    | with_reducible refine Keeps.mk_ ?_

theorem keeps_execWaitLimitExpiry {s0 : State} (p : Fin 64) {s : State} (hk : Keeps s0 s) : OkNext s0 (execWaitLimitExpiry p s) := by
  unfold execWaitLimitExpiry
  try dsimp only
  repeat' first
    | exact hk
    | assumption
    | exact OkNext.fault _
    | with_reducible refine OkNext.next ?_
    | with_reducible apply keeps_modPart
    | with_reducible apply keeps_abortSteep
    | split

theorem keeps_execPowerLend {s0 : State} (t : Fin 64) {s : State} (hk : Keeps s0 s) : OkNext s0 (execPowerLend t s) := by
  unfold execPowerLend
  try dsimp only
  repeat' first
    | exact hk
    | assumption
    | exact OkNext.fault _
    | with_reducible refine OkNext.next ?_
    | with_reducible apply keeps_setTile
    | split

theorem keeps_execTileHangTimeout {s0 : State} (t : Fin 64) {s : State} (hk : Keeps s0 s) : OkNext s0 (execTileHangTimeout t s) := by
  unfold execTileHangTimeout
  try dsimp only
  repeat' first
    | exact hk
    | assumption
    | exact OkNext.fault _
    | with_reducible refine OkNext.next ?_
    | with_reducible apply keeps_tileFault
    | split

theorem keeps_execScrubTick {s0 : State} (t : Fin 64) (line : Fin 32768) {s : State} (hk : Keeps s0 s) : OkNext s0 (execScrubTick t line s) := by
  unfold execScrubTick
  try dsimp only
  repeat' first
    | exact hk
    | assumption
    | exact OkNext.fault _
    | with_reducible refine OkNext.next ?_
    | with_reducible apply keeps_modTile

theorem keeps_matIssue {s0 : State} (t : Fin 64) (c : Fin 4) (op : Nat) (w : BitVec 120) {s : State} (hk : Keeps s0 s) : OkNext s0 (matIssue s t c op w) := by
  unfold matIssue
  try dsimp only
  repeat' first
    | exact hk
    | assumption
    | exact OkNext.fault _
    | with_reducible refine OkNext.next ?_
    | with_reducible apply keeps_issue
    | with_reducible apply keeps_matAccept

theorem keeps_execTmma {s0 : State} (t : Fin 64) (c : Fin 4) (w : BitVec 120) {s : State} (hk : Keeps s0 s) : OkNext s0 (execTmma t c w s) := by
  unfold execTmma
  try dsimp only
  repeat' first
    | exact hk
    | assumption
    | exact OkNext.fault _
    | with_reducible refine OkNext.next ?_
    | with_reducible apply keeps_matIssue

theorem keeps_execTmmaL {s0 : State} (t : Fin 64) (c : Fin 4) (w : BitVec 120) {s : State} (hk : Keeps s0 s) : OkNext s0 (execTmmaL t c w s) := by
  unfold execTmmaL
  try dsimp only
  repeat' first
    | exact hk
    | assumption
    | exact OkNext.fault _
    | with_reducible refine OkNext.next ?_
    | with_reducible apply keeps_matIssue

theorem keeps_execTmmaF {s0 : State} (t : Fin 64) (c : Fin 4) (w : BitVec 120) {s : State} (hk : Keeps s0 s) : OkNext s0 (execTmmaF t c w s) := by
  unfold execTmmaF
  try dsimp only
  repeat' first
    | exact hk
    | assumption
    | exact OkNext.fault _
    | with_reducible refine OkNext.next ?_
    | with_reducible apply keeps_matIssue

theorem keeps_execTmmaIssueEnd {s0 : State} (t : Fin 64) (chk : Check) {s : State} (hk : Keeps s0 s) : OkNext s0 (execTmmaIssueEnd t chk s) := by
  unfold execTmmaIssueEnd
  extract_lets x
  split
  · exact .next hk
  refine .ite (.next (keeps_nextEntry _ _ hk)) (.ite (.next hk) ?_)
  split
  · exact .next (keeps_tileFault _ _ _ _ hk)
  · extract_lets reads y y2
    clear_value y2
    split
    · exact .next (keeps_spadFault _ _ _ hk)
    split
    · exact .next (keeps_takeException _ _ _ _ _ _ _ _ hk)
    · exact .ite (.next (keeps_nextEntry _ _ (keeps_setTile _ _ hk))) (.next (keeps_addDone _ _ _ (keeps_setTile _ _ hk)))

theorem keeps_execRescale {s0 : State} (t : Fin 64) (c : Fin 4) (w : BitVec 120) {s : State} (hk : Keeps s0 s) : OkNext s0 (execRescale t c w s) := by
  unfold execRescale
  try dsimp only
  repeat' first
    | exact hk
    | assumption
    | exact OkNext.fault _
    | with_reducible refine OkNext.next ?_
    | with_reducible apply keeps_Iss_accept
    | with_reducible apply keeps_issue
    | with_reducible refine Keeps.mk_ ?_
    | intro i hk

theorem keeps_execRescaleStart {s0 : State} (t : Fin 64) {s : State} (hk : Keeps s0 s) : OkNext s0 (execRescaleStart t s) := by
  unfold execRescaleStart
  try dsimp only
  repeat' first
    | exact hk
    | assumption
    | exact OkNext.fault _
    | with_reducible refine OkNext.next ?_
    | with_reducible apply keeps_setTile

theorem keeps_execRescaleEnd {s0 : State} (t : Fin 64) {s : State} (hk : Keeps s0 s) : OkNext s0 (execRescaleEnd t s) := by
  unfold execRescaleEnd
  try dsimp only
  repeat' first
    | exact hk
    | assumption
    | exact OkNext.fault _
    | with_reducible refine OkNext.next ?_
    | with_reducible apply keeps_setTile
    | with_reducible refine Keeps.foldl (fun _ _ _ => ?_) ?_
    | split

theorem keeps_execLswap {s0 : State} (t : Fin 64) (c : Fin 4) (w : BitVec 120) {s : State} (hk : Keeps s0 s) : OkNext s0 (execLswap t c w s) := by
  unfold execLswap
  try dsimp only
  repeat' first
    | exact hk
    | assumption
    | exact OkNext.fault _
    | with_reducible refine OkNext.next ?_
    | with_reducible apply keeps_modTile
    | with_reducible apply keeps_issue
    | with_reducible refine Keeps.mk_ ?_
    | intro i hk

theorem keeps_execLeafSwap {s0 : State} (t : Fin 64) {s : State} (hk : Keeps s0 s) : OkNext s0 (execLeafSwap t s) := by
  unfold execLeafSwap
  try dsimp only
  repeat' first
    | exact hk
    | assumption
    | exact OkNext.fault _
    | with_reducible refine OkNext.next ?_
    | with_reducible apply keeps_setTile
    | with_reducible apply keeps_ringMove
    | split

theorem keeps_execDrain {s0 : State} (t : Fin 64) (c : Fin 4) (w : BitVec 120) {s : State} (hk : Keeps s0 s) : OkNext s0 (execDrain t c w s) := by
  unfold execDrain
  try dsimp only
  repeat' first
    | exact hk
    | assumption
    | exact OkNext.fault _
    | with_reducible refine OkNext.next ?_
    | with_reducible apply keeps_Iss_accept
    | with_reducible apply keeps_issue
    | split
    | with_reducible refine Keeps.mk_ ?_
    | intro i hk

theorem keeps_execDrainStart {s0 : State} (t : Fin 64) {s : State} (hk : Keeps s0 s) : OkNext s0 (execDrainStart t s) := by
  unfold execDrainStart
  try dsimp only
  repeat' first
    | exact hk
    | assumption
    | exact OkNext.fault _
    | with_reducible refine OkNext.next ?_
    | with_reducible apply keeps_setTile
    | split

theorem keeps_execDrainEnd {s0 : State} (t : Fin 64) (chk : Check) {s : State} (hk : Keeps s0 s) : OkNext s0 (execDrainEnd t chk s) := by
  unfold execDrainEnd
  split
  · split
    · exact .next hk
    rename_i d p _ _ _ part _
    dsimp -zeta only
    extract_lets z e s1 x reads h hd x2 rows y y2
    have h1 : Keeps s0 s1 := keeps_modTile _ _ hk
    have h2 : Keeps s0 (remoteReady s1 t part d).1 := keeps_remoteReady _ _ _ h1
    clear_value y2
    refine .ite (.next h2) ?_
    split
    · exact .next (keeps_tileFault _ _ _ _ h2)
    split
    · exact .next (keeps_spadFault _ _ _ h2)
    exact .ite (.next (keeps_takeException _ _ _ _ _ _ _ _ h2)) (.ite (.next (keeps_setTile _ _ (keeps_sendRows _ _ _ _ _ _ h2))) (.next (keeps_addDone _ _ _ (keeps_setTile _ _ h2))))
  · exact .next hk

theorem keeps_vecIssue {s0 : State} (t : Fin 64) (c : Fin 4) (op : Nat) (w : BitVec 120) {s : State} (hk : Keeps s0 s) : OkNext s0 (vecIssue s t c op w) := by
  unfold vecIssue
  try dsimp only
  repeat' first
    | exact hk
    | assumption
    | exact OkNext.fault _
    | with_reducible refine OkNext.next ?_
    | with_reducible apply keeps_issue
    | with_reducible apply keeps_vecAccept

theorem keeps_execVmov {s0 : State} (t : Fin 64) (c : Fin 4) (w : BitVec 120) {s : State} (hk : Keeps s0 s) : OkNext s0 (execVmov t c w s) := by
  unfold execVmov
  try dsimp only
  repeat' first
    | exact hk
    | assumption
    | exact OkNext.fault _
    | with_reducible refine OkNext.next ?_
    | with_reducible apply keeps_vecIssue

theorem keeps_execVadd {s0 : State} (t : Fin 64) (c : Fin 4) (w : BitVec 120) {s : State} (hk : Keeps s0 s) : OkNext s0 (execVadd t c w s) := by
  unfold execVadd
  try dsimp only
  repeat' first
    | exact hk
    | assumption
    | exact OkNext.fault _
    | with_reducible refine OkNext.next ?_
    | with_reducible apply keeps_vecIssue

theorem keeps_execVsub {s0 : State} (t : Fin 64) (c : Fin 4) (w : BitVec 120) {s : State} (hk : Keeps s0 s) : OkNext s0 (execVsub t c w s) := by
  unfold execVsub
  try dsimp only
  repeat' first
    | exact hk
    | assumption
    | exact OkNext.fault _
    | with_reducible refine OkNext.next ?_
    | with_reducible apply keeps_vecIssue

theorem keeps_execVmul {s0 : State} (t : Fin 64) (c : Fin 4) (w : BitVec 120) {s : State} (hk : Keeps s0 s) : OkNext s0 (execVmul t c w s) := by
  unfold execVmul
  try dsimp only
  repeat' first
    | exact hk
    | assumption
    | exact OkNext.fault _
    | with_reducible refine OkNext.next ?_
    | with_reducible apply keeps_vecIssue

theorem keeps_execVfma {s0 : State} (t : Fin 64) (c : Fin 4) (w : BitVec 120) {s : State} (hk : Keeps s0 s) : OkNext s0 (execVfma t c w s) := by
  unfold execVfma
  try dsimp only
  repeat' first
    | exact hk
    | assumption
    | exact OkNext.fault _
    | with_reducible refine OkNext.next ?_
    | with_reducible apply keeps_vecIssue

theorem keeps_execVmin {s0 : State} (t : Fin 64) (c : Fin 4) (w : BitVec 120) {s : State} (hk : Keeps s0 s) : OkNext s0 (execVmin t c w s) := by
  unfold execVmin
  try dsimp only
  repeat' first
    | exact hk
    | assumption
    | exact OkNext.fault _
    | with_reducible refine OkNext.next ?_
    | with_reducible apply keeps_vecIssue

theorem keeps_execVmax {s0 : State} (t : Fin 64) (c : Fin 4) (w : BitVec 120) {s : State} (hk : Keeps s0 s) : OkNext s0 (execVmax t c w s) := by
  unfold execVmax
  try dsimp only
  repeat' first
    | exact hk
    | assumption
    | exact OkNext.fault _
    | with_reducible refine OkNext.next ?_
    | with_reducible apply keeps_vecIssue

theorem keeps_execVdiv {s0 : State} (t : Fin 64) (c : Fin 4) (w : BitVec 120) {s : State} (hk : Keeps s0 s) : OkNext s0 (execVdiv t c w s) := by
  unfold execVdiv
  try dsimp only
  repeat' first
    | exact hk
    | assumption
    | exact OkNext.fault _
    | with_reducible refine OkNext.next ?_
    | with_reducible apply keeps_vecIssue

theorem keeps_execVsqrt {s0 : State} (t : Fin 64) (c : Fin 4) (w : BitVec 120) {s : State} (hk : Keeps s0 s) : OkNext s0 (execVsqrt t c w s) := by
  unfold execVsqrt
  try dsimp only
  repeat' first
    | exact hk
    | assumption
    | exact OkNext.fault _
    | with_reducible refine OkNext.next ?_
    | with_reducible apply keeps_vecIssue

theorem keeps_execVexp2 {s0 : State} (t : Fin 64) (c : Fin 4) (w : BitVec 120) {s : State} (hk : Keeps s0 s) : OkNext s0 (execVexp2 t c w s) := by
  unfold execVexp2
  try dsimp only
  repeat' first
    | exact hk
    | assumption
    | exact OkNext.fault _
    | with_reducible refine OkNext.next ?_
    | with_reducible apply keeps_vecIssue

theorem keeps_execVrsum {s0 : State} (t : Fin 64) (c : Fin 4) (w : BitVec 120) {s : State} (hk : Keeps s0 s) : OkNext s0 (execVrsum t c w s) := by
  unfold execVrsum
  try dsimp only
  repeat' first
    | exact hk
    | assumption
    | exact OkNext.fault _
    | with_reducible refine OkNext.next ?_
    | with_reducible apply keeps_vecIssue

theorem keeps_execVrmax {s0 : State} (t : Fin 64) (c : Fin 4) (w : BitVec 120) {s : State} (hk : Keeps s0 s) : OkNext s0 (execVrmax t c w s) := by
  unfold execVrmax
  try dsimp only
  repeat' first
    | exact hk
    | assumption
    | exact OkNext.fault _
    | with_reducible refine OkNext.next ?_
    | with_reducible apply keeps_vecIssue

theorem keeps_execVcvt {s0 : State} (t : Fin 64) (c : Fin 4) (w : BitVec 120) {s : State} (hk : Keeps s0 s) : OkNext s0 (execVcvt t c w s) := by
  unfold execVcvt
  try dsimp only
  repeat' first
    | exact hk
    | assumption
    | exact OkNext.fault _
    | with_reducible refine OkNext.next ?_
    | with_reducible apply keeps_vecIssue

theorem keeps_execVectorEnd {s0 : State} (t : Fin 64) (chk : Check) {s : State} (hk : Keeps s0 s) : OkNext s0 (execVectorEnd t chk s) := by
  unfold execVectorEnd
  split
  · exact .next hk
  extract_lets s1 x reads y
  have h1 : Keeps s0 s1 := keeps_modTile _ _ hk
  clear_value y
  refine .ite (.next h1) ?_
  split
  · exact .next (keeps_tileFault _ _ _ _ h1)
  split
  · exact .next (keeps_spadFault _ _ _ h1)
  · exact .next (keeps_addDone _ _ _ (keeps_setTile _ _ h1))

theorem keeps_execCombiningBufferTimeout {s0 : State} (stripe : Nat) {s : State} (hk : Keeps s0 s) : OkNext s0 (execCombiningBufferTimeout stripe s) := by
  unfold execCombiningBufferTimeout
  try dsimp only
  repeat' first
    | exact hk
    | assumption
    | exact OkNext.fault _
    | with_reducible refine OkNext.next ?_
    | with_reducible refine Keeps.mk_ ?_

theorem keeps_execSrun {s0 : State} (t : Fin 64) (c : Fin 4) (w : BitVec 120) {s : State} (hk : Keeps s0 s) : OkNext s0 (execSrun t c w s) := by
  unfold execSrun
  try dsimp only
  repeat' first
    | exact hk
    | assumption
    | exact OkNext.fault _
    | with_reducible refine OkNext.next ?_
    | with_reducible apply keeps_Iss_accept
    | with_reducible apply keeps_issue
    | split
    | with_reducible refine Keeps.mk_ ?_
    | intro i hk

theorem keeps_execStreamXfer {s0 : State} (t : Fin 64) (h : Fin 8) {s : State} (hk : Keeps s0 s) : OkNext s0 (execStreamXfer t h s) := by
  unfold execStreamXfer
  extract_lets h0 hd s1 w o s2 s3
  split
  · exact .next hk
  split
  · exact .next hk
  refine .ite (.next hk) (.ite (.next (keeps_loadProgram _ _ hk)) ?_)
  have h1 : Keeps s0 s1 := keeps_modTile _ _ hk
  refine .ite (.next (keeps_surplusFault _ _ h1)) ?_
  split
  · exact .next (keeps_streamFault _ _ _ _ _ _ h1)
  split
  · exact .next (keeps_streamFault _ _ _ _ _ _ h1)
  split
  · exact .next (keeps_streamFault _ _ _ _ _ _ h1)
  refine .ite (.next h1) ?_
  have h3 : Keeps s0 s3 := .ite (keeps_modTile _ _ h1) (keeps_modTile _ _ (keeps_modTile _ _ h1))
  refine .ite (.next h3) ?_
  split
  · exact .next (keeps_spadFault _ _ _ h3)
  split
  · exact .next (keeps_xferTile _ _ _ _ _ _ _ h3)
  · exact .next h3
  split
  · exact .ite (.next (keeps_waitCredit _ _ h3)) (.next (keeps_modTile _ _ (keeps_caddyRead _ _ _ _ h3)))
  · exact .next (keeps_memRequests _ _ _ _ _ _ h3)

theorem keeps_execPageWalkDone {s0 : State} (t : Fin 64) (h : Fin 8) {s : State} (hk : Keeps s0 s) : OkNext s0 (execPageWalkDone t h s) := by
  unfold execPageWalkDone
  try dsimp only
  repeat' first
    | exact hk
    | assumption
    | exact OkNext.fault _
    | with_reducible refine OkNext.next ?_
    | with_reducible apply keeps_modTile

theorem keeps_execStreamReadLand {s0 : State} (t : Fin 64) (h : Fin 8) (r : LandRead) {s : State} (hk : Keeps s0 s) : OkNext s0 (execStreamReadLand t h r s) := by
  unfold execStreamReadLand
  try dsimp only
  repeat' first
    | exact hk
    | assumption
    | exact OkNext.fault _
    | with_reducible refine OkNext.next ?_
    | with_reducible apply keeps_modTile
    | with_reducible apply keeps_reportRead
    | split

theorem keeps_execStreamDone {s0 : State} (t : Fin 64) (h : Fin 8) {s : State} (hk : Keeps s0 s) : OkNext s0 (execStreamDone t h s) := by
  unfold execStreamDone
  try dsimp only
  repeat' first
    | exact hk
    | assumption
    | exact OkNext.fault _
    | with_reducible refine OkNext.next ?_
    | with_reducible apply keeps_modTile
    | with_reducible apply keeps_flushMerge
    | with_reducible apply keeps_surplusFault
    | with_reducible apply keeps_endHandle
    | with_reducible apply keeps_addDone
    | split

theorem keeps_execSstop {s0 : State} (t : Fin 64) (c : Fin 4) (w : BitVec 120) {s : State} (hk : Keeps s0 s) : OkNext s0 (execSstop t c w s) := by
  unfold execSstop
  try dsimp only
  repeat' first
    | exact hk
    | assumption
    | exact OkNext.fault _
    | with_reducible refine OkNext.next ?_
    | with_reducible apply keeps_modTile
    | with_reducible apply keeps_Iss_accept
    | with_reducible apply keeps_issue
    | with_reducible apply keeps_endHandle
    | split
    | with_reducible refine Keeps.mk_ ?_
    | intro i hk

theorem keeps_execMergeEntryTimeout {s0 : State} (t : Fin 64) (i : Nat) {s : State} (hk : Keeps s0 s) : OkNext s0 (execMergeEntryTimeout t i s) := by
  unfold execMergeEntryTimeout
  try dsimp only
  repeat' first
    | exact hk
    | assumption
    | exact OkNext.fault _
    | with_reducible refine OkNext.next ?_
    | with_reducible apply keeps_flushMerge
    | split

theorem keeps_execTagClaim {s0 : State} (t : Fin 64) (i : Nat) {s : State} (hk : Keeps s0 s) : OkNext s0 (execTagClaim t i s) := by
  unfold execTagClaim
  try dsimp only
  repeat' first
    | exact hk
    | assumption
    | exact OkNext.fault _
    | with_reducible refine OkNext.next ?_
    | with_reducible apply keeps_modTile

theorem keeps_execRemoteWriteArrive {s0 : State} (i : Nat) {s : State} (hk : Keeps s0 s) : OkNext s0 (execRemoteWriteArrive i s) := by
  unfold execRemoteWriteArrive
  split
  · exact .next hk
  refine .ite (.next hk) ?_
  extract_lets s1 y y2 n y3 s2
  have h1 : Keeps s0 s1 := keeps_modTile _ _ hk
  have h2 : Keeps s0 s2 := keeps_setTile _ _ (Keeps.mk_ h1)
  exact .ite (.next h1) (.next (keeps_addDone _ _ _ h2))

theorem keeps_execRemoteReadReturn {s0 : State} (i : Nat) {s : State} (hk : Keeps s0 s) : OkNext s0 (execRemoteReadReturn i s) := by
  unfold execRemoteReadReturn
  try dsimp only
  repeat' first
    | exact hk
    | assumption
    | exact OkNext.fault _
    | with_reducible refine OkNext.next ?_
    | with_reducible apply keeps_modTile
    | with_reducible apply keeps_spadFault
    | split
    | with_reducible refine Keeps.mk_ ?_

theorem keeps_execBarrierRelease {s0 : State} (p : Fin 64) (bar : Fin 16) {s : State} (hk : Keeps s0 s) : OkNext s0 (execBarrierRelease p bar s) := by
  unfold execBarrierRelease
  try dsimp only
  repeat' first
    | exact hk
    | assumption
    | exact OkNext.fault _
    | with_reducible refine OkNext.next ?_
    | with_reducible apply keeps_modTile
    | with_reducible apply keeps_setPart
    | with_reducible apply keeps_boundary
    | with_reducible apply keeps_compositionPoint
    | with_reducible refine Keeps.foldl (fun _ _ _ => ?_) ?_
    | split

theorem keeps_execTokenReadDone {s0 : State} (e : Fin 32768) (tokens : Option (List Word32)) {s : State} (hk : Keeps s0 s) : OkNext s0 (execTokenReadDone e tokens s) := by
  have hf : ∀ {u : State} (p : Nat), Keeps s0 u → OkNext s0 (.next (recomposeWithout u p e (fun s => failRequest s e stBAD_PARAM false))) :=
    fun p h => .next (keeps_recomposeWithout _ _ _ (fun _ k => keeps_failRequest _ _ _ k) h)
  unfold execTokenReadDone
  split
  · exact .next hk
  extract_lets p
  split
  · exact .next hk
  split
  · refine .ite (.next hk) ?_
    split
    · exact hf _ hk
    · exact .ite (.next hk) (.ite (hf _ hk) (.next (keeps_modPart _ _ (keeps_setEntryM _ _ hk))))
  · exact .next hk

theorem keeps_execHsBlockReadDone {s0 : State} (e : Fin 32768) (block : Option (BitVec 2048)) {s : State} (hk : Keeps s0 s) : OkNext s0 (execHsBlockReadDone e block s) := by
  have hf : ∀ {u : State} (p : Nat), Keeps s0 u → OkNext s0 (.next (recomposeWithout u p e (fun s => failRequest s e stBAD_PARAM false))) :=
    fun p h => .next (keeps_recomposeWithout _ _ _ (fun _ k => keeps_failRequest _ _ _ k) h)
  unfold execHsBlockReadDone
  split
  · exact .next hk
  extract_lets p
  split
  · exact .next hk
  split
  · refine .ite (.next hk) ?_
    split
    · exact .ite (.next (keeps_setEntry _ _ hk)) (hf _ hk)
    · exact hf _ hk
  · exact .next hk

theorem keeps_execCompositionDone {s0 : State} (p : Fin 64) {s : State} (hk : Keeps s0 s) : OkNext s0 (execCompositionDone p s) := by
  unfold execCompositionDone
  try dsimp only
  repeat' first
    | exact hk
    | assumption
    | exact OkNext.fault _
    | with_reducible refine OkNext.next ?_
    | with_reducible apply keeps_setPart
    | with_reducible apply keeps_emit
    | with_reducible apply keeps_writeRowMaps
    | with_reducible apply keeps_settleMarks
    | split

theorem keeps_execSteepRelease {s0 : State} (p : Fin 64) {s : State} (hk : Keeps s0 s) : OkNext s0 (execSteepRelease p s) := by
  unfold execSteepRelease
  try dsimp only
  repeat' first
    | exact hk
    | assumption
    | exact OkNext.fault _
    | with_reducible refine OkNext.next ?_
    | with_reducible apply keeps_releaseSteep
    | split

theorem keeps_execNewtHangTimeout {s0 : State} (n : Fin 8) {s : State} (hk : Keeps s0 s) : OkNext s0 (execNewtHangTimeout n s) := by
  unfold execNewtHangTimeout
  try dsimp only
  repeat' first
    | exact hk
    | assumption
    | exact OkNext.fault _
    | with_reducible refine OkNext.next ?_
    | with_reducible apply keeps_loseNewt
    | split

theorem keeps_execNewtSample {s0 : State} (e : Fin 32768) (bad : List Nat) (chk : Check) {s : State} (hk : Keeps s0 s) : OkNext s0 (execNewtSample e bad chk s) := by
  unfold execNewtSample
  try dsimp only
  repeat' first
    | exact hk
    | assumption
    | exact OkNext.fault _
    | with_reducible refine OkNext.next ?_
    | with_reducible apply keeps_setEntry
    | with_reducible apply keeps_caddyRead
    | with_reducible apply keeps_reportRead
    | with_reducible apply keeps_loseNewt
    | with_reducible apply keeps_sampleTokens
    | with_reducible apply keeps_sampleRows
    | split

theorem keeps_execHeadstartFill {s0 : State} (e : Fin 32768) {s : State} (hk : Keeps s0 s) : OkNext s0 (execHeadstartFill e s) := by
  unfold execHeadstartFill
  try dsimp only
  repeat' first
    | exact hk
    | assumption
    | exact OkNext.fault _
    | with_reducible refine OkNext.next ?_
    | with_reducible apply keeps_setPart
    | with_reducible apply keeps_iodCtr
    | with_reducible apply keeps_setEntry
    | with_reducible apply keeps_headFlags
    | with_reducible apply keeps_putRows
    | split

theorem keeps_execHeadstartFillTimeout {s0 : State} (p : Fin 64) {s : State} (hk : Keeps s0 s) : OkNext s0 (execHeadstartFillTimeout p s) := by
  unfold execHeadstartFillTimeout
  try dsimp only
  repeat' first
    | exact hk
    | assumption
    | exact OkNext.fault _
    | with_reducible refine OkNext.next ?_
    | with_reducible apply keeps_iodCtr
    | with_reducible apply keeps_giveUpRows
    | with_reducible refine Keeps.foldl (fun _ _ _ => ?_) ?_
    | split
    | with_reducible refine Keeps.mk_ ?_

theorem keeps_execDraftLimitTick {s0 : State} (waitPermille : Nat) {s : State} (hk : Keeps s0 s) : OkNext s0 (execDraftLimitTick waitPermille s) := by
  unfold execDraftLimitTick
  try dsimp only
  repeat' first
    | exact hk
    | assumption
    | exact OkNext.fault _
    | with_reducible refine OkNext.next ?_
    | with_reducible apply keeps_iodCtr
    | split
    | with_reducible refine Keeps.mk_ ?_

theorem keeps_execDeadlinePassed {s0 : State} (e : Fin 32768) {s : State} (hk : Keeps s0 s) : OkNext s0 (execDeadlinePassed e s) := by
  unfold execDeadlinePassed
  try dsimp only
  repeat' first
    | exact hk
    | assumption
    | exact OkNext.fault _
    | with_reducible refine OkNext.next ?_
    | with_reducible apply keeps_setEntry
    | split

theorem keeps_decodeCmd {s0 : State} (ring : Nat) (op : BitVec 8) (p : Packet) (input : FwInput) {s : State} (hk : Keeps s0 s) : OkNext s0 (decodeCmd s ring op p input) := by
  unfold decodeCmd
  try dsimp only
  repeat' first
    | exact hk
    | assumption
    | exact OkNext.fault _
    | with_reducible refine OkNext.next ?_
    | with_reducible apply keeps_modRing
    | with_reducible apply keeps_sendDelta
    | with_reducible apply keeps_finish
    | with_reducible apply keeps_carryOut
    | refine keeps_sendDelta_eq (by assumption) ?_
    | split
    | with_reducible refine Keeps.mk_ ?_

theorem keeps_execSubmitPrompt {s0 : State} (ring : Nat) (p : Packet) {s : State} (hk : Keeps s0 s) : OkNext s0 (execSubmitPrompt ring p s) := by
  unfold execSubmitPrompt
  try dsimp only
  repeat' first
    | exact hk
    | assumption
    | exact OkNext.fault _
    | with_reducible refine OkNext.next ?_
    | with_reducible apply keeps_decodeCmd

theorem keeps_execCancel {s0 : State} (ring : Nat) (p : Packet) {s : State} (hk : Keeps s0 s) : OkNext s0 (execCancel ring p s) := by
  unfold execCancel
  try dsimp only
  repeat' first
    | exact hk
    | assumption
    | exact OkNext.fault _
    | with_reducible refine OkNext.next ?_
    | with_reducible apply keeps_decodeCmd

theorem keeps_execPause {s0 : State} (ring : Nat) (p : Packet) {s : State} (hk : Keeps s0 s) : OkNext s0 (execPause ring p s) := by
  unfold execPause
  try dsimp only
  repeat' first
    | exact hk
    | assumption
    | exact OkNext.fault _
    | with_reducible refine OkNext.next ?_
    | with_reducible apply keeps_decodeCmd

theorem keeps_execResume {s0 : State} (ring : Nat) (p : Packet) {s : State} (hk : Keeps s0 s) : OkNext s0 (execResume ring p s) := by
  unfold execResume
  try dsimp only
  repeat' first
    | exact hk
    | assumption
    | exact OkNext.fault _
    | with_reducible refine OkNext.next ?_
    | with_reducible apply keeps_decodeCmd

theorem keeps_execSetPriority {s0 : State} (ring : Nat) (p : Packet) {s : State} (hk : Keeps s0 s) : OkNext s0 (execSetPriority ring p s) := by
  unfold execSetPriority
  try dsimp only
  repeat' first
    | exact hk
    | assumption
    | exact OkNext.fault _
    | with_reducible refine OkNext.next ?_
    | with_reducible apply keeps_decodeCmd

theorem keeps_execQueryRequest {s0 : State} (ring : Nat) (p : Packet) (hostOk : Bool) {s : State} (hk : Keeps s0 s) : OkNext s0 (execQueryRequest ring p hostOk s) := by
  unfold execQueryRequest
  try dsimp only
  repeat' first
    | exact hk
    | assumption
    | exact OkNext.fault _
    | with_reducible refine OkNext.next ?_
    | with_reducible apply keeps_decodeCmd

theorem keeps_execPrefixPin {s0 : State} (ring : Nat) (p : Packet) {s : State} (hk : Keeps s0 s) : OkNext s0 (execPrefixPin ring p s) := by
  unfold execPrefixPin
  try dsimp only
  repeat' first
    | exact hk
    | assumption
    | exact OkNext.fault _
    | with_reducible refine OkNext.next ?_
    | with_reducible apply keeps_decodeCmd

theorem keeps_execPrefixUnpin {s0 : State} (ring : Nat) (p : Packet) {s : State} (hk : Keeps s0 s) : OkNext s0 (execPrefixUnpin ring p s) := by
  unfold execPrefixUnpin
  try dsimp only
  repeat' first
    | exact hk
    | assumption
    | exact OkNext.fault _
    | with_reducible refine OkNext.next ?_
    | with_reducible apply keeps_decodeCmd

theorem keeps_execNop {s0 : State} (ring : Nat) (p : Packet) {s : State} (hk : Keeps s0 s) : OkNext s0 (execNop ring p s) := by
  unfold execNop
  try dsimp only
  repeat' first
    | exact hk
    | assumption
    | exact OkNext.fault _
    | with_reducible refine OkNext.next ?_
    | with_reducible apply keeps_decodeCmd

theorem keeps_execUnknownOpcodeCommand {s0 : State} (ring : Nat) (opcode : BitVec 8) (p : Packet) {s : State} (hk : Keeps s0 s) : OkNext s0 (execUnknownOpcodeCommand ring opcode p s) := by
  unfold execUnknownOpcodeCommand
  try dsimp only
  repeat' first
    | exact hk
    | assumption
    | exact OkNext.fault _
    | with_reducible refine OkNext.next ?_
    | with_reducible apply keeps_decodeCmd
    | split

theorem keeps_execDomainSwitchClose {s0 : State}  {s : State} (hk : Keeps s0 s) : OkNext s0 (execDomainSwitchClose s) := by
  unfold execDomainSwitchClose
  try dsimp only
  repeat' first
    | exact hk
    | assumption
    | exact OkNext.fault _
    | with_reducible refine OkNext.next ?_
    | with_reducible apply keeps_domainsUp
    | with_reducible apply keeps_arriveState
    | with_reducible refine Keeps.foldl (fun _ _ _ => ?_) ?_
    | split
    | with_reducible refine Keeps.mk_ ?_

theorem keeps_execStateDwellExpiry {s0 : State} (scope : PwrScope) {s : State} (hk : Keeps s0 s) : OkNext s0 (execStateDwellExpiry scope s) := by
  unfold execStateDwellExpiry
  try dsimp only
  repeat' first
    | exact hk
    | assumption
    | exact OkNext.fault _
    | with_reducible refine OkNext.next ?_
    | with_reducible apply keeps_dwellPart
    | with_reducible apply keeps_dwellDevice
    | split

theorem keeps_execWakeEvent {s0 : State} (scope : PwrScope) (source : BitVec 8) {s : State} (hk : Keeps s0 s) : OkNext s0 (execWakeEvent scope source s) := by
  unfold execWakeEvent
  try dsimp only
  repeat' first
    | exact hk
    | assumption
    | exact OkNext.fault _
    | with_reducible refine OkNext.next ?_
    | with_reducible apply keeps_wakePart
    | with_reducible apply keeps_wakeDevice
    | split

theorem keeps_execPowerCapTick {s0 : State} (i : InputSample) {s : State} (hk : Keeps s0 s) : OkNext s0 (execPowerCapTick i s) := by
  unfold execPowerCapTick
  try dsimp only
  repeat' first
    | exact hk
    | assumption
    | exact OkNext.fault _
    | with_reducible refine OkNext.next ?_
    | with_reducible apply keeps_finish
    | with_reducible apply keeps_markThrottled
    | with_reducible refine Keeps.foldl (fun _ _ _ => ?_) ?_
    | split
    | with_reducible refine Keeps.mk_ ?_

theorem keeps_execDieHot {s0 : State}  {s : State} (hk : Keeps s0 s) : OkNext s0 (execDieHot s) := by
  unfold execDieHot
  try dsimp only
  repeat' first
    | exact hk
    | assumption
    | exact OkNext.fault _
    | with_reducible refine OkNext.next ?_
    | with_reducible apply keeps_hotAssert

theorem keeps_execDieHotClearTimeout {s0 : State}  {s : State} (hk : Keeps s0 s) : OkNext s0 (execDieHotClearTimeout s) := by
  unfold execDieHotClearTimeout
  try dsimp only
  repeat' first
    | exact hk
    | assumption
    | exact OkNext.fault _
    | with_reducible refine OkNext.next ?_
    | split
    | with_reducible refine Keeps.mk_ ?_

theorem keeps_execPwrBrakeN {s0 : State} (low : Bool) {s : State} (hk : Keeps s0 s) : OkNext s0 (execPwrBrakeN low s) := by
  unfold execPwrBrakeN
  try dsimp only
  repeat' first
    | exact hk
    | assumption
    | exact OkNext.fault _
    | with_reducible refine OkNext.next ?_
    | with_reducible apply keeps_slowDown
    | split
    | with_reducible refine Keeps.mk_ ?_

theorem keeps_execCurrentLimit {s0 : State}  {s : State} (hk : Keeps s0 s) : OkNext s0 (execCurrentLimit s) := by
  unfold execCurrentLimit
  try dsimp only
  repeat' first
    | exact hk
    | assumption
    | exact OkNext.fault _
    | with_reducible refine OkNext.next ?_
    | with_reducible apply keeps_slowDown
    | split
    | with_reducible refine Keeps.mk_ ?_

theorem keeps_execCurrentLimitTimeout {s0 : State}  {s : State} (hk : Keeps s0 s) : OkNext s0 (execCurrentLimitTimeout s) := by
  unfold execCurrentLimitTimeout
  try dsimp only
  repeat' first
    | exact hk
    | assumption
    | exact OkNext.fault _
    | with_reducible refine OkNext.next ?_
    | with_reducible apply keeps_tripModule
    | split

theorem keeps_execCurrentLimitRelease {s0 : State}  {s : State} (hk : Keeps s0 s) : OkNext s0 (execCurrentLimitRelease s) := by
  unfold execCurrentLimitRelease
  try dsimp only
  repeat' first
    | exact hk
    | assumption
    | exact OkNext.fault _
    | with_reducible refine OkNext.next ?_
    | with_reducible refine Keeps.mk_ ?_

theorem keeps_execThermalSample {s0 : State} (x : Temps) {s : State} (hk : Keeps s0 s) : OkNext s0 (execThermalSample x s) := by
  unfold execThermalSample
  extract_lets tj hot w psi m1 s1 s2 p3 s3 m4 s4
  have h1 : Keeps s0 s1 := Keeps.mk_ hk
  have h2 : Keeps s0 s2 := .ite (keeps_setAlert _ h1) (.ite (keeps_setAlert _ h1) h1)
  have h3 : Keeps s0 s3 := .ite (.ite h2 (keeps_hotAssert h2)) (.ite (Keeps.mk_ h2) h2)
  have h4 : Keeps s0 s4 := .ite (Keeps.mk_ h3) h3
  exact OkNext.next (.ite (keeps_tripModule _ h4) h4)

theorem keeps_execVinOutOfWindow {s0 : State} (mv : Int) {s : State} (hk : Keeps s0 s) : OkNext s0 (execVinOutOfWindow mv s) := by
  unfold execVinOutOfWindow
  try dsimp only
  repeat' first
    | exact hk
    | assumption
    | exact OkNext.fault _
    | with_reducible refine OkNext.next ?_
    | with_reducible apply keeps_tripModule
    | with_reducible apply keeps_supplyLost
    | split
    | with_reducible refine Keeps.mk_ ?_

theorem keeps_execVinBackInside {s0 : State} (mv : Int) {s : State} (hk : Keeps s0 s) : OkNext s0 (execVinBackInside mv s) := by
  unfold execVinBackInside
  try dsimp only
  repeat' first
    | exact hk
    | assumption
    | exact OkNext.fault _
    | with_reducible refine OkNext.next ?_
    | split
    | with_reducible refine Keeps.mk_ ?_

theorem keeps_execRailFault {s0 : State}  {s : State} (hk : Keeps s0 s) : OkNext s0 (execRailFault s) := by
  unfold execRailFault
  try dsimp only
  repeat' first
    | exact hk
    | assumption
    | exact OkNext.fault _
    | with_reducible refine OkNext.next ?_
    | with_reducible apply keeps_emit
    | with_reducible apply keeps_tripModule
    | split
    | with_reducible refine Keeps.mk_ ?_

theorem keeps_execLeak {s0 : State}  {s : State} (hk : Keeps s0 s) : OkNext s0 (execLeak s) := by
  unfold execLeak
  try dsimp only
  repeat' first
    | exact hk
    | assumption
    | exact OkNext.fault _
    | with_reducible refine OkNext.next ?_
    | with_reducible apply keeps_tripModule
    | with_reducible apply keeps_setAlert
    | split
    | with_reducible refine Keeps.mk_ ?_

theorem keeps_execLeakNHigh {s0 : State}  {s : State} (hk : Keeps s0 s) : OkNext s0 (execLeakNHigh s) := by
  unfold execLeakNHigh
  try dsimp only
  repeat' first
    | exact hk
    | assumption
    | exact OkNext.fault _
    | with_reducible refine OkNext.next ?_
    | split
    | with_reducible refine Keeps.mk_ ?_

theorem keeps_execWakeNExternal {s0 : State}  {s : State} (hk : Keeps s0 s) : OkNext s0 (execWakeNExternal s) := by
  unfold execWakeNExternal
  try dsimp only
  repeat' first
    | exact hk
    | assumption
    | exact OkNext.fault _
    | with_reducible refine OkNext.next ?_
    | with_reducible apply keeps_wakeDevice
    | with_reducible refine Keeps.mk_ ?_

theorem keeps_execAlarmFire {s0 : State} (i : Fin 4) {s : State} (hk : Keeps s0 s) : OkNext s0 (execAlarmFire i s) := by
  unfold execAlarmFire
  try dsimp only
  repeat' first
    | exact hk
    | assumption
    | exact OkNext.fault _
    | with_reducible refine OkNext.next ?_
    | with_reducible apply keeps_wakeDevice
    | split
    | with_reducible refine Keeps.mk_ ?_

theorem keeps_execPmeTurnOff {s0 : State}  {s : State} (hk : Keeps s0 s) : OkNext s0 (execPmeTurnOff s) := by
  unfold execPmeTurnOff
  try dsimp only
  repeat' first
    | exact hk
    | assumption
    | exact OkNext.fault _
    | with_reducible refine OkNext.next ?_
    | with_reducible apply keeps_emit
    | with_reducible refine Keeps.mk_ ?_

theorem keeps_execPinTestTimer {s0 : State} (above2V : Bool) (bridged : List (Fin 21)) {s : State} (hk : Keeps s0 s) : OkNext s0 (execPinTestTimer above2V bridged s) := by
  unfold execPinTestTimer
  try dsimp only
  repeat' first
    | exact hk
    | assumption
    | exact OkNext.fault _
    | with_reducible refine OkNext.next ?_
    | with_reducible apply keeps_pinFinding
    | with_reducible apply keeps_pinCleared
    | with_reducible refine Keeps.foldl (fun _ _ _ => ?_) ?_
    | split
    | with_reducible refine Keeps.mk_ ?_

theorem keeps_execPinReadbackMismatch {s0 : State} (pin : Fin 21) {s : State} (hk : Keeps s0 s) : OkNext s0 (execPinReadbackMismatch pin s) := by
  unfold execPinReadbackMismatch
  try dsimp only
  repeat' first
    | exact hk
    | assumption
    | exact OkNext.fault _
    | with_reducible refine OkNext.next ?_
    | with_reducible apply keeps_pinFinding
    | split

theorem keeps_execSmbusHeldLowTimeout {s0 : State} (pin : Fin 2) {s : State} (hk : Keeps s0 s) : OkNext s0 (execSmbusHeldLowTimeout pin s) := by
  unfold execSmbusHeldLowTimeout
  try dsimp only
  repeat' first
    | exact hk
    | assumption
    | exact OkNext.fault _
    | with_reducible refine OkNext.next ?_
    | with_reducible apply keeps_pinFinding

theorem keeps_execSidebandHeldTimeout {s0 : State} (pin : Fin 21) {s : State} (hk : Keeps s0 s) : OkNext s0 (execSidebandHeldTimeout pin s) := by
  unfold execSidebandHeldTimeout
  try dsimp only
  repeat' first
    | exact hk
    | assumption
    | exact OkNext.fault _
    | with_reducible refine OkNext.next ?_
    | with_reducible apply keeps_pinFinding
    | split
    | with_reducible refine Keeps.mk_ ?_

theorem keeps_execRefclkLoss {s0 : State}  {s : State} (hk : Keeps s0 s) : OkNext s0 (execRefclkLoss s) := by
  unfold execRefclkLoss
  try dsimp only
  repeat' first
    | exact hk
    | assumption
    | exact OkNext.fault _
    | with_reducible refine OkNext.next ?_
    | with_reducible apply keeps_pinFinding
    | with_reducible refine Keeps.mk_ ?_

theorem keeps_execRegisterWrite {s0 : State} (fn : Fin 65) (offset : Nat) (be : BitVec 8) (v : Word64) {s : State} (hk : Keeps s0 s) : OkNext s0 (execRegisterWrite fn offset be v s) := by
  unfold execRegisterWrite
  try dsimp only
  repeat' first
    | exact hk
    | assumption
    | exact OkNext.fault _
    | with_reducible refine OkNext.next ?_
    | with_reducible apply keeps_regWrite
    | split

theorem keeps_execRingEnable {s0 : State} (fn : Fin 65) (index : Nat) (v : Word64) {s : State} (hk : Keeps s0 s) : OkNext s0 (execRingEnable fn index v s) := by
  unfold execRingEnable
  try dsimp only
  repeat' first
    | exact hk
    | assumption
    | exact OkNext.fault _
    | with_reducible refine OkNext.next ?_
    | with_reducible apply keeps_regWrite
    | split

theorem keeps_execRingDisable {s0 : State} (fn : Fin 65) (index : Nat) (v : Word64) {s : State} (hk : Keeps s0 s) : OkNext s0 (execRingDisable fn index v s) := by
  unfold execRingDisable
  try dsimp only
  repeat' first
    | exact hk
    | assumption
    | exact OkNext.fault _
    | with_reducible refine OkNext.next ?_
    | with_reducible apply keeps_regWrite
    | split

theorem keeps_execPairedLowWrite {s0 : State} (fn : Fin 65) (offset : Nat) (v : Word32) {s : State} (hk : Keeps s0 s) : OkNext s0 (execPairedLowWrite fn offset v s) := by
  unfold execPairedLowWrite
  try dsimp only
  repeat' first
    | exact hk
    | assumption
    | exact OkNext.fault _
    | with_reducible refine OkNext.next ?_
    | with_reducible apply keeps_regWrite
    | split

theorem keeps_execPortUnfence {s0 : State} (port : Fin 18) {s : State} (hk : Keeps s0 s) : OkNext s0 (execPortUnfence port s) := by
  unfold execPortUnfence
  try dsimp only
  repeat' first
    | exact hk
    | assumption
    | exact OkNext.fault _
    | with_reducible refine OkNext.next ?_
    | with_reducible apply keeps_regWrite
    | split

theorem keeps_execKettleOff {s0 : State}  {s : State} (hk : Keeps s0 s) : OkNext s0 (execKettleOff s) := by
  unfold execKettleOff
  try dsimp only
  repeat' first
    | exact hk
    | assumption
    | exact OkNext.fault _
    | with_reducible refine OkNext.next ?_
    | with_reducible apply keeps_regWrite
    | split

theorem keeps_execCounterLowRead {s0 : State} (fn : Fin 65) (offset : Nat) {s : State} (hk : Keeps s0 s) : OkNext s0 (execCounterLowRead fn offset s) := by
  unfold execCounterLowRead
  try dsimp only
  repeat' first
    | exact hk
    | assumption
    | exact OkNext.fault _
    | with_reducible refine OkNext.next ?_
    | with_reducible apply keeps_counterRead
    | split

theorem keeps_execUnmappedRead {s0 : State} (fn : Fin 65) (r : WindowRead) {s : State} (hk : Keeps s0 s) : OkNext s0 (execUnmappedRead fn r s) := by
  unfold execUnmappedRead
  try dsimp only
  repeat' first
    | exact hk
    | assumption
    | exact OkNext.fault _
    | with_reducible refine OkNext.next ?_
    | with_reducible apply keeps_regRead
    | with_reducible apply keeps_bar2Read
    | with_reducible refine Keeps.foldl (fun _ _ _ => ?_) ?_
    | split

theorem keeps_execBar4Access {s0 : State} (vf : Fin 64) (offset : Nat) (be : List Bool) (write : Option (List Byte)) {s : State} (hk : Keeps s0 s) : OkNext s0 (execBar4Access vf offset be write s) := by
  unfold execBar4Access
  try dsimp only
  repeat' first
    | exact hk
    | assumption
    | exact OkNext.fault _
    | with_reducible refine OkNext.next ?_
    | with_reducible apply keeps_errAccess
    | with_reducible apply keeps_emit
    | with_reducible apply keeps_wakeDevice
    | with_reducible apply keeps_bar4Read
    | with_reducible apply keeps_bar4Write
    | with_reducible apply keeps_waitCredit
    | split

theorem keeps_execDoorbellWrite {s0 : State} (fn : Fin 65) (offset : Nat) (be : BitVec 8) (v : Word64) {s : State} (hk : Keeps s0 s) : OkNext s0 (execDoorbellWrite fn offset be v s) := by
  unfold execDoorbellWrite
  try dsimp only
  repeat' first
    | exact hk
    | assumption
    | exact OkNext.fault _
    | with_reducible refine OkNext.next ?_
    | with_reducible apply keeps_doorbellPart
    | split

theorem keeps_execPushWrite {s0 : State} (fn : Fin 65) (offset : Nat) (bytes : List Byte) {s : State} (hk : Keeps s0 s) :
    OkNext s0 (execPushWrite fn offset bytes s) := by
  unfold execPushWrite
  refine .ite (.next hk) ?_
  extract_lets a
  generalize pushPart s fn = bl
  obtain ⟨base, len⟩ := bl
  dsimp -zeta only
  extract_lets inPart s1 hit push s2 rings s3
  have h1 : Keeps s0 s1 := .ite (keeps_errAccess _ _ _ _ hk) hk
  have hw : ∀ (l : List (Nat × Byte)) (m : SMap 8), Memory.wf m = true →
      Memory.wf (l.foldl (fun m q => if (hit q.1).isSome then m else smSet m (base + a + q.1) q.2) m) = true := by
    intro l
    induction l with
    | nil => exact fun _ h => h
    | cons q r ih =>
      intro m h
      refine ih _ ?_
      dsimp only
      split
      · exact h
      · exact wf_smSet _ _ _ h
  have h2 : Keeps s0 s2 := ⟨h1.pending, fun q => ⟨hw _ _ (h1.stores q).push, (h1.stores q).logLen, (h1.stores q).logOrder, (h1.stores q).logSeq⟩⟩
  have h3 : Keeps s0 s3 := Keeps.foldl (fun _ _ h => keeps_modRing _ _ h) h2
  refine .next ?_
  split
  · exact keeps_errAccess _ _ _ _ h3
  · exact h3

theorem keeps_execPullFetchDone {s0 : State} (ring : Nat) (entries : Option (List (BitVec 512))) {s : State} (hk : Keeps s0 s) : OkNext s0 (execPullFetchDone ring entries s) := by
  unfold execPullFetchDone
  try dsimp only
  repeat' first
    | exact hk
    | assumption
    | exact OkNext.fault _
    | with_reducible refine OkNext.next ?_
    | with_reducible apply keeps_emits
    | with_reducible apply keeps_modRing
    | with_reducible apply keeps_fetchError
    | split

theorem keeps_execCompletionWrite {s0 : State} (ring : Nat) (hostOk : Bool) {s : State} (hk : Keeps s0 s) : OkNext s0 (execCompletionWrite ring hostOk s) := by
  unfold execCompletionWrite
  try dsimp only
  repeat' first
    | exact hk
    | assumption
    | exact OkNext.fault _
    | with_reducible refine OkNext.next ?_
    | with_reducible apply keeps_emit
    | with_reducible apply keeps_modRing
    | with_reducible apply keeps_settleInt
    | with_reducible apply keeps_fetchError
    | with_reducible apply keeps_releaseEntry
    | split

theorem keeps_execInterruptAgeExpiry {s0 : State} (ring : Nat) {s : State} (hk : Keeps s0 s) : OkNext s0 (execInterruptAgeExpiry ring s) := by
  unfold execInterruptAgeExpiry
  try dsimp only
  repeat' first
    | exact hk
    | assumption
    | exact OkNext.fault _
    | with_reducible refine OkNext.next ?_
    | with_reducible apply keeps_raiseInt
    | split

theorem keeps_execPourRecordWrite {s0 : State} (p : Fin 64) (tgt : Fin 1024) (input : RecordInput) {s : State} (hk : Keeps s0 s) : OkNext s0 (execPourRecordWrite p tgt input s) := by
  unfold execPourRecordWrite
  try dsimp only
  repeat' first
    | exact hk
    | assumption
    | exact OkNext.fault _
    | with_reducible refine OkNext.next ?_
    | with_reducible apply keeps_emit
    | with_reducible apply keeps_errTarget
    | with_reducible apply keeps_writeRecord
    | split

theorem keeps_execConsumedPoll {s0 : State} (p : Fin 64) (tgt : Fin 1024) {s : State} (hk : Keeps s0 s) : OkNext s0 (execConsumedPoll p tgt s) := by
  unfold execConsumedPoll
  try dsimp only
  repeat' first
    | exact hk
    | assumption
    | exact OkNext.fault _
    | with_reducible refine OkNext.next ?_
    | with_reducible apply keeps_emit
    | split

theorem keeps_execCommitAck {s0 : State} (p : Fin 64) (tgt : Fin 1024) {s : State} (hk : Keeps s0 s) : OkNext s0 (execCommitAck p tgt s) := by
  unfold execCommitAck
  try dsimp only
  repeat' first
    | exact hk
    | assumption
    | exact OkNext.fault _
    | with_reducible refine OkNext.next ?_
    | with_reducible apply keeps_ackCommit
    | split

theorem keeps_execControlBlockRead {s0 : State} (p : Fin 64) (tgt : Fin 1024) (block : Option (BitVec 512)) {s : State} (hk : Keeps s0 s) : OkNext s0 (execControlBlockRead p tgt block s) := by
  unfold execControlBlockRead
  try dsimp only
  repeat' first
    | exact hk
    | assumption
    | exact OkNext.fault _
    | with_reducible refine OkNext.next ?_
    | with_reducible apply keeps_modTarget
    | with_reducible apply keeps_errTarget
    | with_reducible apply keeps_ackCommit
    | split

theorem keeps_execResultWriteDone {s0 : State} (e : Fin 32768) (ok : Bool) {s : State} (hk : Keeps s0 s) : OkNext s0 (execResultWriteDone e ok s) := by
  unfold execResultWriteDone
  try dsimp only
  repeat' first
    | exact hk
    | assumption
    | exact OkNext.fault _
    | with_reducible refine OkNext.next ?_
    | with_reducible apply keeps_emit
    | with_reducible apply keeps_setEntry
    | with_reducible apply keeps_tryDone
    | with_reducible apply keeps_errTarget
    | with_reducible apply keeps_sendBytes
    | split

theorem keeps_execTargetNak {s0 : State} (p : Fin 64) (tgt : Fin 1024) (cause : Fin 3) {s : State} (hk : Keeps s0 s) : OkNext s0 (execTargetNak p tgt cause s) := by
  unfold execTargetNak
  try dsimp only
  repeat' first
    | exact hk
    | assumption
    | exact OkNext.fault _
    | with_reducible refine OkNext.next ?_
    | with_reducible apply keeps_errTarget
    | split

theorem keeps_execTransportAckTimeout {s0 : State} (p : Fin 64) (tgt : Fin 1024) {s : State} (hk : Keeps s0 s) : OkNext s0 (execTransportAckTimeout p tgt s) := by
  unfold execTransportAckTimeout
  try dsimp only
  repeat' first
    | exact hk
    | assumption
    | exact OkNext.fault _
    | with_reducible refine OkNext.next ?_
    | with_reducible apply keeps_emit
    | with_reducible apply keeps_modTarget
    | with_reducible apply keeps_movePair
    | split

theorem keeps_execCnpReceived {s0 : State} (p : Fin 64) (tgt : Fin 1024) {s : State} (hk : Keeps s0 s) : OkNext s0 (execCnpReceived p tgt s) := by
  unfold execCnpReceived
  try dsimp only
  repeat' first
    | exact hk
    | assumption
    | exact OkNext.fault _
    | with_reducible refine OkNext.next ?_
    | with_reducible apply keeps_modTarget

theorem keeps_execRnrNak {s0 : State} (p : Fin 64) (tgt : Fin 1024) {s : State} (hk : Keeps s0 s) : OkNext s0 (execRnrNak p tgt s) := by
  unfold execRnrNak
  try dsimp only
  repeat' first
    | exact hk
    | assumption
    | exact OkNext.fault _
    | with_reducible refine OkNext.next ?_
    | with_reducible apply keeps_modTarget

theorem keeps_execRnrTimerExpiry {s0 : State} (p : Fin 64) (tgt : Fin 1024) {s : State} (hk : Keeps s0 s) : OkNext s0 (execRnrTimerExpiry p tgt s) := by
  unfold execRnrTimerExpiry
  try dsimp only
  repeat' first
    | exact hk
    | assumption
    | exact OkNext.fault _
    | with_reducible refine OkNext.next ?_
    | with_reducible apply keeps_emit
    | with_reducible apply keeps_modTarget
    | split

theorem keeps_execPourPortFail {s0 : State} (port : Fin 4) {s : State} (hk : Keeps s0 s) : OkNext s0 (execPourPortFail port s) := by
  unfold execPourPortFail
  try dsimp only
  repeat' first
    | exact hk
    | assumption
    | exact OkNext.fault _
    | with_reducible refine OkNext.next ?_
    | with_reducible apply keeps_faultLog
    | with_reducible apply keeps_movePair
    | with_reducible refine Keeps.foldl (fun _ _ _ => ?_) ?_
    | split
    | with_reducible refine Keeps.mk_ ?_

theorem keeps_execPourPortReturn {s0 : State} (port : Fin 4) {s : State} (hk : Keeps s0 s) : OkNext s0 (execPourPortReturn port s) := by
  unfold execPourPortReturn
  try dsimp only
  repeat' first
    | exact hk
    | assumption
    | exact OkNext.fault _
    | with_reducible refine OkNext.next ?_
    | split
    | with_reducible refine Keeps.mk_ ?_

theorem keeps_execPourTargetAdd {s0 : State} (ring : Nat) (p : Packet) {s : State} (hk : Keeps s0 s) : OkNext s0 (execPourTargetAdd ring p s) := by
  unfold execPourTargetAdd
  try dsimp only
  repeat' first
    | exact hk
    | assumption
    | exact OkNext.fault _
    | with_reducible refine OkNext.next ?_
    | with_reducible apply keeps_decodeCmd

theorem keeps_execPourTargetRemove {s0 : State} (ring : Nat) (p : Packet) {s : State} (hk : Keeps s0 s) : OkNext s0 (execPourTargetRemove ring p s) := by
  unfold execPourTargetRemove
  try dsimp only
  repeat' first
    | exact hk
    | assumption
    | exact OkNext.fault _
    | with_reducible refine OkNext.next ?_
    | with_reducible apply keeps_decodeCmd

theorem keeps_execPartitionCreate {s0 : State} (ring : Nat) (p : Packet) {s : State} (hk : Keeps s0 s) : OkNext s0 (execPartitionCreate ring p s) := by
  unfold execPartitionCreate
  try dsimp only
  repeat' first
    | exact hk
    | assumption
    | exact OkNext.fault _
    | with_reducible refine OkNext.next ?_
    | with_reducible apply keeps_decodeCmd

theorem keeps_execPartitionDestroy {s0 : State} (ring : Nat) (p : Packet) {s : State} (hk : Keeps s0 s) : OkNext s0 (execPartitionDestroy ring p s) := by
  unfold execPartitionDestroy
  try dsimp only
  repeat' first
    | exact hk
    | assumption
    | exact OkNext.fault _
    | with_reducible refine OkNext.next ?_
    | with_reducible apply keeps_decodeCmd

theorem keeps_execTenantConfigure {s0 : State} (ring : Nat) (p : Packet) {s : State} (hk : Keeps s0 s) : OkNext s0 (execTenantConfigure ring p s) := by
  unfold execTenantConfigure
  try dsimp only
  repeat' first
    | exact hk
    | assumption
    | exact OkNext.fault _
    | with_reducible refine OkNext.next ?_
    | with_reducible apply keeps_decodeCmd

theorem keeps_execModelLoad {s0 : State} (ring : Nat) (p : Packet) (rd : ImageRead) {s : State} (hk : Keeps s0 s) : OkNext s0 (execModelLoad ring p rd s) := by
  unfold execModelLoad
  try dsimp only
  repeat' first
    | exact hk
    | assumption
    | exact OkNext.fault _
    | with_reducible refine OkNext.next ?_
    | with_reducible apply keeps_decodeCmd

theorem keeps_execModelUnload {s0 : State} (ring : Nat) (p : Packet) {s : State} (hk : Keeps s0 s) : OkNext s0 (execModelUnload ring p s) := by
  unfold execModelUnload
  try dsimp only
  repeat' first
    | exact hk
    | assumption
    | exact OkNext.fault _
    | with_reducible refine OkNext.next ?_
    | with_reducible apply keeps_decodeCmd

theorem keeps_execHelloTimer {s0 : State}  {s : State} (hk : Keeps s0 s) : OkNext s0 (execHelloTimer s) := by
  unfold execHelloTimer
  try dsimp only
  repeat' first
    | exact hk
    | assumption
    | exact OkNext.fault _
    | with_reducible refine OkNext.next ?_
    | with_reducible apply keeps_emits

theorem keeps_execHello {s0 : State} (port : Fin 16) (id : BitVec 64) (peerPort : Fin 32) (epoch : BitVec 16) (isSwitch : Bool) {s : State} (hk : Keeps s0 s) : OkNext s0 (execHello port id peerPort epoch isSwitch s) := by
  unfold execHello
  try dsimp only
  repeat' first
    | exact hk
    | assumption
    | exact OkNext.fault _
    | with_reducible refine OkNext.next ?_
    | with_reducible apply keeps_modPort
    | with_reducible apply keeps_trySearch
    | with_reducible apply keeps_startSearch
    | split

theorem keeps_execEpochMessage {s0 : State} (epoch : BitVec 16) {s : State} (hk : Keeps s0 s) : OkNext s0 (execEpochMessage epoch s) := by
  unfold execEpochMessage
  try dsimp only
  repeat' first
    | exact hk
    | assumption
    | exact OkNext.fault _
    | with_reducible refine OkNext.next ?_
    | with_reducible apply keeps_startSearch
    | split

theorem keeps_execNeighbourTable {s0 : State} (id : BitVec 64) (isSwitch : Bool) (nbrs : List Neighbour) {s : State} (hk : Keeps s0 s) : OkNext s0 (execNeighbourTable id isSwitch nbrs s) := by
  unfold execNeighbourTable
  try dsimp only
  repeat' first
    | exact hk
    | assumption
    | exact OkNext.fault _
    | with_reducible refine OkNext.next ?_
    | with_reducible apply keeps_trySearch
    | split
    | with_reducible refine Keeps.mk_ ?_

theorem keeps_execPrepare {s0 : State} (epoch : BitVec 16) {s : State} (hk : Keeps s0 s) : OkNext s0 (execPrepare epoch s) := by
  unfold execPrepare
  try dsimp only
  repeat' first
    | exact hk
    | assumption
    | exact OkNext.fault _
    | with_reducible refine OkNext.next ?_
    | with_reducible apply keeps_emit
    | split
    | with_reducible refine Keeps.mk_ ?_

theorem keeps_execPrepareConfirmation {s0 : State} (id : BitVec 64) (epoch : BitVec 16) {s : State} (hk : Keeps s0 s) : OkNext s0 (execPrepareConfirmation id epoch s) := by
  unfold execPrepareConfirmation
  try dsimp only
  repeat' first
    | exact hk
    | assumption
    | exact OkNext.fault _
    | with_reducible refine OkNext.next ?_
    | with_reducible apply keeps_emit
    | with_reducible apply keeps_install
    | split
    | with_reducible refine Keeps.mk_ ?_

theorem keeps_execCommit {s0 : State} (epoch : BitVec 16) (modules : List (BitVec 64)) (switches : List (BitVec 64)) (routes : List Route) {s : State} (hk : Keeps s0 s) : OkNext s0 (execCommit epoch modules switches routes s) := by
  unfold execCommit
  try dsimp only
  repeat' first
    | exact hk
    | assumption
    | exact OkNext.fault _
    | with_reducible refine OkNext.next ?_
    | with_reducible apply keeps_install
    | split

theorem keeps_execFabricLinkPacket {s0 : State} (port : Fin 18) (header : BitVec 128) (payload : List Byte) {s : State} (hk : Keeps s0 s) : OkNext s0 (execFabricLinkPacket port header payload s) := by
  unfold execFabricLinkPacket
  try dsimp only
  repeat' first
    | exact hk
    | assumption
    | exact OkNext.fault _
    | with_reducible refine OkNext.next ?_
    | with_reducible apply keeps_emit
    | with_reducible apply keeps_modPort
    | with_reducible apply keeps_sendOn
    | with_reducible apply keeps_linkAck
    | split

theorem keeps_execLinkRetransmitTimeout {s0 : State} (port : Fin 18) (vc : Fin 4) {s : State} (hk : Keeps s0 s) : OkNext s0 (execLinkRetransmitTimeout port vc s) := by
  unfold execLinkRetransmitTimeout
  try dsimp only
  repeat' first
    | exact hk
    | assumption
    | exact OkNext.fault _
    | with_reducible refine OkNext.next ?_
    | with_reducible apply keeps_resend
    | split

theorem keeps_execSPortStateChange {s0 : State} (port : Fin 16) (up : Bool) {s : State} (hk : Keeps s0 s) : OkNext s0 (execSPortStateChange port up s) := by
  unfold execSPortStateChange
  try dsimp only
  repeat' first
    | exact hk
    | assumption
    | exact OkNext.fault _
    | with_reducible refine OkNext.next ?_
    | with_reducible apply keeps_portDown
    | with_reducible apply keeps_portRise
    | with_reducible apply keeps_trained
    | split

theorem keeps_execGroupFormTimeout {s0 : State} (g : Fin 16) {s : State} (hk : Keeps s0 s) : OkNext s0 (execGroupFormTimeout g s) := by
  unfold execGroupFormTimeout
  try dsimp only
  repeat' first
    | exact hk
    | assumption
    | exact OkNext.fault _
    | with_reducible refine OkNext.next ?_
    | with_reducible apply keeps_freeGroup
    | split

theorem keeps_execInPassingReduction {s0 : State} (g : Fin 16) (joined : Nat) (sums : List Word32) {s : State} (hk : Keeps s0 s) : OkNext s0 (execInPassingReduction g joined sums s) := by
  unfold execInPassingReduction
  try dsimp only
  repeat' first
    | exact hk
    | assumption
    | exact OkNext.fault _
    | with_reducible refine OkNext.next ?_
    | with_reducible apply keeps_finish
    | with_reducible apply keeps_idleCompose
    | with_reducible apply keeps_freeGroup
    | split
    | with_reducible refine Keeps.mk_ ?_

theorem keeps_execLagExchangeTimer {s0 : State} (g : Fin 16) (totals : List (Nat × Nat)) {s : State} (hk : Keeps s0 s) : OkNext s0 (execLagExchangeTimer g totals s) := by
  unfold execLagExchangeTimer
  try dsimp only
  repeat' first
    | exact hk
    | assumption
    | exact OkNext.fault _
    | with_reducible refine OkNext.next ?_
    | with_reducible apply keeps_emits
    | with_reducible refine Keeps.foldl (fun _ _ _ => ?_) ?_
    | split
    | with_reducible refine Keeps.mk_ ?_

theorem keeps_execFabricRecordSend {s0 : State} (t : Fin 64) (base : BitVec 16) {s : State} (hk : Keeps s0 s) : OkNext s0 (execFabricRecordSend t base s) := by
  unfold execFabricRecordSend
  try dsimp only
  repeat' first
    | exact hk
    | assumption
    | exact OkNext.fault _
    | with_reducible refine OkNext.next ?_
    | with_reducible apply keeps_setTile
    | with_reducible apply keeps_abortSteep
    | with_reducible apply keeps_spadFault
    | with_reducible apply keeps_launch
    | split

theorem keeps_execFabricRecordDeliver {s0 : State} (t : Fin 64) (record : List Byte) {s : State} (hk : Keeps s0 s) : OkNext s0 (execFabricRecordDeliver t record s) := by
  unfold execFabricRecordDeliver
  try dsimp only
  repeat' first
    | exact hk
    | assumption
    | exact OkNext.fault _
    | with_reducible refine OkNext.next ?_
    | with_reducible apply keeps_setTile
    | with_reducible apply keeps_chargeWait
    | split

theorem keeps_execLockstepPageCount {s0 : State} (p : Fin 64) (rank : Nat) (free : Nat) {s : State} (hk : Keeps s0 s) : OkNext s0 (execLockstepPageCount p rank free s) := by
  unfold execLockstepPageCount
  try dsimp only
  repeat' first
    | exact hk
    | assumption
    | exact OkNext.fault _
    | with_reducible refine OkNext.next ?_
    | with_reducible apply keeps_setPart
    | with_reducible apply keeps_composeFrozen
    | split

theorem keeps_execLockstepRowMaps {s0 : State} (p : Fin 64) (rpt : Nat) (rows : List RowEntry) {s : State} (hk : Keeps s0 s) : OkNext s0 (execLockstepRowMaps p rpt rows s) := by
  unfold execLockstepRowMaps
  try dsimp only
  repeat' first
    | exact hk
    | assumption
    | exact OkNext.fault _
    | with_reducible refine OkNext.next ?_
    | with_reducible apply keeps_setPart
    | with_reducible apply keeps_emit
    | with_reducible apply keeps_writeRows
    | with_reducible refine Keeps.foldl (fun _ _ _ => ?_) ?_
    | split

theorem keeps_execLockstepRelease {s0 : State} (p : Fin 64) {s : State} (hk : Keeps s0 s) : OkNext s0 (execLockstepRelease p s) := by
  unfold execLockstepRelease
  try dsimp only
  repeat' first
    | exact hk
    | assumption
    | exact OkNext.fault _
    | with_reducible refine OkNext.next ?_
    | with_reducible apply keeps_releaseSteep
    | split

theorem keeps_execLockstepAbort {s0 : State} (p : Fin 64) (charged : Bool) (rows : List (Fin 32768)) {s : State} (hk : Keeps s0 s) : OkNext s0 (execLockstepAbort p charged rows s) := by
  unfold execLockstepAbort
  try dsimp only
  repeat' first
    | exact hk
    | assumption
    | exact OkNext.fault _
    | with_reducible refine OkNext.next ?_
    | with_reducible apply keeps_abortHere
    | split

theorem keeps_execGroupCreate {s0 : State} (ring : Nat) (p : Packet) (list : Option MemberList) {s : State} (hk : Keeps s0 s) : OkNext s0 (execGroupCreate ring p list s) := by
  unfold execGroupCreate
  try dsimp only
  repeat' first
    | exact hk
    | assumption
    | exact OkNext.fault _
    | with_reducible refine OkNext.next ?_
    | with_reducible apply keeps_decodeCmd

theorem keeps_execGroupDestroy {s0 : State} (ring : Nat) (p : Packet) {s : State} (hk : Keeps s0 s) : OkNext s0 (execGroupDestroy ring p s) := by
  unfold execGroupDestroy
  try dsimp only
  repeat' first
    | exact hk
    | assumption
    | exact OkNext.fault _
    | with_reducible refine OkNext.next ?_
    | with_reducible apply keeps_decodeCmd

theorem keeps_execPairBindTimeout {s0 : State}  {s : State} (hk : Keeps s0 s) : OkNext s0 (execPairBindTimeout s) := by
  unfold execPairBindTimeout
  try dsimp only
  repeat' first
    | exact hk
    | assumption
    | exact OkNext.fault _
    | with_reducible refine OkNext.next ?_
    | with_reducible apply keeps_endBind
    | split

theorem keeps_execPairReauth {s0 : State} (_port : Fin 2) (partner : BindInput) {s : State} (hk : Keeps s0 s) : OkNext s0 (execPairReauth _port partner s) := by
  unfold execPairReauth
  try dsimp only
  repeat' first
    | exact hk
    | assumption
    | exact OkNext.fault _
    | with_reducible refine OkNext.next ?_
    | with_reducible apply keeps_emit
    | with_reducible apply keeps_goStranger
    | with_reducible apply keeps_unbindHere
    | with_reducible apply keeps_resolveBind
    | split
    | with_reducible refine Keeps.mk_ ?_

theorem keeps_execMirrorAck {s0 : State} (n : Nat) (fails : Option (BitVec 16 × Nat)) {s : State} (hk : Keeps s0 s) : OkNext s0 (execMirrorAck n fails s) := by
  unfold execMirrorAck
  try dsimp only
  repeat' first
    | exact hk
    | assumption
    | exact OkNext.fault _
    | with_reducible refine OkNext.next ?_
    | with_reducible apply keeps_confirmDelta
    | with_reducible refine Keeps.foldl (fun _ _ _ => ?_) ?_
    | split
    | with_reducible refine Keeps.mk_ ?_

theorem keeps_execMirrorDelta {s0 : State} (d : Delta) {s : State} (hk : Keeps s0 s) : OkNext s0 (execMirrorDelta d s) := by
  unfold execMirrorDelta
  try dsimp only
  repeat' first
    | exact hk
    | assumption
    | exact OkNext.fault _
    | with_reducible refine OkNext.next ?_
    | with_reducible apply keeps_emit
    | with_reducible apply keeps_applyDelta
    | refine keeps_applyDelta_eq (by assumption) ?_
    | split
    | with_reducible refine Keeps.mk_ ?_

theorem keeps_execHeartbeatTimer {s0 : State}  {s : State} (hk : Keeps s0 s) : OkNext s0 (execHeartbeatTimer s) := by
  unfold execHeartbeatTimer
  try dsimp only
  repeat' first
    | exact hk
    | assumption
    | exact OkNext.fault _
    | with_reducible refine OkNext.next ?_
    | with_reducible apply keeps_emits
    | with_reducible apply keeps_pairCtr
    | split
    | with_reducible refine Keeps.mk_ ?_

theorem keeps_execHeartbeat {s0 : State} (port : Fin 2) (timebase : Word64) (echoSent : Word64) (echoArrived : Word64) {s : State} (hk : Keeps s0 s) : OkNext s0 (execHeartbeat port timebase echoSent echoArrived s) := by
  unfold execHeartbeat
  try dsimp only
  repeat' first
    | exact hk
    | assumption
    | exact OkNext.fault _
    | with_reducible refine OkNext.next ?_
    | with_reducible apply keeps_wireFaultNow
    | split
    | with_reducible refine Keeps.mk_ ?_

theorem keeps_execHeartbeatMissed {s0 : State}  {s : State} (hk : Keeps s0 s) : OkNext s0 (execHeartbeatMissed s) := by
  unfold execHeartbeatMissed
  try dsimp only
  repeat' first
    | exact hk
    | assumption
    | exact OkNext.fault _
    | with_reducible refine OkNext.next ?_
    | with_reducible apply keeps_emit
    | with_reducible apply keeps_goSolo
    | with_reducible apply keeps_leapfrog
    | with_reducible apply keeps_lostUncovered
    | split
    | with_reducible refine Keeps.mk_ ?_

theorem keeps_execPairAliveInEdge {s0 : State}  {s : State} (hk : Keeps s0 s) : OkNext s0 (execPairAliveInEdge s) := by
  unfold execPairAliveInEdge
  try dsimp only
  repeat' first
    | exact hk
    | assumption
    | exact OkNext.fault _
    | with_reducible refine OkNext.next ?_
    | with_reducible apply keeps_openWindow
    | split
    | with_reducible refine Keeps.mk_ ?_

theorem keeps_execAliveInTimeout {s0 : State}  {s : State} (hk : Keeps s0 s) : OkNext s0 (execAliveInTimeout s) := by
  unfold execAliveInTimeout
  try dsimp only
  repeat' first
    | exact hk
    | assumption
    | exact OkNext.fault _
    | with_reducible refine OkNext.next ?_
    | with_reducible apply keeps_lostUncovered
    | split
    | with_reducible refine Keeps.mk_ ?_

theorem keeps_execWireFaultClear {s0 : State}  {s : State} (hk : Keeps s0 s) : OkNext s0 (execWireFaultClear s) := by
  unfold execWireFaultClear
  try dsimp only
  repeat' first
    | exact hk
    | assumption
    | exact OkNext.fault _
    | with_reducible refine OkNext.next ?_
    | split
    | with_reducible refine Keeps.mk_ ?_

theorem keeps_execSleep {s0 : State} (ticks : Word64) {s : State} (hk : Keeps s0 s) : OkNext s0 (execSleep ticks s) := by
  unfold execSleep
  try dsimp only
  repeat' first
    | exact hk
    | assumption
    | exact OkNext.fault _
    | with_reducible refine OkNext.next ?_
    | with_reducible apply keeps_emit
    | split
    | with_reducible refine Keeps.mk_ ?_

theorem keeps_execSleepConfirm {s0 : State}  {s : State} (hk : Keeps s0 s) : OkNext s0 (execSleepConfirm s) := by
  unfold execSleepConfirm
  try dsimp only
  repeat' first
    | exact hk
    | assumption
    | exact OkNext.fault _
    | with_reducible refine OkNext.next ?_
    | split
    | with_reducible refine Keeps.mk_ ?_

theorem keeps_execMirrorPortFail {s0 : State} (port : Fin 2) {s : State} (hk : Keeps s0 s) : OkNext s0 (execMirrorPortFail port s) := by
  unfold execMirrorPortFail
  try dsimp only
  repeat' first
    | exact hk
    | assumption
    | exact OkNext.fault _
    | with_reducible refine OkNext.next ?_
    | with_reducible apply keeps_mirrorPortLost
    | split

theorem keeps_execMirrorPortReturn {s0 : State} (port : Fin 2) {s : State} (hk : Keeps s0 s) : OkNext s0 (execMirrorPortReturn port s) := by
  unfold execMirrorPortReturn
  try dsimp only
  repeat' first
    | exact hk
    | assumption
    | exact OkNext.fault _
    | with_reducible refine OkNext.next ?_
    | with_reducible apply keeps_mirrorPortBack
    | split

theorem keeps_execResyncExchange {s0 : State} (partner : Option ResyncInput) {s : State} (hk : Keeps s0 s) : OkNext s0 (execResyncExchange partner s) := by
  unfold execResyncExchange
  try dsimp only
  repeat' first
    | exact hk
    | assumption
    | exact OkNext.fault _
    | with_reducible refine OkNext.next ?_
    | with_reducible apply keeps_faultLog
    | with_reducible apply keeps_goSolo
    | with_reducible apply keeps_lostUncovered
    | split
    | with_reducible refine Keeps.mk_ ?_

theorem keeps_execPairBind {s0 : State} (ring : Nat) (p : Packet) (partner : BindInput) {s : State} (hk : Keeps s0 s) : OkNext s0 (execPairBind ring p partner s) := by
  unfold execPairBind
  try dsimp only
  repeat' first
    | exact hk
    | assumption
    | exact OkNext.fault _
    | with_reducible refine OkNext.next ?_
    | with_reducible apply keeps_decodeCmd

theorem keeps_execPairUnbind {s0 : State} (ring : Nat) (p : Packet) {s : State} (hk : Keeps s0 s) : OkNext s0 (execPairUnbind ring p s) := by
  unfold execPairUnbind
  try dsimp only
  repeat' first
    | exact hk
    | assumption
    | exact OkNext.fault _
    | with_reducible refine OkNext.next ?_
    | with_reducible apply keeps_decodeCmd

theorem keeps_execPairStatus {s0 : State} (ring : Nat) (p : Packet) {s : State} (hk : Keeps s0 s) : OkNext s0 (execPairStatus ring p s) := by
  unfold execPairStatus
  try dsimp only
  repeat' first
    | exact hk
    | assumption
    | exact OkNext.fault _
    | with_reducible refine OkNext.next ?_
    | with_reducible apply keeps_decodeCmd

theorem keeps_execPowerOn {s0 : State} (x : StartCfg) {s : State} (hk : Keeps s0 s) : OkNext s0 (execPowerOn x s) := by
  unfold execPowerOn
  try dsimp only
  repeat' first
    | exact hk
    | assumption
    | exact OkNext.fault _
    | with_reducible refine OkNext.next ?_
    | with_reducible apply keeps_kettleOnly
    | with_reducible apply keeps_startUp
    | split
    | with_reducible refine Keeps.mk_ ?_

theorem keeps_execResetN {s0 : State} (x : StartCfg) {s : State} (hk : Keeps s0 s) : OkNext s0 (execResetN x s) := by
  unfold execResetN
  try dsimp only
  repeat' first
    | exact hk
    | assumption
    | exact OkNext.fault _
    | with_reducible refine OkNext.next ?_
    | with_reducible apply keeps_kettleOnly
    | with_reducible apply keeps_startUp
    | split
    | with_reducible refine Keeps.mk_ ?_

theorem keeps_execStartupTimeout {s0 : State}  {s : State} (hk : Keeps s0 s) : OkNext s0 (execStartupTimeout s) := by
  unfold execStartupTimeout
  try dsimp only
  repeat' first
    | exact hk
    | assumption
    | exact OkNext.fault _
    | with_reducible refine OkNext.next ?_
    | with_reducible apply keeps_moduleStop
    | split

theorem keeps_execA4Exit {s0 : State} (x : StartCfg) {s : State} (hk : Keeps s0 s) : OkNext s0 (execA4Exit x s) := by
  unfold execA4Exit
  try dsimp only
  repeat' first
    | exact hk
    | assumption
    | exact OkNext.fault _
    | with_reducible refine OkNext.next ?_
    | with_reducible apply keeps_openWindow
    | with_reducible apply keeps_bringUp
    | with_reducible apply keeps_startUp
    | with_reducible apply keeps_restoreA4
    | split
    | with_reducible refine Keeps.mk_ ?_

theorem keeps_execFlr {s0 : State} (vf : Fin 64) {s : State} (hk : Keeps s0 s) : OkNext s0 (execFlr vf s) := by
  unfold execFlr
  try dsimp only
  repeat' first
    | exact hk
    | assumption
    | exact OkNext.fault _
    | with_reducible refine OkNext.next ?_
    | with_reducible apply keeps_modFunc
    | with_reducible apply keeps_resetVf
    | split

theorem keeps_execVfEnable {s0 : State} (vf : Fin 64) {s : State} (hk : Keeps s0 s) : OkNext s0 (execVfEnable vf s) := by
  unfold execVfEnable
  try dsimp only
  repeat' first
    | exact hk
    | assumption
    | exact OkNext.fault _
    | with_reducible refine OkNext.next ?_
    | with_reducible apply keeps_modFunc
    | split

theorem keeps_execPerstN {s0 : State} (kind : LinkReset) {s : State} (hk : Keeps s0 s) : OkNext s0 (execPerstN kind s) := by
  unfold execPerstN
  split
  · exact OkNext.next hk
  split
  · exact OkNext.next (Keeps.mk_ hk)
  · extract_lets s1
    have h1 : Keeps s0 s1 := Keeps.foldl (fun _ _ h => keeps_resetVf _ h) (keeps_resetRings _ hk)
    clear_value s1
    exact OkNext.next ⟨h1.pending, fun q => ⟨wf_nil, (h1.stores q).logLen, (h1.stores q).logOrder, (h1.stores q).logSeq⟩⟩

theorem keeps_execModuleFault {s0 : State} (code : BitVec 8) {s : State} (hk : Keeps s0 s) : OkNext s0 (execModuleFault code s) := by
  unfold execModuleFault
  try dsimp only
  repeat' first
    | exact hk
    | assumption
    | exact OkNext.fault _
    | with_reducible refine OkNext.next ?_
    | with_reducible apply keeps_faultLog
    | with_reducible apply keeps_tripModule
    | split

theorem keeps_execControlCoreFail {s0 : State}  {s : State} (hk : Keeps s0 s) : OkNext s0 (execControlCoreFail s) := by
  unfold execControlCoreFail
  try dsimp only
  repeat' first
    | exact hk
    | assumption
    | exact OkNext.fault _
    | with_reducible refine OkNext.next ?_
    | with_reducible apply keeps_faultLog
    | with_reducible apply keeps_tripModule
    | split
    | with_reducible refine Keeps.mk_ ?_

theorem keeps_execPackageLost {s0 : State} (pkg : Fin 32) {s : State} (hk : Keeps s0 s) : OkNext s0 (execPackageLost pkg s) := by
  unfold execPackageLost
  try dsimp only
  repeat' first
    | exact hk
    | assumption
    | exact OkNext.fault _
    | with_reducible refine OkNext.next ?_
    | with_reducible apply keeps_losePackage

theorem keeps_execPatrolScrubTick {s0 : State} (stripe : Nat) (bad : Option (Fin 32)) {s : State} (hk : Keeps s0 s) : OkNext s0 (execPatrolScrubTick stripe bad s) := by
  unfold execPatrolScrubTick
  try dsimp only
  repeat' first
    | exact hk
    | assumption
    | exact OkNext.fault _
    | with_reducible refine OkNext.next ?_
    | with_reducible apply keeps_tripModule
    | split
    | with_reducible refine Keeps.mk_ ?_

theorem keeps_execCaddyWayDisable {s0 : State} (w : WayErrors) {s : State} (hk : Keeps s0 s) : OkNext s0 (execCaddyWayDisable w s) := by
  unfold execCaddyWayDisable
  try dsimp only
  repeat' first
    | exact hk
    | assumption
    | exact OkNext.fault _
    | with_reducible refine OkNext.next ?_
    | with_reducible apply keeps_faultLog
    | split
    | with_reducible refine Keeps.mk_ ?_

theorem keeps_execTrainingRetryTimer {s0 : State} (port : Fin 22) (x : Training) {s : State} (hk : Keeps s0 s) : OkNext s0 (execTrainingRetryTimer port x s) := by
  unfold execTrainingRetryTimer
  try dsimp only
  repeat' first
    | exact hk
    | assumption
    | exact OkNext.fault _
    | with_reducible refine OkNext.next ?_
    | with_reducible apply keeps_modPort
    | with_reducible apply keeps_portRise
    | with_reducible apply keeps_mirrorPortBack
    | with_reducible apply keeps_laneFaultLog
    | split
    | with_reducible refine Keeps.mk_ ?_

theorem keeps_execLaneFailure {s0 : State} (port : Fin 18) (lane : Fin 4) {s : State} (hk : Keeps s0 s) : OkNext s0 (execLaneFailure port lane s) := by
  unfold execLaneFailure
  try dsimp only
  repeat' first
    | exact hk
    | assumption
    | exact OkNext.fault _
    | with_reducible refine OkNext.next ?_
    | with_reducible apply keeps_faultLog
    | with_reducible apply keeps_modPort
    | with_reducible apply keeps_resend
    | with_reducible apply keeps_portDown
    | with_reducible apply keeps_trained
    | with_reducible apply keeps_mirrorPortLost
    | with_reducible refine Keeps.foldl (fun _ _ _ => ?_) ?_
    | split

theorem keeps_execSpdmRequest {s0 : State} (r : SpdmReq) {s : State} (hk : Keeps s0 s) : OkNext s0 (execSpdmRequest r s) := by
  unfold execSpdmRequest
  try dsimp only
  repeat' first
    | exact hk
    | assumption
    | exact OkNext.fault _
    | with_reducible refine OkNext.next ?_
    | with_reducible apply keeps_emit
    | split
    | with_reducible refine Keeps.mk_ ?_

theorem keeps_execPldmRequest {s0 : State} (r : PldmReq) {s : State} (hk : Keeps s0 s) : OkNext s0 (execPldmRequest r s) := by
  unfold execPldmRequest
  try dsimp only
  repeat' first
    | exact hk
    | assumption
    | exact OkNext.fault _
    | with_reducible refine OkNext.next ?_
    | with_reducible apply keeps_emit
    | with_reducible apply keeps_startUp
    | split
    | with_reducible refine Keeps.mk_ ?_

theorem keeps_execFirmwareQueueDispatch {s0 : State}  {s : State} (hk : Keeps s0 s) : OkNext s0 (execFirmwareQueueDispatch s) := by
  unfold execFirmwareQueueDispatch
  try dsimp only
  repeat' first
    | exact hk
    | assumption
    | exact OkNext.fault _
    | with_reducible refine OkNext.next ?_
    | with_reducible apply keeps_runFirmware
    | split
    | with_reducible refine Keeps.mk_ ?_

theorem keeps_execSetWakeTolerance {s0 : State} (ring : Nat) (p : Packet) {s : State} (hk : Keeps s0 s) : OkNext s0 (execSetWakeTolerance ring p s) := by
  unfold execSetWakeTolerance
  try dsimp only
  repeat' first
    | exact hk
    | assumption
    | exact OkNext.fault _
    | with_reducible refine OkNext.next ?_
    | with_reducible apply keeps_decodeCmd

theorem keeps_execSetPowerCap {s0 : State} (ring : Nat) (p : Packet) {s : State} (hk : Keeps s0 s) : OkNext s0 (execSetPowerCap ring p s) := by
  unfold execSetPowerCap
  try dsimp only
  repeat' first
    | exact hk
    | assumption
    | exact OkNext.fault _
    | with_reducible refine OkNext.next ?_
    | with_reducible apply keeps_decodeCmd

theorem keeps_execTelemetryRead {s0 : State} (ring : Nat) (p : Packet) (hostOk : Bool) {s : State} (hk : Keeps s0 s) : OkNext s0 (execTelemetryRead ring p hostOk s) := by
  unfold execTelemetryRead
  try dsimp only
  repeat' first
    | exact hk
    | assumption
    | exact OkNext.fault _
    | with_reducible refine OkNext.next ?_
    | with_reducible apply keeps_decodeCmd

theorem keeps_execLogRead {s0 : State} (ring : Nat) (p : Packet) (hostOk : Bool) {s : State} (hk : Keeps s0 s) : OkNext s0 (execLogRead ring p hostOk s) := by
  unfold execLogRead
  try dsimp only
  repeat' first
    | exact hk
    | assumption
    | exact OkNext.fault _
    | with_reducible refine OkNext.next ?_
    | with_reducible apply keeps_decodeCmd

theorem keeps_execSelftest {s0 : State} (ring : Nat) (p : Packet) (pass : BitVec 8) {s : State} (hk : Keeps s0 s) : OkNext s0 (execSelftest ring p pass s) := by
  unfold execSelftest
  try dsimp only
  repeat' first
    | exact hk
    | assumption
    | exact OkNext.fault _
    | with_reducible refine OkNext.next ?_
    | with_reducible apply keeps_decodeCmd

theorem keeps_execFirmwareStage {s0 : State} (ring : Nat) (p : Packet) (img : Option FwImage) {s : State} (hk : Keeps s0 s) : OkNext s0 (execFirmwareStage ring p img s) := by
  unfold execFirmwareStage
  try dsimp only
  repeat' first
    | exact hk
    | assumption
    | exact OkNext.fault _
    | with_reducible refine OkNext.next ?_
    | with_reducible apply keeps_decodeCmd

theorem keeps_execFirmwareActivate {s0 : State} (ring : Nat) (p : Packet) (newOk : Bool) (partnerOk : Bool) {s : State} (hk : Keeps s0 s) : OkNext s0 (execFirmwareActivate ring p newOk partnerOk s) := by
  unfold execFirmwareActivate
  try dsimp only
  repeat' first
    | exact hk
    | assumption
    | exact OkNext.fault _
    | with_reducible refine OkNext.next ?_
    | with_reducible apply keeps_decodeCmd

end Sys2Proof.Machine
end

