-- ==== Sys2Proof/Laws/State.lean ====
section
/-! SUPPORT. State.lean: what the setters of the state, of a tile and of a context leave as it was, one lemma per field, each true by
definition, and what the accessors read after them. -/

namespace Sys2Proof.Machine

open Sys2Proof

section setTile_fields
@[simp] theorem setTile_pending (s : State) (t : Nat) (x : Tile) : (setTile s t x).pending = s.pending := rfl
@[simp] theorem setTile_free (s : State) (t : Nat) (x : Tile) : (setTile s t x).free = s.free := rfl
@[simp] theorem setTile_ready (s : State) (t : Nat) (x : Tile) : (setTile s t x).ready = s.ready := rfl
@[simp] theorem setTile_resetCause (s : State) (t : Nat) (x : Tile) : (setTile s t x).resetCause = s.resetCause := rfl
@[simp] theorem setTile_funcs (s : State) (t : Nat) (x : Tile) : (setTile s t x).funcs = s.funcs := rfl
@[simp] theorem setTile_rings (s : State) (t : Nat) (x : Tile) : (setTile s t x).rings = s.rings := rfl
@[simp] theorem setTile_push (s : State) (t : Nat) (x : Tile) : (setTile s t x).push = s.push := rfl
@[simp] theorem setTile_fwLimit (s : State) (t : Nat) (x : Tile) : (setTile s t x).fwLimit = s.fwLimit := rfl
@[simp] theorem setTile_fwQueue (s : State) (t : Nat) (x : Tile) : (setTile s t x).fwQueue = s.fwQueue := rfl
@[simp] theorem setTile_parts (s : State) (t : Nat) (x : Tile) : (setTile s t x).parts = s.parts := rfl
@[simp] theorem setTile_table (s : State) (t : Nat) (x : Tile) : (setTile s t x).table = s.table := rfl
@[simp] theorem setTile_sigs (s : State) (t : Nat) (x : Tile) : (setTile s t x).sigs = s.sigs := rfl
@[simp] theorem setTile_remotes (s : State) (t : Nat) (x : Tile) : (setTile s t x).remotes = s.remotes := rfl
@[simp] theorem setTile_iod (s : State) (t : Nat) (x : Tile) : (setTile s t x).iod = s.iod := rfl
@[simp] theorem setTile_fab (s : State) (t : Nat) (x : Tile) : (setTile s t x).fab = s.fab := rfl
@[simp] theorem setTile_pair (s : State) (t : Nat) (x : Tile) : (setTile s t x).pair = s.pair := rfl
@[simp] theorem setTile_log (s : State) (t : Nat) (x : Tile) : (setTile s t x).log = s.log := rfl
@[simp] theorem setTile_logNext (s : State) (t : Nat) (x : Tile) : (setTile s t x).logNext = s.logNext := rfl
@[simp] theorem setTile_logLost (s : State) (t : Nat) (x : Tile) : (setTile s t x).logLost = s.logLost := rfl
@[simp] theorem setTile_pwr (s : State) (t : Nat) (x : Tile) : (setTile s t x).pwr = s.pwr := rfl
@[simp] theorem setTile_mod (s : State) (t : Nat) (x : Tile) : (setTile s t x).mod = s.mod := rfl
@[simp] theorem setTile_saved (s : State) (t : Nat) (x : Tile) : (setTile s t x).saved = s.saved := rfl
@[simp] theorem setTile_out (s : State) (t : Nat) (x : Tile) : (setTile s t x).out = s.out := rfl
end setTile_fields

section modTile_fields
@[simp] theorem modTile_pending (s : State) (t : Nat) (f : Tile → Tile) : (modTile s t f).pending = s.pending := rfl
@[simp] theorem modTile_free (s : State) (t : Nat) (f : Tile → Tile) : (modTile s t f).free = s.free := rfl
@[simp] theorem modTile_ready (s : State) (t : Nat) (f : Tile → Tile) : (modTile s t f).ready = s.ready := rfl
@[simp] theorem modTile_resetCause (s : State) (t : Nat) (f : Tile → Tile) : (modTile s t f).resetCause = s.resetCause := rfl
@[simp] theorem modTile_funcs (s : State) (t : Nat) (f : Tile → Tile) : (modTile s t f).funcs = s.funcs := rfl
@[simp] theorem modTile_rings (s : State) (t : Nat) (f : Tile → Tile) : (modTile s t f).rings = s.rings := rfl
@[simp] theorem modTile_push (s : State) (t : Nat) (f : Tile → Tile) : (modTile s t f).push = s.push := rfl
@[simp] theorem modTile_fwLimit (s : State) (t : Nat) (f : Tile → Tile) : (modTile s t f).fwLimit = s.fwLimit := rfl
@[simp] theorem modTile_fwQueue (s : State) (t : Nat) (f : Tile → Tile) : (modTile s t f).fwQueue = s.fwQueue := rfl
@[simp] theorem modTile_parts (s : State) (t : Nat) (f : Tile → Tile) : (modTile s t f).parts = s.parts := rfl
@[simp] theorem modTile_table (s : State) (t : Nat) (f : Tile → Tile) : (modTile s t f).table = s.table := rfl
@[simp] theorem modTile_sigs (s : State) (t : Nat) (f : Tile → Tile) : (modTile s t f).sigs = s.sigs := rfl
@[simp] theorem modTile_remotes (s : State) (t : Nat) (f : Tile → Tile) : (modTile s t f).remotes = s.remotes := rfl
@[simp] theorem modTile_iod (s : State) (t : Nat) (f : Tile → Tile) : (modTile s t f).iod = s.iod := rfl
@[simp] theorem modTile_fab (s : State) (t : Nat) (f : Tile → Tile) : (modTile s t f).fab = s.fab := rfl
@[simp] theorem modTile_pair (s : State) (t : Nat) (f : Tile → Tile) : (modTile s t f).pair = s.pair := rfl
@[simp] theorem modTile_log (s : State) (t : Nat) (f : Tile → Tile) : (modTile s t f).log = s.log := rfl
@[simp] theorem modTile_logNext (s : State) (t : Nat) (f : Tile → Tile) : (modTile s t f).logNext = s.logNext := rfl
@[simp] theorem modTile_logLost (s : State) (t : Nat) (f : Tile → Tile) : (modTile s t f).logLost = s.logLost := rfl
@[simp] theorem modTile_pwr (s : State) (t : Nat) (f : Tile → Tile) : (modTile s t f).pwr = s.pwr := rfl
@[simp] theorem modTile_mod (s : State) (t : Nat) (f : Tile → Tile) : (modTile s t f).mod = s.mod := rfl
@[simp] theorem modTile_saved (s : State) (t : Nat) (f : Tile → Tile) : (modTile s t f).saved = s.saved := rfl
@[simp] theorem modTile_out (s : State) (t : Nat) (f : Tile → Tile) : (modTile s t f).out = s.out := rfl
end modTile_fields

section setPart_fields
@[simp] theorem setPart_pending (s : State) (p : Nat) (x : Part) : (setPart s p x).pending = s.pending := rfl
@[simp] theorem setPart_free (s : State) (p : Nat) (x : Part) : (setPart s p x).free = s.free := rfl
@[simp] theorem setPart_ready (s : State) (p : Nat) (x : Part) : (setPart s p x).ready = s.ready := rfl
@[simp] theorem setPart_resetCause (s : State) (p : Nat) (x : Part) : (setPart s p x).resetCause = s.resetCause := rfl
@[simp] theorem setPart_funcs (s : State) (p : Nat) (x : Part) : (setPart s p x).funcs = s.funcs := rfl
@[simp] theorem setPart_rings (s : State) (p : Nat) (x : Part) : (setPart s p x).rings = s.rings := rfl
@[simp] theorem setPart_push (s : State) (p : Nat) (x : Part) : (setPart s p x).push = s.push := rfl
@[simp] theorem setPart_fwLimit (s : State) (p : Nat) (x : Part) : (setPart s p x).fwLimit = s.fwLimit := rfl
@[simp] theorem setPart_fwQueue (s : State) (p : Nat) (x : Part) : (setPart s p x).fwQueue = s.fwQueue := rfl
@[simp] theorem setPart_table (s : State) (p : Nat) (x : Part) : (setPart s p x).table = s.table := rfl
@[simp] theorem setPart_tiles (s : State) (p : Nat) (x : Part) : (setPart s p x).tiles = s.tiles := rfl
@[simp] theorem setPart_sigs (s : State) (p : Nat) (x : Part) : (setPart s p x).sigs = s.sigs := rfl
@[simp] theorem setPart_remotes (s : State) (p : Nat) (x : Part) : (setPart s p x).remotes = s.remotes := rfl
@[simp] theorem setPart_iod (s : State) (p : Nat) (x : Part) : (setPart s p x).iod = s.iod := rfl
@[simp] theorem setPart_fab (s : State) (p : Nat) (x : Part) : (setPart s p x).fab = s.fab := rfl
@[simp] theorem setPart_pair (s : State) (p : Nat) (x : Part) : (setPart s p x).pair = s.pair := rfl
@[simp] theorem setPart_log (s : State) (p : Nat) (x : Part) : (setPart s p x).log = s.log := rfl
@[simp] theorem setPart_logNext (s : State) (p : Nat) (x : Part) : (setPart s p x).logNext = s.logNext := rfl
@[simp] theorem setPart_logLost (s : State) (p : Nat) (x : Part) : (setPart s p x).logLost = s.logLost := rfl
@[simp] theorem setPart_pwr (s : State) (p : Nat) (x : Part) : (setPart s p x).pwr = s.pwr := rfl
@[simp] theorem setPart_mod (s : State) (p : Nat) (x : Part) : (setPart s p x).mod = s.mod := rfl
@[simp] theorem setPart_saved (s : State) (p : Nat) (x : Part) : (setPart s p x).saved = s.saved := rfl
@[simp] theorem setPart_out (s : State) (p : Nat) (x : Part) : (setPart s p x).out = s.out := rfl
end setPart_fields

section setEntry_fields
@[simp] theorem setEntry_pending (s : State) (i : Nat) (e : Entry) : (setEntry s i e).pending = s.pending := rfl
@[simp] theorem setEntry_free (s : State) (i : Nat) (e : Entry) : (setEntry s i e).free = s.free := rfl
@[simp] theorem setEntry_ready (s : State) (i : Nat) (e : Entry) : (setEntry s i e).ready = s.ready := rfl
@[simp] theorem setEntry_resetCause (s : State) (i : Nat) (e : Entry) : (setEntry s i e).resetCause = s.resetCause := rfl
@[simp] theorem setEntry_funcs (s : State) (i : Nat) (e : Entry) : (setEntry s i e).funcs = s.funcs := rfl
@[simp] theorem setEntry_rings (s : State) (i : Nat) (e : Entry) : (setEntry s i e).rings = s.rings := rfl
@[simp] theorem setEntry_push (s : State) (i : Nat) (e : Entry) : (setEntry s i e).push = s.push := rfl
@[simp] theorem setEntry_fwLimit (s : State) (i : Nat) (e : Entry) : (setEntry s i e).fwLimit = s.fwLimit := rfl
@[simp] theorem setEntry_fwQueue (s : State) (i : Nat) (e : Entry) : (setEntry s i e).fwQueue = s.fwQueue := rfl
@[simp] theorem setEntry_parts (s : State) (i : Nat) (e : Entry) : (setEntry s i e).parts = s.parts := rfl
@[simp] theorem setEntry_tiles (s : State) (i : Nat) (e : Entry) : (setEntry s i e).tiles = s.tiles := rfl
@[simp] theorem setEntry_sigs (s : State) (i : Nat) (e : Entry) : (setEntry s i e).sigs = s.sigs := rfl
@[simp] theorem setEntry_remotes (s : State) (i : Nat) (e : Entry) : (setEntry s i e).remotes = s.remotes := rfl
@[simp] theorem setEntry_iod (s : State) (i : Nat) (e : Entry) : (setEntry s i e).iod = s.iod := rfl
@[simp] theorem setEntry_fab (s : State) (i : Nat) (e : Entry) : (setEntry s i e).fab = s.fab := rfl
@[simp] theorem setEntry_pair (s : State) (i : Nat) (e : Entry) : (setEntry s i e).pair = s.pair := rfl
@[simp] theorem setEntry_log (s : State) (i : Nat) (e : Entry) : (setEntry s i e).log = s.log := rfl
@[simp] theorem setEntry_logNext (s : State) (i : Nat) (e : Entry) : (setEntry s i e).logNext = s.logNext := rfl
@[simp] theorem setEntry_logLost (s : State) (i : Nat) (e : Entry) : (setEntry s i e).logLost = s.logLost := rfl
@[simp] theorem setEntry_pwr (s : State) (i : Nat) (e : Entry) : (setEntry s i e).pwr = s.pwr := rfl
@[simp] theorem setEntry_mod (s : State) (i : Nat) (e : Entry) : (setEntry s i e).mod = s.mod := rfl
@[simp] theorem setEntry_saved (s : State) (i : Nat) (e : Entry) : (setEntry s i e).saved = s.saved := rfl
@[simp] theorem setEntry_out (s : State) (i : Nat) (e : Entry) : (setEntry s i e).out = s.out := rfl
end setEntry_fields

section emit_fields
@[simp] theorem emit_pending (s : State) (o : Out) : (emit s o).pending = s.pending := rfl
@[simp] theorem emit_free (s : State) (o : Out) : (emit s o).free = s.free := rfl
@[simp] theorem emit_ready (s : State) (o : Out) : (emit s o).ready = s.ready := rfl
@[simp] theorem emit_resetCause (s : State) (o : Out) : (emit s o).resetCause = s.resetCause := rfl
@[simp] theorem emit_funcs (s : State) (o : Out) : (emit s o).funcs = s.funcs := rfl
@[simp] theorem emit_rings (s : State) (o : Out) : (emit s o).rings = s.rings := rfl
@[simp] theorem emit_push (s : State) (o : Out) : (emit s o).push = s.push := rfl
@[simp] theorem emit_fwLimit (s : State) (o : Out) : (emit s o).fwLimit = s.fwLimit := rfl
@[simp] theorem emit_fwQueue (s : State) (o : Out) : (emit s o).fwQueue = s.fwQueue := rfl
@[simp] theorem emit_parts (s : State) (o : Out) : (emit s o).parts = s.parts := rfl
@[simp] theorem emit_table (s : State) (o : Out) : (emit s o).table = s.table := rfl
@[simp] theorem emit_tiles (s : State) (o : Out) : (emit s o).tiles = s.tiles := rfl
@[simp] theorem emit_sigs (s : State) (o : Out) : (emit s o).sigs = s.sigs := rfl
@[simp] theorem emit_remotes (s : State) (o : Out) : (emit s o).remotes = s.remotes := rfl
@[simp] theorem emit_iod (s : State) (o : Out) : (emit s o).iod = s.iod := rfl
@[simp] theorem emit_fab (s : State) (o : Out) : (emit s o).fab = s.fab := rfl
@[simp] theorem emit_pair (s : State) (o : Out) : (emit s o).pair = s.pair := rfl
@[simp] theorem emit_log (s : State) (o : Out) : (emit s o).log = s.log := rfl
@[simp] theorem emit_logNext (s : State) (o : Out) : (emit s o).logNext = s.logNext := rfl
@[simp] theorem emit_logLost (s : State) (o : Out) : (emit s o).logLost = s.logLost := rfl
@[simp] theorem emit_pwr (s : State) (o : Out) : (emit s o).pwr = s.pwr := rfl
@[simp] theorem emit_mod (s : State) (o : Out) : (emit s o).mod = s.mod := rfl
@[simp] theorem emit_saved (s : State) (o : Out) : (emit s o).saved = s.saved := rfl
end emit_fields

section emits_fields
@[simp] theorem emits_pending (s : State) (l : List Out) : (emits s l).pending = s.pending := rfl
@[simp] theorem emits_free (s : State) (l : List Out) : (emits s l).free = s.free := rfl
@[simp] theorem emits_ready (s : State) (l : List Out) : (emits s l).ready = s.ready := rfl
@[simp] theorem emits_resetCause (s : State) (l : List Out) : (emits s l).resetCause = s.resetCause := rfl
@[simp] theorem emits_funcs (s : State) (l : List Out) : (emits s l).funcs = s.funcs := rfl
@[simp] theorem emits_rings (s : State) (l : List Out) : (emits s l).rings = s.rings := rfl
@[simp] theorem emits_push (s : State) (l : List Out) : (emits s l).push = s.push := rfl
@[simp] theorem emits_fwLimit (s : State) (l : List Out) : (emits s l).fwLimit = s.fwLimit := rfl
@[simp] theorem emits_fwQueue (s : State) (l : List Out) : (emits s l).fwQueue = s.fwQueue := rfl
@[simp] theorem emits_parts (s : State) (l : List Out) : (emits s l).parts = s.parts := rfl
@[simp] theorem emits_table (s : State) (l : List Out) : (emits s l).table = s.table := rfl
@[simp] theorem emits_tiles (s : State) (l : List Out) : (emits s l).tiles = s.tiles := rfl
@[simp] theorem emits_sigs (s : State) (l : List Out) : (emits s l).sigs = s.sigs := rfl
@[simp] theorem emits_remotes (s : State) (l : List Out) : (emits s l).remotes = s.remotes := rfl
@[simp] theorem emits_iod (s : State) (l : List Out) : (emits s l).iod = s.iod := rfl
@[simp] theorem emits_fab (s : State) (l : List Out) : (emits s l).fab = s.fab := rfl
@[simp] theorem emits_pair (s : State) (l : List Out) : (emits s l).pair = s.pair := rfl
@[simp] theorem emits_log (s : State) (l : List Out) : (emits s l).log = s.log := rfl
@[simp] theorem emits_logNext (s : State) (l : List Out) : (emits s l).logNext = s.logNext := rfl
@[simp] theorem emits_logLost (s : State) (l : List Out) : (emits s l).logLost = s.logLost := rfl
@[simp] theorem emits_pwr (s : State) (l : List Out) : (emits s l).pwr = s.pwr := rfl
@[simp] theorem emits_mod (s : State) (l : List Out) : (emits s l).mod = s.mod := rfl
@[simp] theorem emits_saved (s : State) (l : List Out) : (emits s l).saved = s.saved := rfl
end emits_fields

section modFunc_fields
@[simp] theorem modFunc_pending (s : State) (f : Nat) (g : Func → Func) : (modFunc s f g).pending = s.pending := rfl
@[simp] theorem modFunc_free (s : State) (f : Nat) (g : Func → Func) : (modFunc s f g).free = s.free := rfl
@[simp] theorem modFunc_ready (s : State) (f : Nat) (g : Func → Func) : (modFunc s f g).ready = s.ready := rfl
@[simp] theorem modFunc_resetCause (s : State) (f : Nat) (g : Func → Func) : (modFunc s f g).resetCause = s.resetCause := rfl
@[simp] theorem modFunc_rings (s : State) (f : Nat) (g : Func → Func) : (modFunc s f g).rings = s.rings := rfl
@[simp] theorem modFunc_push (s : State) (f : Nat) (g : Func → Func) : (modFunc s f g).push = s.push := rfl
@[simp] theorem modFunc_fwLimit (s : State) (f : Nat) (g : Func → Func) : (modFunc s f g).fwLimit = s.fwLimit := rfl
@[simp] theorem modFunc_fwQueue (s : State) (f : Nat) (g : Func → Func) : (modFunc s f g).fwQueue = s.fwQueue := rfl
@[simp] theorem modFunc_parts (s : State) (f : Nat) (g : Func → Func) : (modFunc s f g).parts = s.parts := rfl
@[simp] theorem modFunc_table (s : State) (f : Nat) (g : Func → Func) : (modFunc s f g).table = s.table := rfl
@[simp] theorem modFunc_tiles (s : State) (f : Nat) (g : Func → Func) : (modFunc s f g).tiles = s.tiles := rfl
@[simp] theorem modFunc_sigs (s : State) (f : Nat) (g : Func → Func) : (modFunc s f g).sigs = s.sigs := rfl
@[simp] theorem modFunc_remotes (s : State) (f : Nat) (g : Func → Func) : (modFunc s f g).remotes = s.remotes := rfl
@[simp] theorem modFunc_iod (s : State) (f : Nat) (g : Func → Func) : (modFunc s f g).iod = s.iod := rfl
@[simp] theorem modFunc_fab (s : State) (f : Nat) (g : Func → Func) : (modFunc s f g).fab = s.fab := rfl
@[simp] theorem modFunc_pair (s : State) (f : Nat) (g : Func → Func) : (modFunc s f g).pair = s.pair := rfl
@[simp] theorem modFunc_log (s : State) (f : Nat) (g : Func → Func) : (modFunc s f g).log = s.log := rfl
@[simp] theorem modFunc_logNext (s : State) (f : Nat) (g : Func → Func) : (modFunc s f g).logNext = s.logNext := rfl
@[simp] theorem modFunc_logLost (s : State) (f : Nat) (g : Func → Func) : (modFunc s f g).logLost = s.logLost := rfl
@[simp] theorem modFunc_pwr (s : State) (f : Nat) (g : Func → Func) : (modFunc s f g).pwr = s.pwr := rfl
@[simp] theorem modFunc_mod (s : State) (f : Nat) (g : Func → Func) : (modFunc s f g).mod = s.mod := rfl
@[simp] theorem modFunc_saved (s : State) (f : Nat) (g : Func → Func) : (modFunc s f g).saved = s.saved := rfl
@[simp] theorem modFunc_out (s : State) (f : Nat) (g : Func → Func) : (modFunc s f g).out = s.out := rfl
end modFunc_fields

section setCtx_fields
@[simp] theorem setCtx_onSpare (x : Tile) (c : Nat) (k : Ctx) : (setCtx x c k).onSpare = x.onSpare := rfl
@[simp] theorem setCtx_retired (x : Tile) (c : Nat) (k : Ctx) : (setCtx x c k).retired = x.retired := rfl
@[simp] theorem setCtx_slots (x : Tile) (c : Nat) (k : Ctx) : (setCtx x c k).slots = x.slots := rfl
@[simp] theorem setCtx_acc (x : Tile) (c : Nat) (k : Ctx) : (setCtx x c k).acc = x.acc := rfl
@[simp] theorem setCtx_cur (x : Tile) (c : Nat) (k : Ctx) : (setCtx x c k).cur = x.cur := rfl
@[simp] theorem setCtx_arr (x : Tile) (c : Nat) (k : Ctx) : (setCtx x c k).arr = x.arr := rfl
@[simp] theorem setCtx_ringRound (x : Tile) (c : Nat) (k : Ctx) : (setCtx x c k).ringRound = x.ringRound := rfl
@[simp] theorem setCtx_ringPos (x : Tile) (c : Nat) (k : Ctx) : (setCtx x c k).ringPos = x.ringPos := rfl
@[simp] theorem setCtx_forwarded (x : Tile) (c : Nat) (k : Ctx) : (setCtx x c k).forwarded = x.forwarded := rfl
@[simp] theorem setCtx_spad (x : Tile) (c : Nat) (k : Ctx) : (setCtx x c k).spad = x.spad := rfl
@[simp] theorem setCtx_oneBit (x : Tile) (c : Nat) (k : Ctx) : (setCtx x c k).oneBit = x.oneBit := rfl
@[simp] theorem setCtx_twoBit (x : Tile) (c : Nat) (k : Ctx) : (setCtx x c k).twoBit = x.twoBit := rfl
@[simp] theorem setCtx_poison (x : Tile) (c : Nat) (k : Ctx) : (setCtx x c k).poison = x.poison := rfl
@[simp] theorem setCtx_flags (x : Tile) (c : Nat) (k : Ctx) : (setCtx x c k).flags = x.flags := rfl
@[simp] theorem setCtx_rowState (x : Tile) (c : Nat) (k : Ctx) : (setCtx x c k).rowState = x.rowState := rfl
@[simp] theorem setCtx_handles (x : Tile) (c : Nat) (k : Ctx) : (setCtx x c k).handles = x.handles := rfl
@[simp] theorem setCtx_merge (x : Tile) (c : Nat) (k : Ctx) : (setCtx x c k).merge = x.merge := rfl
@[simp] theorem setCtx_xlate (x : Tile) (c : Nat) (k : Ctx) : (setCtx x c k).xlate = x.xlate := rfl
@[simp] theorem setCtx_map (x : Tile) (c : Nat) (k : Ctx) : (setCtx x c k).map = x.map := rfl
@[simp] theorem setCtx_tags (x : Tile) (c : Nat) (k : Ctx) : (setCtx x c k).tags = x.tags := rfl
@[simp] theorem setCtx_circs (x : Tile) (c : Nat) (k : Ctx) : (setCtx x c k).circs = x.circs := rfl
@[simp] theorem setCtx_claims (x : Tile) (c : Nat) (k : Ctx) : (setCtx x c k).claims = x.claims := rfl
@[simp] theorem setCtx_nextOp (x : Tile) (c : Nat) (k : Ctx) : (setCtx x c k).nextOp = x.nextOp := rfl
@[simp] theorem setCtx_mats (x : Tile) (c : Nat) (k : Ctx) : (setCtx x c k).mats = x.mats := rfl
@[simp] theorem setCtx_drains (x : Tile) (c : Nat) (k : Ctx) : (setCtx x c k).drains = x.drains := rfl
@[simp] theorem setCtx_vecs (x : Tile) (c : Nat) (k : Ctx) : (setCtx x c k).vecs = x.vecs := rfl
@[simp] theorem setCtx_rescales (x : Tile) (c : Nat) (k : Ctx) : (setCtx x c k).rescales = x.rescales := rfl
@[simp] theorem setCtx_tracks (x : Tile) (c : Nat) (k : Ctx) : (setCtx x c k).tracks = x.tracks := rfl
@[simp] theorem setCtx_errStatus (x : Tile) (c : Nat) (k : Ctx) : (setCtx x c k).errStatus = x.errStatus := rfl
@[simp] theorem setCtx_eccCount (x : Tile) (c : Nat) (k : Ctx) : (setCtx x c k).eccCount = x.eccCount := rfl
@[simp] theorem setCtx_excStatus (x : Tile) (c : Nat) (k : Ctx) : (setCtx x c k).excStatus = x.excStatus := rfl
@[simp] theorem setCtx_excInfo (x : Tile) (c : Nat) (k : Ctx) : (setCtx x c k).excInfo = x.excInfo := rfl
@[simp] theorem setCtx_spadStatus (x : Tile) (c : Nat) (k : Ctx) : (setCtx x c k).spadStatus = x.spadStatus := rfl
@[simp] theorem setCtx_ctrs (x : Tile) (c : Nat) (k : Ctx) : (setCtx x c k).ctrs = x.ctrs := rfl
@[simp] theorem setCtx_lending (x : Tile) (c : Nat) (k : Ctx) : (setCtx x c k).lending = x.lending := rfl
end setCtx_fields

section modCtx_fields
@[simp] theorem modCtx_onSpare (x : Tile) (c : Nat) (f : Ctx → Ctx) : (modCtx x c f).onSpare = x.onSpare := rfl
@[simp] theorem modCtx_retired (x : Tile) (c : Nat) (f : Ctx → Ctx) : (modCtx x c f).retired = x.retired := rfl
@[simp] theorem modCtx_slots (x : Tile) (c : Nat) (f : Ctx → Ctx) : (modCtx x c f).slots = x.slots := rfl
@[simp] theorem modCtx_acc (x : Tile) (c : Nat) (f : Ctx → Ctx) : (modCtx x c f).acc = x.acc := rfl
@[simp] theorem modCtx_cur (x : Tile) (c : Nat) (f : Ctx → Ctx) : (modCtx x c f).cur = x.cur := rfl
@[simp] theorem modCtx_arr (x : Tile) (c : Nat) (f : Ctx → Ctx) : (modCtx x c f).arr = x.arr := rfl
@[simp] theorem modCtx_ringRound (x : Tile) (c : Nat) (f : Ctx → Ctx) : (modCtx x c f).ringRound = x.ringRound := rfl
@[simp] theorem modCtx_ringPos (x : Tile) (c : Nat) (f : Ctx → Ctx) : (modCtx x c f).ringPos = x.ringPos := rfl
@[simp] theorem modCtx_forwarded (x : Tile) (c : Nat) (f : Ctx → Ctx) : (modCtx x c f).forwarded = x.forwarded := rfl
@[simp] theorem modCtx_spad (x : Tile) (c : Nat) (f : Ctx → Ctx) : (modCtx x c f).spad = x.spad := rfl
@[simp] theorem modCtx_oneBit (x : Tile) (c : Nat) (f : Ctx → Ctx) : (modCtx x c f).oneBit = x.oneBit := rfl
@[simp] theorem modCtx_twoBit (x : Tile) (c : Nat) (f : Ctx → Ctx) : (modCtx x c f).twoBit = x.twoBit := rfl
@[simp] theorem modCtx_poison (x : Tile) (c : Nat) (f : Ctx → Ctx) : (modCtx x c f).poison = x.poison := rfl
@[simp] theorem modCtx_flags (x : Tile) (c : Nat) (f : Ctx → Ctx) : (modCtx x c f).flags = x.flags := rfl
@[simp] theorem modCtx_rowState (x : Tile) (c : Nat) (f : Ctx → Ctx) : (modCtx x c f).rowState = x.rowState := rfl
@[simp] theorem modCtx_handles (x : Tile) (c : Nat) (f : Ctx → Ctx) : (modCtx x c f).handles = x.handles := rfl
@[simp] theorem modCtx_merge (x : Tile) (c : Nat) (f : Ctx → Ctx) : (modCtx x c f).merge = x.merge := rfl
@[simp] theorem modCtx_xlate (x : Tile) (c : Nat) (f : Ctx → Ctx) : (modCtx x c f).xlate = x.xlate := rfl
@[simp] theorem modCtx_map (x : Tile) (c : Nat) (f : Ctx → Ctx) : (modCtx x c f).map = x.map := rfl
@[simp] theorem modCtx_tags (x : Tile) (c : Nat) (f : Ctx → Ctx) : (modCtx x c f).tags = x.tags := rfl
@[simp] theorem modCtx_circs (x : Tile) (c : Nat) (f : Ctx → Ctx) : (modCtx x c f).circs = x.circs := rfl
@[simp] theorem modCtx_claims (x : Tile) (c : Nat) (f : Ctx → Ctx) : (modCtx x c f).claims = x.claims := rfl
@[simp] theorem modCtx_nextOp (x : Tile) (c : Nat) (f : Ctx → Ctx) : (modCtx x c f).nextOp = x.nextOp := rfl
@[simp] theorem modCtx_mats (x : Tile) (c : Nat) (f : Ctx → Ctx) : (modCtx x c f).mats = x.mats := rfl
@[simp] theorem modCtx_drains (x : Tile) (c : Nat) (f : Ctx → Ctx) : (modCtx x c f).drains = x.drains := rfl
@[simp] theorem modCtx_vecs (x : Tile) (c : Nat) (f : Ctx → Ctx) : (modCtx x c f).vecs = x.vecs := rfl
@[simp] theorem modCtx_rescales (x : Tile) (c : Nat) (f : Ctx → Ctx) : (modCtx x c f).rescales = x.rescales := rfl
@[simp] theorem modCtx_tracks (x : Tile) (c : Nat) (f : Ctx → Ctx) : (modCtx x c f).tracks = x.tracks := rfl
@[simp] theorem modCtx_errStatus (x : Tile) (c : Nat) (f : Ctx → Ctx) : (modCtx x c f).errStatus = x.errStatus := rfl
@[simp] theorem modCtx_eccCount (x : Tile) (c : Nat) (f : Ctx → Ctx) : (modCtx x c f).eccCount = x.eccCount := rfl
@[simp] theorem modCtx_excStatus (x : Tile) (c : Nat) (f : Ctx → Ctx) : (modCtx x c f).excStatus = x.excStatus := rfl
@[simp] theorem modCtx_excInfo (x : Tile) (c : Nat) (f : Ctx → Ctx) : (modCtx x c f).excInfo = x.excInfo := rfl
@[simp] theorem modCtx_spadStatus (x : Tile) (c : Nat) (f : Ctx → Ctx) : (modCtx x c f).spadStatus = x.spadStatus := rfl
@[simp] theorem modCtx_ctrs (x : Tile) (c : Nat) (f : Ctx → Ctx) : (modCtx x c f).ctrs = x.ctrs := rfl
@[simp] theorem modCtx_lending (x : Tile) (c : Nat) (f : Ctx → Ctx) : (modCtx x c f).lending = x.lending := rfl
end modCtx_fields

section setSlot_fields
@[simp] theorem setSlot_onSpare (x : Tile) (i : Nat) (v : Slot) : (setSlot x i v).onSpare = x.onSpare := rfl
@[simp] theorem setSlot_retired (x : Tile) (i : Nat) (v : Slot) : (setSlot x i v).retired = x.retired := rfl
@[simp] theorem setSlot_ctx (x : Tile) (i : Nat) (v : Slot) : (setSlot x i v).ctx = x.ctx := rfl
@[simp] theorem setSlot_acc (x : Tile) (i : Nat) (v : Slot) : (setSlot x i v).acc = x.acc := rfl
@[simp] theorem setSlot_cur (x : Tile) (i : Nat) (v : Slot) : (setSlot x i v).cur = x.cur := rfl
@[simp] theorem setSlot_arr (x : Tile) (i : Nat) (v : Slot) : (setSlot x i v).arr = x.arr := rfl
@[simp] theorem setSlot_ringRound (x : Tile) (i : Nat) (v : Slot) : (setSlot x i v).ringRound = x.ringRound := rfl
@[simp] theorem setSlot_ringPos (x : Tile) (i : Nat) (v : Slot) : (setSlot x i v).ringPos = x.ringPos := rfl
@[simp] theorem setSlot_forwarded (x : Tile) (i : Nat) (v : Slot) : (setSlot x i v).forwarded = x.forwarded := rfl
@[simp] theorem setSlot_spad (x : Tile) (i : Nat) (v : Slot) : (setSlot x i v).spad = x.spad := rfl
@[simp] theorem setSlot_oneBit (x : Tile) (i : Nat) (v : Slot) : (setSlot x i v).oneBit = x.oneBit := rfl
@[simp] theorem setSlot_twoBit (x : Tile) (i : Nat) (v : Slot) : (setSlot x i v).twoBit = x.twoBit := rfl
@[simp] theorem setSlot_poison (x : Tile) (i : Nat) (v : Slot) : (setSlot x i v).poison = x.poison := rfl
@[simp] theorem setSlot_flags (x : Tile) (i : Nat) (v : Slot) : (setSlot x i v).flags = x.flags := rfl
@[simp] theorem setSlot_rowState (x : Tile) (i : Nat) (v : Slot) : (setSlot x i v).rowState = x.rowState := rfl
@[simp] theorem setSlot_handles (x : Tile) (i : Nat) (v : Slot) : (setSlot x i v).handles = x.handles := rfl
@[simp] theorem setSlot_merge (x : Tile) (i : Nat) (v : Slot) : (setSlot x i v).merge = x.merge := rfl
@[simp] theorem setSlot_xlate (x : Tile) (i : Nat) (v : Slot) : (setSlot x i v).xlate = x.xlate := rfl
@[simp] theorem setSlot_map (x : Tile) (i : Nat) (v : Slot) : (setSlot x i v).map = x.map := rfl
@[simp] theorem setSlot_tags (x : Tile) (i : Nat) (v : Slot) : (setSlot x i v).tags = x.tags := rfl
@[simp] theorem setSlot_circs (x : Tile) (i : Nat) (v : Slot) : (setSlot x i v).circs = x.circs := rfl
@[simp] theorem setSlot_claims (x : Tile) (i : Nat) (v : Slot) : (setSlot x i v).claims = x.claims := rfl
@[simp] theorem setSlot_nextOp (x : Tile) (i : Nat) (v : Slot) : (setSlot x i v).nextOp = x.nextOp := rfl
@[simp] theorem setSlot_mats (x : Tile) (i : Nat) (v : Slot) : (setSlot x i v).mats = x.mats := rfl
@[simp] theorem setSlot_drains (x : Tile) (i : Nat) (v : Slot) : (setSlot x i v).drains = x.drains := rfl
@[simp] theorem setSlot_vecs (x : Tile) (i : Nat) (v : Slot) : (setSlot x i v).vecs = x.vecs := rfl
@[simp] theorem setSlot_rescales (x : Tile) (i : Nat) (v : Slot) : (setSlot x i v).rescales = x.rescales := rfl
@[simp] theorem setSlot_tracks (x : Tile) (i : Nat) (v : Slot) : (setSlot x i v).tracks = x.tracks := rfl
@[simp] theorem setSlot_errStatus (x : Tile) (i : Nat) (v : Slot) : (setSlot x i v).errStatus = x.errStatus := rfl
@[simp] theorem setSlot_eccCount (x : Tile) (i : Nat) (v : Slot) : (setSlot x i v).eccCount = x.eccCount := rfl
@[simp] theorem setSlot_excStatus (x : Tile) (i : Nat) (v : Slot) : (setSlot x i v).excStatus = x.excStatus := rfl
@[simp] theorem setSlot_excInfo (x : Tile) (i : Nat) (v : Slot) : (setSlot x i v).excInfo = x.excInfo := rfl
@[simp] theorem setSlot_spadStatus (x : Tile) (i : Nat) (v : Slot) : (setSlot x i v).spadStatus = x.spadStatus := rfl
@[simp] theorem setSlot_ctrs (x : Tile) (i : Nat) (v : Slot) : (setSlot x i v).ctrs = x.ctrs := rfl
@[simp] theorem setSlot_lending (x : Tile) (i : Nat) (v : Slot) : (setSlot x i v).lending = x.lending := rfl
end setSlot_fields

section setHandle_fields
@[simp] theorem setHandle_onSpare (x : Tile) (i : Nat) (v : Handle) : (setHandle x i v).onSpare = x.onSpare := rfl
@[simp] theorem setHandle_retired (x : Tile) (i : Nat) (v : Handle) : (setHandle x i v).retired = x.retired := rfl
@[simp] theorem setHandle_ctx (x : Tile) (i : Nat) (v : Handle) : (setHandle x i v).ctx = x.ctx := rfl
@[simp] theorem setHandle_slots (x : Tile) (i : Nat) (v : Handle) : (setHandle x i v).slots = x.slots := rfl
@[simp] theorem setHandle_acc (x : Tile) (i : Nat) (v : Handle) : (setHandle x i v).acc = x.acc := rfl
@[simp] theorem setHandle_cur (x : Tile) (i : Nat) (v : Handle) : (setHandle x i v).cur = x.cur := rfl
@[simp] theorem setHandle_arr (x : Tile) (i : Nat) (v : Handle) : (setHandle x i v).arr = x.arr := rfl
@[simp] theorem setHandle_ringRound (x : Tile) (i : Nat) (v : Handle) : (setHandle x i v).ringRound = x.ringRound := rfl
@[simp] theorem setHandle_ringPos (x : Tile) (i : Nat) (v : Handle) : (setHandle x i v).ringPos = x.ringPos := rfl
@[simp] theorem setHandle_forwarded (x : Tile) (i : Nat) (v : Handle) : (setHandle x i v).forwarded = x.forwarded := rfl
@[simp] theorem setHandle_spad (x : Tile) (i : Nat) (v : Handle) : (setHandle x i v).spad = x.spad := rfl
@[simp] theorem setHandle_oneBit (x : Tile) (i : Nat) (v : Handle) : (setHandle x i v).oneBit = x.oneBit := rfl
@[simp] theorem setHandle_twoBit (x : Tile) (i : Nat) (v : Handle) : (setHandle x i v).twoBit = x.twoBit := rfl
@[simp] theorem setHandle_poison (x : Tile) (i : Nat) (v : Handle) : (setHandle x i v).poison = x.poison := rfl
@[simp] theorem setHandle_flags (x : Tile) (i : Nat) (v : Handle) : (setHandle x i v).flags = x.flags := rfl
@[simp] theorem setHandle_rowState (x : Tile) (i : Nat) (v : Handle) : (setHandle x i v).rowState = x.rowState := rfl
@[simp] theorem setHandle_merge (x : Tile) (i : Nat) (v : Handle) : (setHandle x i v).merge = x.merge := rfl
@[simp] theorem setHandle_xlate (x : Tile) (i : Nat) (v : Handle) : (setHandle x i v).xlate = x.xlate := rfl
@[simp] theorem setHandle_map (x : Tile) (i : Nat) (v : Handle) : (setHandle x i v).map = x.map := rfl
@[simp] theorem setHandle_tags (x : Tile) (i : Nat) (v : Handle) : (setHandle x i v).tags = x.tags := rfl
@[simp] theorem setHandle_circs (x : Tile) (i : Nat) (v : Handle) : (setHandle x i v).circs = x.circs := rfl
@[simp] theorem setHandle_claims (x : Tile) (i : Nat) (v : Handle) : (setHandle x i v).claims = x.claims := rfl
@[simp] theorem setHandle_nextOp (x : Tile) (i : Nat) (v : Handle) : (setHandle x i v).nextOp = x.nextOp := rfl
@[simp] theorem setHandle_mats (x : Tile) (i : Nat) (v : Handle) : (setHandle x i v).mats = x.mats := rfl
@[simp] theorem setHandle_drains (x : Tile) (i : Nat) (v : Handle) : (setHandle x i v).drains = x.drains := rfl
@[simp] theorem setHandle_vecs (x : Tile) (i : Nat) (v : Handle) : (setHandle x i v).vecs = x.vecs := rfl
@[simp] theorem setHandle_rescales (x : Tile) (i : Nat) (v : Handle) : (setHandle x i v).rescales = x.rescales := rfl
@[simp] theorem setHandle_tracks (x : Tile) (i : Nat) (v : Handle) : (setHandle x i v).tracks = x.tracks := rfl
@[simp] theorem setHandle_errStatus (x : Tile) (i : Nat) (v : Handle) : (setHandle x i v).errStatus = x.errStatus := rfl
@[simp] theorem setHandle_eccCount (x : Tile) (i : Nat) (v : Handle) : (setHandle x i v).eccCount = x.eccCount := rfl
@[simp] theorem setHandle_excStatus (x : Tile) (i : Nat) (v : Handle) : (setHandle x i v).excStatus = x.excStatus := rfl
@[simp] theorem setHandle_excInfo (x : Tile) (i : Nat) (v : Handle) : (setHandle x i v).excInfo = x.excInfo := rfl
@[simp] theorem setHandle_spadStatus (x : Tile) (i : Nat) (v : Handle) : (setHandle x i v).spadStatus = x.spadStatus := rfl
@[simp] theorem setHandle_ctrs (x : Tile) (i : Nat) (v : Handle) : (setHandle x i v).ctrs = x.ctrs := rfl
@[simp] theorem setHandle_lending (x : Tile) (i : Nat) (v : Handle) : (setHandle x i v).lending = x.lending := rfl
end setHandle_fields

section setFlag_fields
@[simp] theorem setFlag_onSpare (x : Tile) (f : Nat) (v : Word32) : (setFlag x f v).onSpare = x.onSpare := rfl
@[simp] theorem setFlag_retired (x : Tile) (f : Nat) (v : Word32) : (setFlag x f v).retired = x.retired := rfl
@[simp] theorem setFlag_ctx (x : Tile) (f : Nat) (v : Word32) : (setFlag x f v).ctx = x.ctx := rfl
@[simp] theorem setFlag_slots (x : Tile) (f : Nat) (v : Word32) : (setFlag x f v).slots = x.slots := rfl
@[simp] theorem setFlag_acc (x : Tile) (f : Nat) (v : Word32) : (setFlag x f v).acc = x.acc := rfl
@[simp] theorem setFlag_cur (x : Tile) (f : Nat) (v : Word32) : (setFlag x f v).cur = x.cur := rfl
@[simp] theorem setFlag_arr (x : Tile) (f : Nat) (v : Word32) : (setFlag x f v).arr = x.arr := rfl
@[simp] theorem setFlag_ringRound (x : Tile) (f : Nat) (v : Word32) : (setFlag x f v).ringRound = x.ringRound := rfl
@[simp] theorem setFlag_ringPos (x : Tile) (f : Nat) (v : Word32) : (setFlag x f v).ringPos = x.ringPos := rfl
@[simp] theorem setFlag_forwarded (x : Tile) (f : Nat) (v : Word32) : (setFlag x f v).forwarded = x.forwarded := rfl
@[simp] theorem setFlag_spad (x : Tile) (f : Nat) (v : Word32) : (setFlag x f v).spad = x.spad := rfl
@[simp] theorem setFlag_oneBit (x : Tile) (f : Nat) (v : Word32) : (setFlag x f v).oneBit = x.oneBit := rfl
@[simp] theorem setFlag_twoBit (x : Tile) (f : Nat) (v : Word32) : (setFlag x f v).twoBit = x.twoBit := rfl
@[simp] theorem setFlag_poison (x : Tile) (f : Nat) (v : Word32) : (setFlag x f v).poison = x.poison := rfl
@[simp] theorem setFlag_rowState (x : Tile) (f : Nat) (v : Word32) : (setFlag x f v).rowState = x.rowState := rfl
@[simp] theorem setFlag_handles (x : Tile) (f : Nat) (v : Word32) : (setFlag x f v).handles = x.handles := rfl
@[simp] theorem setFlag_merge (x : Tile) (f : Nat) (v : Word32) : (setFlag x f v).merge = x.merge := rfl
@[simp] theorem setFlag_xlate (x : Tile) (f : Nat) (v : Word32) : (setFlag x f v).xlate = x.xlate := rfl
@[simp] theorem setFlag_map (x : Tile) (f : Nat) (v : Word32) : (setFlag x f v).map = x.map := rfl
@[simp] theorem setFlag_tags (x : Tile) (f : Nat) (v : Word32) : (setFlag x f v).tags = x.tags := rfl
@[simp] theorem setFlag_circs (x : Tile) (f : Nat) (v : Word32) : (setFlag x f v).circs = x.circs := rfl
@[simp] theorem setFlag_claims (x : Tile) (f : Nat) (v : Word32) : (setFlag x f v).claims = x.claims := rfl
@[simp] theorem setFlag_nextOp (x : Tile) (f : Nat) (v : Word32) : (setFlag x f v).nextOp = x.nextOp := rfl
@[simp] theorem setFlag_mats (x : Tile) (f : Nat) (v : Word32) : (setFlag x f v).mats = x.mats := rfl
@[simp] theorem setFlag_drains (x : Tile) (f : Nat) (v : Word32) : (setFlag x f v).drains = x.drains := rfl
@[simp] theorem setFlag_vecs (x : Tile) (f : Nat) (v : Word32) : (setFlag x f v).vecs = x.vecs := rfl
@[simp] theorem setFlag_rescales (x : Tile) (f : Nat) (v : Word32) : (setFlag x f v).rescales = x.rescales := rfl
@[simp] theorem setFlag_tracks (x : Tile) (f : Nat) (v : Word32) : (setFlag x f v).tracks = x.tracks := rfl
@[simp] theorem setFlag_errStatus (x : Tile) (f : Nat) (v : Word32) : (setFlag x f v).errStatus = x.errStatus := rfl
@[simp] theorem setFlag_eccCount (x : Tile) (f : Nat) (v : Word32) : (setFlag x f v).eccCount = x.eccCount := rfl
@[simp] theorem setFlag_excStatus (x : Tile) (f : Nat) (v : Word32) : (setFlag x f v).excStatus = x.excStatus := rfl
@[simp] theorem setFlag_excInfo (x : Tile) (f : Nat) (v : Word32) : (setFlag x f v).excInfo = x.excInfo := rfl
@[simp] theorem setFlag_spadStatus (x : Tile) (f : Nat) (v : Word32) : (setFlag x f v).spadStatus = x.spadStatus := rfl
@[simp] theorem setFlag_ctrs (x : Tile) (f : Nat) (v : Word32) : (setFlag x f v).ctrs = x.ctrs := rfl
@[simp] theorem setFlag_lending (x : Tile) (f : Nat) (v : Word32) : (setFlag x f v).lending = x.lending := rfl
end setFlag_fields

section addFlag_fields
@[simp] theorem addFlag_onSpare (x : Tile) (f : Nat) (v : Word32) : (addFlag x f v).onSpare = x.onSpare := rfl
@[simp] theorem addFlag_retired (x : Tile) (f : Nat) (v : Word32) : (addFlag x f v).retired = x.retired := rfl
@[simp] theorem addFlag_ctx (x : Tile) (f : Nat) (v : Word32) : (addFlag x f v).ctx = x.ctx := rfl
@[simp] theorem addFlag_slots (x : Tile) (f : Nat) (v : Word32) : (addFlag x f v).slots = x.slots := rfl
@[simp] theorem addFlag_acc (x : Tile) (f : Nat) (v : Word32) : (addFlag x f v).acc = x.acc := rfl
@[simp] theorem addFlag_cur (x : Tile) (f : Nat) (v : Word32) : (addFlag x f v).cur = x.cur := rfl
@[simp] theorem addFlag_arr (x : Tile) (f : Nat) (v : Word32) : (addFlag x f v).arr = x.arr := rfl
@[simp] theorem addFlag_ringRound (x : Tile) (f : Nat) (v : Word32) : (addFlag x f v).ringRound = x.ringRound := rfl
@[simp] theorem addFlag_ringPos (x : Tile) (f : Nat) (v : Word32) : (addFlag x f v).ringPos = x.ringPos := rfl
@[simp] theorem addFlag_forwarded (x : Tile) (f : Nat) (v : Word32) : (addFlag x f v).forwarded = x.forwarded := rfl
@[simp] theorem addFlag_spad (x : Tile) (f : Nat) (v : Word32) : (addFlag x f v).spad = x.spad := rfl
@[simp] theorem addFlag_oneBit (x : Tile) (f : Nat) (v : Word32) : (addFlag x f v).oneBit = x.oneBit := rfl
@[simp] theorem addFlag_twoBit (x : Tile) (f : Nat) (v : Word32) : (addFlag x f v).twoBit = x.twoBit := rfl
@[simp] theorem addFlag_poison (x : Tile) (f : Nat) (v : Word32) : (addFlag x f v).poison = x.poison := rfl
@[simp] theorem addFlag_rowState (x : Tile) (f : Nat) (v : Word32) : (addFlag x f v).rowState = x.rowState := rfl
@[simp] theorem addFlag_handles (x : Tile) (f : Nat) (v : Word32) : (addFlag x f v).handles = x.handles := rfl
@[simp] theorem addFlag_merge (x : Tile) (f : Nat) (v : Word32) : (addFlag x f v).merge = x.merge := rfl
@[simp] theorem addFlag_xlate (x : Tile) (f : Nat) (v : Word32) : (addFlag x f v).xlate = x.xlate := rfl
@[simp] theorem addFlag_map (x : Tile) (f : Nat) (v : Word32) : (addFlag x f v).map = x.map := rfl
@[simp] theorem addFlag_tags (x : Tile) (f : Nat) (v : Word32) : (addFlag x f v).tags = x.tags := rfl
@[simp] theorem addFlag_circs (x : Tile) (f : Nat) (v : Word32) : (addFlag x f v).circs = x.circs := rfl
@[simp] theorem addFlag_claims (x : Tile) (f : Nat) (v : Word32) : (addFlag x f v).claims = x.claims := rfl
@[simp] theorem addFlag_nextOp (x : Tile) (f : Nat) (v : Word32) : (addFlag x f v).nextOp = x.nextOp := rfl
@[simp] theorem addFlag_mats (x : Tile) (f : Nat) (v : Word32) : (addFlag x f v).mats = x.mats := rfl
@[simp] theorem addFlag_drains (x : Tile) (f : Nat) (v : Word32) : (addFlag x f v).drains = x.drains := rfl
@[simp] theorem addFlag_vecs (x : Tile) (f : Nat) (v : Word32) : (addFlag x f v).vecs = x.vecs := rfl
@[simp] theorem addFlag_rescales (x : Tile) (f : Nat) (v : Word32) : (addFlag x f v).rescales = x.rescales := rfl
@[simp] theorem addFlag_tracks (x : Tile) (f : Nat) (v : Word32) : (addFlag x f v).tracks = x.tracks := rfl
@[simp] theorem addFlag_errStatus (x : Tile) (f : Nat) (v : Word32) : (addFlag x f v).errStatus = x.errStatus := rfl
@[simp] theorem addFlag_eccCount (x : Tile) (f : Nat) (v : Word32) : (addFlag x f v).eccCount = x.eccCount := rfl
@[simp] theorem addFlag_excStatus (x : Tile) (f : Nat) (v : Word32) : (addFlag x f v).excStatus = x.excStatus := rfl
@[simp] theorem addFlag_excInfo (x : Tile) (f : Nat) (v : Word32) : (addFlag x f v).excInfo = x.excInfo := rfl
@[simp] theorem addFlag_spadStatus (x : Tile) (f : Nat) (v : Word32) : (addFlag x f v).spadStatus = x.spadStatus := rfl
@[simp] theorem addFlag_ctrs (x : Tile) (f : Nat) (v : Word32) : (addFlag x f v).ctrs = x.ctrs := rfl
@[simp] theorem addFlag_lending (x : Tile) (f : Nat) (v : Word32) : (addFlag x f v).lending = x.lending := rfl
end addFlag_fields

section tileCtr_fields
@[simp] theorem tileCtr_onSpare (x : Tile) (off n : Nat) : (tileCtr x off n).onSpare = x.onSpare := rfl
@[simp] theorem tileCtr_retired (x : Tile) (off n : Nat) : (tileCtr x off n).retired = x.retired := rfl
@[simp] theorem tileCtr_ctx (x : Tile) (off n : Nat) : (tileCtr x off n).ctx = x.ctx := rfl
@[simp] theorem tileCtr_slots (x : Tile) (off n : Nat) : (tileCtr x off n).slots = x.slots := rfl
@[simp] theorem tileCtr_acc (x : Tile) (off n : Nat) : (tileCtr x off n).acc = x.acc := rfl
@[simp] theorem tileCtr_cur (x : Tile) (off n : Nat) : (tileCtr x off n).cur = x.cur := rfl
@[simp] theorem tileCtr_arr (x : Tile) (off n : Nat) : (tileCtr x off n).arr = x.arr := rfl
@[simp] theorem tileCtr_ringRound (x : Tile) (off n : Nat) : (tileCtr x off n).ringRound = x.ringRound := rfl
@[simp] theorem tileCtr_ringPos (x : Tile) (off n : Nat) : (tileCtr x off n).ringPos = x.ringPos := rfl
@[simp] theorem tileCtr_forwarded (x : Tile) (off n : Nat) : (tileCtr x off n).forwarded = x.forwarded := rfl
@[simp] theorem tileCtr_spad (x : Tile) (off n : Nat) : (tileCtr x off n).spad = x.spad := rfl
@[simp] theorem tileCtr_oneBit (x : Tile) (off n : Nat) : (tileCtr x off n).oneBit = x.oneBit := rfl
@[simp] theorem tileCtr_twoBit (x : Tile) (off n : Nat) : (tileCtr x off n).twoBit = x.twoBit := rfl
@[simp] theorem tileCtr_poison (x : Tile) (off n : Nat) : (tileCtr x off n).poison = x.poison := rfl
@[simp] theorem tileCtr_flags (x : Tile) (off n : Nat) : (tileCtr x off n).flags = x.flags := rfl
@[simp] theorem tileCtr_rowState (x : Tile) (off n : Nat) : (tileCtr x off n).rowState = x.rowState := rfl
@[simp] theorem tileCtr_handles (x : Tile) (off n : Nat) : (tileCtr x off n).handles = x.handles := rfl
@[simp] theorem tileCtr_merge (x : Tile) (off n : Nat) : (tileCtr x off n).merge = x.merge := rfl
@[simp] theorem tileCtr_xlate (x : Tile) (off n : Nat) : (tileCtr x off n).xlate = x.xlate := rfl
@[simp] theorem tileCtr_map (x : Tile) (off n : Nat) : (tileCtr x off n).map = x.map := rfl
@[simp] theorem tileCtr_tags (x : Tile) (off n : Nat) : (tileCtr x off n).tags = x.tags := rfl
@[simp] theorem tileCtr_circs (x : Tile) (off n : Nat) : (tileCtr x off n).circs = x.circs := rfl
@[simp] theorem tileCtr_claims (x : Tile) (off n : Nat) : (tileCtr x off n).claims = x.claims := rfl
@[simp] theorem tileCtr_nextOp (x : Tile) (off n : Nat) : (tileCtr x off n).nextOp = x.nextOp := rfl
@[simp] theorem tileCtr_mats (x : Tile) (off n : Nat) : (tileCtr x off n).mats = x.mats := rfl
@[simp] theorem tileCtr_drains (x : Tile) (off n : Nat) : (tileCtr x off n).drains = x.drains := rfl
@[simp] theorem tileCtr_vecs (x : Tile) (off n : Nat) : (tileCtr x off n).vecs = x.vecs := rfl
@[simp] theorem tileCtr_rescales (x : Tile) (off n : Nat) : (tileCtr x off n).rescales = x.rescales := rfl
@[simp] theorem tileCtr_tracks (x : Tile) (off n : Nat) : (tileCtr x off n).tracks = x.tracks := rfl
@[simp] theorem tileCtr_errStatus (x : Tile) (off n : Nat) : (tileCtr x off n).errStatus = x.errStatus := rfl
@[simp] theorem tileCtr_eccCount (x : Tile) (off n : Nat) : (tileCtr x off n).eccCount = x.eccCount := rfl
@[simp] theorem tileCtr_excStatus (x : Tile) (off n : Nat) : (tileCtr x off n).excStatus = x.excStatus := rfl
@[simp] theorem tileCtr_excInfo (x : Tile) (off n : Nat) : (tileCtr x off n).excInfo = x.excInfo := rfl
@[simp] theorem tileCtr_spadStatus (x : Tile) (off n : Nat) : (tileCtr x off n).spadStatus = x.spadStatus := rfl
@[simp] theorem tileCtr_lending (x : Tile) (off n : Nat) : (tileCtr x off n).lending = x.lending := rfl
end tileCtr_fields

@[simp] theorem getTile_setTile (s : State) (t u : Nat) (x : Tile) : getTile (setTile s t x) u = if u = t then x else getTile s u :=
  tabGetD_insert u t x {} s.tiles
@[simp] theorem getTile_modTile (s : State) (t u : Nat) (f : Tile → Tile) : getTile (modTile s t f) u = if u = t then f (getTile s t) else getTile s u :=
  getTile_setTile s t u _
@[simp] theorem getCtx_setCtx (x : Tile) (c d : Nat) (k : Ctx) : getCtx (setCtx x c k) d = if d = c then k else getCtx x d :=
  tabGetD_insert d c k {} x.ctx
@[simp] theorem getCtx_modCtx (x : Tile) (c d : Nat) (f : Ctx → Ctx) : getCtx (modCtx x c f) d = if d = c then f (getCtx x c) else getCtx x d :=
  getCtx_setCtx x c d _
@[simp] theorem getSlot_setSlot (x : Tile) (i j : Nat) (v : Slot) : getSlot (setSlot x i v) j = if j = i then v else getSlot x j :=
  tabGetD_insert j i v {} x.slots
@[simp] theorem getHandle_setHandle (x : Tile) (i j : Nat) (v : Handle) : getHandle (setHandle x i v) j = if j = i then v else getHandle x j :=
  tabGetD_insert j i v {} x.handles
@[simp] theorem getFlag_setFlag (x : Tile) (f g : Nat) (v : Word32) : getFlag (setFlag x f v) g = if g = f then v else getFlag x g :=
  smGet_smSet x.flags f g v
@[simp] theorem getFunc_modFunc (s : State) (f h : Nat) (g : Func → Func) : getFunc (modFunc s f g) h = if h = f then g (getFunc s f) else getFunc s h :=
  tabGetD_insert h f (g (getFunc s f)) {} s.funcs
@[simp] theorem getPart_setPart (s : State) (p q : Nat) (x : Part) : getPart? (setPart s p x) q = if q = p then some x else getPart? s q :=
  tabGet_insert q p x s.parts
@[simp] theorem getEntry_setEntry (s : State) (i j : Nat) (e : Entry) : getEntry? (setEntry s i e) j = if j = i then some e else getEntry? s j :=
  tabGet_insert j i e s.table

/-- s0 reads 0 and takes no write; every other register reads what was written (R124). -/
theorem readS_writeS (k : Ctx) (i j : Nat) (v : Word64) : readS (writeS k i v) j = if j = i ∧ i ≠ 0 then v else readS k j := by
  unfold readS writeS
  by_cases hi : i = 0
  · simp [hi]
  · by_cases hj : j = i
    · subst hj; simp [hi]
    · simp [hi, hj, smGet_smSet_other]
theorem readB_writeB (k : Ctx) (i j : Nat) (v : Word32) : readB (writeB k i v) j = if j = i ∧ i ≠ 0 then v else readB k j := by
  unfold readB writeB
  by_cases hi : i = 0
  · simp [hi]
  · by_cases hj : j = i
    · subst hj; simp [hi]
    · simp [hi, hj, tabGetD_insert]
theorem readM_writeM (k : Ctx) (i j : Nat) (v : BitVec 512) : readM (writeM k i v) j = if j = i ∧ i ≠ 0 then v else readM k j := by
  unfold readM writeM
  by_cases hi : i = 0
  · simp [hi]
  · by_cases hj : j = i
    · subst hj; simp [hi]
    · simp [hi, hj, tabGetD_insert]

end Sys2Proof.Machine
end

