-- ==== Sys2Proof/Laws/Issue.lean ====
section
/-! SUPPORT. Issue.lean: an instruction at the head of a context's queue, and what its acceptance changes. -/

namespace Sys2Proof.Machine

open Sys2Proof

/-- An instruction at the head meets the checks of its class next. -/
theorem issue_atHead {s : State} {t c op : Nat} {w : BitVec 120} {rsv : List (Nat × Nat)} {p : Nat} {part : Part}
    (h : AtHead s t c op w rsv p part) (check : Iss → Verdict) (rows : Iss → Rows) (go : Iss → State) :
    issue s t c op w rsv check rows go =
      match check (issOf s t c op w p part) with
      | .go => .next (go (issOf s t c op w p part))
      | .hold cause obj => .next (modTile s t (fun x => holdHead (now s) x c op cause obj))
      | .wait l => .next (modTile s t (fun x => holdHead (now s) (headClaims x c l) c op 4 0))
      | .exc code kind v => .next (takeException s t c code op (ctxOf s t c).pc kind v (rows (issOf s t c op w p part)))
      | .poison q => .next (spadFault s t q (issShape (issOf s t c op w p part)))
      | .stay => .next (modTile s t (fun x => modCtx x c (fun k => { k with st := .running, cause := 0, object := 0, atEnd := true }))) := by
  have hr : ¬(¬((getCtx (getTile s t) c).st = .running ∨ (getCtx (getTile s t) c).st = .waiting) ∨ (getCtx (getTile s t) c).held.isSome = true) := by
    simp [h.runs, h.head]
  have hf : ¬(fetchOk (getTile s t) (getCtx (getTile s t) c).pc = false) := by simp [h.fetch]
  unfold issue
  simp only [h.tileOf, h.partOf, h.words, if_neg hr, if_neg hf, h.clean, h.fields]
  rfl

theorem issue_go {s : State} {t c op : Nat} {w : BitVec 120} {rsv : List (Nat × Nat)} {p : Nat} {part : Part}
    (h : AtHead s t c op w rsv p part) {check : Iss → Verdict} (rows : Iss → Rows) (go : Iss → State)
    (hc : check (issOf s t c op w p part) = .go) :
    issue s t c op w rsv check rows go = .next (go (issOf s t c op w p part)) := by
  rw [issue_atHead h, hc]

section accept
variable {s : State} {t c op : Nat} {w : BitVec 120} {p : Nat} {part : Part}

/-- The tile after acceptance. -/
theorem getTile_accept (f : Ctx → Ctx) (g : Tile → Tile) (u : Nat) :
    getTile ((issOf s t c op w p part).accept f g) u =
      if u = t then g (modCtx { getTile s t with lending := false } c (fun k => f (acceptCtx k))) else getTile s u :=
  getTile_setTile s t u _

/-- The context after acceptance, for an effect on the tile that leaves the contexts alone. -/
theorem ctxOf_accept (f : Ctx → Ctx) (g : Tile → Tile) (hg : ∀ y, (g y).ctx = y.ctx) (d : Nat) :
    getCtx (getTile ((issOf s t c op w p part).accept f g) t) d = if d = c then f (acceptCtx (ctxOf s t c)) else getCtx (getTile s t) d := by
  rw [getTile_accept, if_pos rfl]
  unfold getCtx
  rw [hg]
  exact tabGetD_insert d c _ {} (getTile s t).ctx

theorem onlyTile_accept (f : Ctx → Ctx) (g : Tile → Tile) (hg : ∀ y, (g y).ctx = y.ctx) (hl : ∀ y, (g y).lending = y.lending) :
    OnlyTile s ((issOf s t c op w p part).accept f g) t c where
  rest := rfl
  others := fun u hu => by rw [getTile_accept, if_neg hu]
  power := by rw [getTile_accept, if_pos rfl, hl]; rfl
  ctxs := fun d hd => by rw [ctxOf_accept f g hg, if_neg hd]

theorem ctxOf_accept_self (f : Ctx → Ctx) (g : Tile → Tile) (hg : ∀ y, (g y).ctx = y.ctx) :
    ctxOf ((issOf s t c op w p part).accept f g) t c = f (acceptCtx (ctxOf s t c)) :=
  (ctxOf_accept f g hg c).trans (if_pos rfl)

theorem sameUnits_accept (f : Ctx → Ctx) : SameUnits (getTile s t) (getTile ((issOf s t c op w p part).accept f id) t) := by
  rw [getTile_accept, if_pos rfl]
  rfl

end accept

theorem passed_acceptCtx (k : Ctx) : Passed k (acceptCtx k) := ⟨rfl, ⟨rfl, rfl⟩, rfl, rfl⟩
theorem Passed.writeS {k k' : Ctx} (h : Passed k k') (i : Nat) (v : Word64) : Passed k (writeS k' i v) := by
  unfold Machine.writeS
  split
  · exact h
  · exact ⟨h.st, h.cause, h.held, h.pc⟩
theorem Passed.writeB {k k' : Ctx} (h : Passed k k') (i : Nat) (v : Word32) : Passed k (writeB k' i v) := by
  unfold Machine.writeB
  split
  · exact h
  · exact ⟨h.st, h.cause, h.held, h.pc⟩
theorem Passed.writeM {k k' : Ctx} (h : Passed k k') (i : Nat) (v : BitVec 512) : Passed k (writeM k' i v) := by
  unfold Machine.writeM
  split
  · exact h
  · exact ⟨h.st, h.cause, h.held, h.pc⟩
theorem wentOn_acceptCtx (k : Ctx) : WentOn k (acceptCtx k) := ⟨passed_acceptCtx k, fun _ => rfl, fun _ => rfl, fun _ => rfl⟩

theorem readS_writeB (k : Ctx) (i : Nat) (v : Word32) (j : Nat) : readS (writeB k i v) j = readS k j := by
  unfold writeB; split <;> rfl
theorem readS_writeM (k : Ctx) (i : Nat) (v : BitVec 512) (j : Nat) : readS (writeM k i v) j = readS k j := by
  unfold writeM; split <;> rfl
theorem readB_writeS (k : Ctx) (i : Nat) (v : Word64) (j : Nat) : readB (writeS k i v) j = readB k j := by
  unfold writeS; split <;> rfl
theorem readB_writeM (k : Ctx) (i : Nat) (v : BitVec 512) (j : Nat) : readB (writeM k i v) j = readB k j := by
  unfold writeM; split <;> rfl
theorem readM_writeS (k : Ctx) (i : Nat) (v : Word64) (j : Nat) : readM (writeS k i v) j = readM k j := by
  unfold writeS; split <;> rfl
theorem readM_writeB (k : Ctx) (i : Nat) (v : Word32) (j : Nat) : readM (writeB k i v) j = readM k j := by
  unfold writeB; split <;> rfl

/-! ## Claims, tracks and words -/

/-- A claim changes tags, circular regions and the list of claims, and nothing else of its tile. -/
def ClaimsOnly (x y : Tile) : Prop := { y with tags := x.tags, circs := x.circs, claims := x.claims } = x

theorem ClaimsOnly.refl (x : Tile) : ClaimsOnly x x := rfl
theorem ClaimsOnly.trans {x y z : Tile} (h : ClaimsOnly x y) (k : ClaimsOnly y z) : ClaimsOnly x z := by
  unfold ClaimsOnly at *
  rw [← h, ← k]
theorem claimsOnly_addClaim (x : Tile) (q : Claim) : ClaimsOnly x (addClaim x q) := by
  have h : ClaimsOnly x { (takeClaim x q).1 with claims := (takeClaim x q).1.claims ++ [(takeClaim x q).2] } := by
    unfold takeClaim
    split
    · dsimp only
      split <;> rfl
    · rfl
  unfold addClaim
  split
  · exact h
  · rfl
theorem claimsOnly_makeClaims (l : List Opnd) (op who : Nat) (remote : Bool) : ∀ x, ClaimsOnly x (makeClaims x op who remote l) := by
  induction l with
  | nil => exact ClaimsOnly.refl
  | cons o r ih =>
    intro x
    refine ClaimsOnly.trans ?_ (ih _)
    dsimp only
    split
    · exact ClaimsOnly.refl _
    · split
      · exact claimsOnly_addClaim _ _
      · exact ClaimsOnly.refl _
theorem claimsOnly_tryClaim (x : Tile) (i : Nat) : ClaimsOnly x (tryClaim x i) := by
  unfold tryClaim
  split
  · exact ClaimsOnly.refl _
  · split
    · exact ClaimsOnly.refl _
    · rename_i q _ _
      have h : ClaimsOnly x { (takeClaim x q).1 with claims := x.claims.set i (takeClaim x q).2 } := by
        unfold takeClaim
        split
        · dsimp only
          split <;> rfl
        · rfl
      exact h
theorem claimsOnly_retryClaims (x : Tile) (op : Nat) : ClaimsOnly x (retryClaims x op) := by
  have h : ∀ (l : List Nat) (y : Tile), ClaimsOnly y (l.foldl (fun x i => match x.claims[i]? with | some q => if q.op = op then tryClaim x i else x | none => x) y) := by
    intro l
    induction l with
    | nil => exact ClaimsOnly.refl
    | cons i r ih =>
      intro y
      refine ClaimsOnly.trans ?_ (ih _)
      dsimp only
      split
      · split
        · exact claimsOnly_tryClaim _ _
        · exact ClaimsOnly.refl _
      · exact ClaimsOnly.refl _
  exact h _ _

/-- The completion of an operation also advances the flags of a circular region (R173) and forgets its tracked ranges. -/
def CompletesOnly (x y : Tile) : Prop := { y with tags := x.tags, circs := x.circs, claims := x.claims, flags := x.flags, tracks := x.tracks } = x

theorem CompletesOnly.trans {x y z : Tile} (h : CompletesOnly x y) (k : CompletesOnly y z) : CompletesOnly x z := by
  unfold CompletesOnly at *
  rw [← h, ← k]
theorem completesOnly_of_claims {x y : Tile} (h : ClaimsOnly x y) : CompletesOnly x y := by
  unfold ClaimsOnly at h
  unfold CompletesOnly
  rw [← h]
theorem completesOnly_completeClaim (x : Tile) (q : Claim) : CompletesOnly x (completeClaim x q) := by
  unfold completeClaim
  split
  · dsimp only
    split
    · split
      · split <;> rfl
      · rfl
    · split
      · split <;> rfl
      · rfl
  · rfl
theorem completesOnly_completeOp (x : Tile) (op : Nat) : CompletesOnly x (completeOp x op) := by
  have h : ∀ (l : List Claim) (y : Tile), CompletesOnly y (l.foldl completeClaim y) := by
    intro l
    induction l with
    | nil => exact fun _ => rfl
    | cons q r ih => exact fun y => (completesOnly_completeClaim y q).trans (ih _)
  unfold completeOp
  have k := h (x.claims.filter (fun q => decide (q.op = op) && q.taken)) x
  unfold CompletesOnly at *
  exact k

/-- A mask of a test reads the test. -/
theorem maskOf_get (f : Nat → Bool) (n : Nat) (h : n < 512) : (maskOf f).getLsbD n = f n := by
  have hs : ∀ m, ((List.range m).foldl (fun a i => a + (if f i then 2 ^ i else 0)) 0) < 2 ^ m ∧
      ∀ j, j < m → Nat.testBit ((List.range m).foldl (fun a i => a + (if f i then 2 ^ i else 0)) 0) j = f j := by
    intro m
    induction m with
    | zero => simp
    | succ m ih =>
      rw [List.range_succ, List.foldl_append]
      simp only [List.foldl_cons, List.foldl_nil]
      obtain ⟨hl, ht⟩ := ih
      generalize (List.range m).foldl (fun a i => a + (if f i then 2 ^ i else 0)) 0 = a at hl ht
      refine ⟨?_, fun j hj => ?_⟩
      · split <;> (rw [Nat.pow_succ]; omega)
      · by_cases hm : j = m
        · subst hm
          cases hf : f j
          · simp [Nat.testBit_lt_two_pow hl]
          · simp only [if_true]; rw [Nat.add_comm, Nat.testBit_two_pow_add_eq, Nat.testBit_lt_two_pow hl]; rfl
        · have hjm : j < m := by omega
          cases hf : f m
          · simpa using ht j hjm
          · simp only [if_true]; rw [Nat.add_comm, Nat.testBit_two_pow_add_gt hjm]; exact ht j hjm
  unfold maskOf
  rw [BitVec.getLsbD_ofNat]
  simp [h, (hs 512).2 n h]

/-- The number that bytes read from a store spell. -/
theorem bytesToNat_readBytes (m : SMap 8) (n : Nat) : ∀ a, bytesToNat (readBytes m a n) = ((List.range n).map (fun j => (smGet m (a + j)).toNat * 256 ^ j)).sum := by
  induction n with
  | zero => exact fun _ => rfl
  | succ k ih =>
    intro a
    rw [List.range_succ_eq_map, List.map_cons, List.map_map, List.sum_cons]
    show (smGet m a).toNat + 256 * bytesToNat (readBytes m (a + 1) k) = _
    rw [ih (a + 1), ← List.sum_map_mul_left]
    congr 1
    · simp
    · congr 1
      refine List.map_congr_left (fun j _ => ?_)
      show 256 * ((smGet m (a + 1 + j)).toNat * 256 ^ j) = (smGet m (a + (j + 1))).toNat * 256 ^ (j + 1)
      rw [Nat.pow_succ, show a + 1 + j = a + (j + 1) by omega]
      ring
theorem bytesToNat_lt (l : List Byte) : bytesToNat l < 256 ^ l.length := by
  induction l with
  | nil => exact Nat.one_pos
  | cons b r ih =>
    have := b.isLt
    simp only [bytesToNat, List.length_cons, Nat.pow_succ]
    omega
@[simp] theorem readBytes_length (m : SMap 8) (n : Nat) : ∀ a, (readBytes m a n).length = n := by
  induction n with
  | zero => exact fun _ => rfl
  | succ k ih => exact fun a => congrArg (· + 1) (ih _)
@[simp] theorem natToBytes_length (n : Nat) : ∀ v, (natToBytes n v).length = n := by
  induction n with
  | zero => exact fun _ => rfl
  | succ k ih => exact fun v => congrArg (· + 1) (ih _)
theorem natToBytes_get (n : Nat) : ∀ v j, j < n → ((natToBytes n v).getD j 0).toNat = v / 256 ^ j % 256 := by
  induction n with
  | zero => exact fun _ j h => absurd h (Nat.not_lt_zero j)
  | succ k ih =>
    intro v j hj
    cases j with
    | zero => simp [natToBytes]
    | succ i =>
      have := ih (v / 256) i (by omega)
      simp only [natToBytes, List.getD_cons_succ]
      rw [this, Nat.div_div_eq_div_mul, Nat.pow_succ, Nat.mul_comm]

end Sys2Proof.Machine
end

