-- ==== Sys2Proof/Laws/PerInstr.lean ====
section
/-! SUPPORT. PerInstr.lean: statements about every command as syntax, one lemma per constructor. -/

namespace Sys2Proof.Laws.RingInRange

open Sys2Proof

/-- A well-formed command names no ring past the last one (R295). -/
def Statement (i : Instr) : Prop := WellFormed i = true → ∀ r, ringOf? i = some r → r < 8192

/-- The range check is the first conjunct of the well-formedness. -/
theorem of_wellFormed (i : Instr) : Statement i := by
  intro h r hr
  simp only [WellFormed, hr, Bool.and_eq_true] at h
  exact of_decide_eq_true h.1

theorem submitPrompt (ring : Nat) (p : Packet) : Statement (.submitPrompt ring p) := of_wellFormed _
theorem cancel (ring : Nat) (p : Packet) : Statement (.cancel ring p) := of_wellFormed _
theorem pause (ring : Nat) (p : Packet) : Statement (.pause ring p) := of_wellFormed _
theorem resume (ring : Nat) (p : Packet) : Statement (.resume ring p) := of_wellFormed _
theorem setPriority (ring : Nat) (p : Packet) : Statement (.setPriority ring p) := of_wellFormed _
theorem queryRequest (ring : Nat) (p : Packet) (hostOk : Bool) : Statement (.queryRequest ring p hostOk) := of_wellFormed _
theorem partitionCreate (ring : Nat) (p : Packet) : Statement (.partitionCreate ring p) := of_wellFormed _
theorem partitionDestroy (ring : Nat) (p : Packet) : Statement (.partitionDestroy ring p) := of_wellFormed _
theorem tenantConfigure (ring : Nat) (p : Packet) : Statement (.tenantConfigure ring p) := of_wellFormed _
theorem modelLoad (ring : Nat) (p : Packet) (rd : ImageRead) : Statement (.modelLoad ring p rd) := of_wellFormed _
theorem modelUnload (ring : Nat) (p : Packet) : Statement (.modelUnload ring p) := of_wellFormed _
theorem prefixPin (ring : Nat) (p : Packet) : Statement (.prefixPin ring p) := of_wellFormed _
theorem prefixUnpin (ring : Nat) (p : Packet) : Statement (.prefixUnpin ring p) := of_wellFormed _
theorem pourTargetAdd (ring : Nat) (p : Packet) : Statement (.pourTargetAdd ring p) := of_wellFormed _
theorem pourTargetRemove (ring : Nat) (p : Packet) : Statement (.pourTargetRemove ring p) := of_wellFormed _
theorem groupCreate (ring : Nat) (p : Packet) (list : Option MemberList) : Statement (.groupCreate ring p list) := of_wellFormed _
theorem groupDestroy (ring : Nat) (p : Packet) : Statement (.groupDestroy ring p) := of_wellFormed _
theorem setWakeTolerance (ring : Nat) (p : Packet) : Statement (.setWakeTolerance ring p) := of_wellFormed _
theorem setPowerCap (ring : Nat) (p : Packet) : Statement (.setPowerCap ring p) := of_wellFormed _
theorem pairBind (ring : Nat) (p : Packet) (partner : BindInput) : Statement (.pairBind ring p partner) := of_wellFormed _
theorem pairUnbind (ring : Nat) (p : Packet) : Statement (.pairUnbind ring p) := of_wellFormed _
theorem pairStatus (ring : Nat) (p : Packet) : Statement (.pairStatus ring p) := of_wellFormed _
theorem telemetryRead (ring : Nat) (p : Packet) (hostOk : Bool) : Statement (.telemetryRead ring p hostOk) := of_wellFormed _
theorem logRead (ring : Nat) (p : Packet) (hostOk : Bool) : Statement (.logRead ring p hostOk) := of_wellFormed _
theorem selftest (ring : Nat) (p : Packet) (pass : BitVec 8) : Statement (.selftest ring p pass) := of_wellFormed _
theorem firmwareStage (ring : Nat) (p : Packet) (img : Option FwImage) : Statement (.firmwareStage ring p img) := of_wellFormed _
theorem firmwareActivate (ring : Nat) (p : Packet) (newOk partnerOk : Bool) : Statement (.firmwareActivate ring p newOk partnerOk) := of_wellFormed _
theorem nop (ring : Nat) (p : Packet) : Statement (.nop ring p) := of_wellFormed _
theorem unknownOpcodeCommand (ring : Nat) (opcode : BitVec 8) (p : Packet) : Statement (.unknownOpcodeCommand ring opcode p) := of_wellFormed _
theorem doorbellWrite (fn : Fin 65) (offset : Nat) (be : BitVec 8) (v : Word64) : Statement (.doorbellWrite fn offset be v) := of_wellFormed _
theorem pushWrite (fn : Fin 65) (offset : Nat) (bytes : List Byte) : Statement (.pushWrite fn offset bytes) := of_wellFormed _
theorem pullFetchDone (ring : Nat) (entries : Option (List (BitVec 512))) : Statement (.pullFetchDone ring entries) := of_wellFormed _
theorem completionWrite (ring : Nat) (hostOk : Bool) : Statement (.completionWrite ring hostOk) := of_wellFormed _
theorem interruptAgeExpiry (ring : Nat) : Statement (.interruptAgeExpiry ring) := of_wellFormed _
theorem ringEnable (fn : Fin 65) (index : Nat) (v : Word64) : Statement (.ringEnable fn index v) := of_wellFormed _
theorem ringDisable (fn : Fin 65) (index : Nat) (v : Word64) : Statement (.ringDisable fn index v) := of_wellFormed _
theorem pairedLowWrite (fn : Fin 65) (offset : Nat) (v : Word32) : Statement (.pairedLowWrite fn offset v) := of_wellFormed _
theorem counterLowRead (fn : Fin 65) (offset : Nat) : Statement (.counterLowRead fn offset) := of_wellFormed _
theorem unmappedRead (fn : Fin 65) (r : WindowRead) : Statement (.unmappedRead fn r) := of_wellFormed _
theorem registerWrite (fn : Fin 65) (offset : Nat) (be : BitVec 8) (v : Word64) : Statement (.registerWrite fn offset be v) := of_wellFormed _
theorem bar4Access (vf : Fin 64) (offset : Nat) (be : List Bool) (write : Option (List Byte)) : Statement (.bar4Access vf offset be write) := of_wellFormed _
theorem portUnfence (port : Fin 18) : Statement (.portUnfence port) := of_wellFormed _
theorem kettleOff : Statement (.kettleOff) := of_wellFormed _
theorem nopInstruction (t : Fin 64) (c : Fin 4) (w : BitVec 120) : Statement (.nopInstruction t c w) := of_wellFormed _
theorem endI (t : Fin 64) (c : Fin 4) (w : BitVec 120) : Statement (.endI t c w) := of_wellFormed _
theorem jmp (t : Fin 64) (c : Fin 4) (w : BitVec 120) : Statement (.jmp t c w) := of_wellFormed _
theorem br (t : Fin 64) (c : Fin 4) (w : BitVec 120) : Statement (.br t c w) := of_wellFormed _
theorem loop (t : Fin 64) (c : Fin 4) (w : BitVec 120) : Statement (.loop t c w) := of_wellFormed _
theorem sli (t : Fin 64) (c : Fin 4) (w : BitVec 120) : Statement (.sli t c w) := of_wellFormed _
theorem sadd (t : Fin 64) (c : Fin 4) (w : BitVec 120) : Statement (.sadd t c w) := of_wellFormed _
theorem ssub (t : Fin 64) (c : Fin 4) (w : BitVec 120) : Statement (.ssub t c w) := of_wellFormed _
theorem smul (t : Fin 64) (c : Fin 4) (w : BitVec 120) : Statement (.smul t c w) := of_wellFormed _
theorem sand (t : Fin 64) (c : Fin 4) (w : BitVec 120) : Statement (.sand t c w) := of_wellFormed _
theorem sor (t : Fin 64) (c : Fin 4) (w : BitVec 120) : Statement (.sor t c w) := of_wellFormed _
theorem sxor (t : Fin 64) (c : Fin 4) (w : BitVec 120) : Statement (.sxor t c w) := of_wellFormed _
theorem sshl (t : Fin 64) (c : Fin 4) (w : BitVec 120) : Statement (.sshl t c w) := of_wellFormed _
theorem sshr (t : Fin 64) (c : Fin 4) (w : BitVec 120) : Statement (.sshr t c w) := of_wellFormed _
theorem sshrl (t : Fin 64) (c : Fin 4) (w : BitVec 120) : Statement (.sshrl t c w) := of_wellFormed _
theorem smin (t : Fin 64) (c : Fin 4) (w : BitVec 120) : Statement (.smin t c w) := of_wellFormed _
theorem smax (t : Fin 64) (c : Fin 4) (w : BitVec 120) : Statement (.smax t c w) := of_wellFormed _
theorem sld (t : Fin 64) (c : Fin 4) (w : BitVec 120) : Statement (.sld t c w) := of_wellFormed _
theorem sst (t : Fin 64) (c : Fin 4) (w : BitVec 120) : Statement (.sst t c w) := of_wellFormed _
theorem bset (t : Fin 64) (c : Fin 4) (w : BitVec 120) : Statement (.bset t c w) := of_wellFormed _
theorem mld (t : Fin 64) (c : Fin 4) (w : BitVec 120) : Statement (.mld t c w) := of_wellFormed _
theorem mst (t : Fin 64) (c : Fin 4) (w : BitVec 120) : Statement (.mst t c w) := of_wellFormed _
theorem mrng (t : Fin 64) (c : Fin 4) (w : BitVec 120) : Statement (.mrng t c w) := of_wellFormed _
theorem mvalid (t : Fin 64) (c : Fin 4) (w : BitVec 120) : Statement (.mvalid t c w) := of_wellFormed _
theorem mseg (t : Fin 64) (c : Fin 4) (w : BitVec 120) : Statement (.mseg t c w) := of_wellFormed _
theorem rmap (t : Fin 64) (c : Fin 4) (w : BitVec 120) : Statement (.rmap t c w) := of_wellFormed _
theorem frd (t : Fin 64) (c : Fin 4) (w : BitVec 120) : Statement (.frd t c w) := of_wellFormed _
theorem tmma (t : Fin 64) (c : Fin 4) (w : BitVec 120) : Statement (.tmma t c w) := of_wellFormed _
theorem tmmaL (t : Fin 64) (c : Fin 4) (w : BitVec 120) : Statement (.tmmaL t c w) := of_wellFormed _
theorem tmmaF (t : Fin 64) (c : Fin 4) (w : BitVec 120) : Statement (.tmmaF t c w) := of_wellFormed _
theorem rescale (t : Fin 64) (c : Fin 4) (w : BitVec 120) : Statement (.rescale t c w) := of_wellFormed _
theorem lswap (t : Fin 64) (c : Fin 4) (w : BitVec 120) : Statement (.lswap t c w) := of_wellFormed _
theorem drain (t : Fin 64) (c : Fin 4) (w : BitVec 120) : Statement (.drain t c w) := of_wellFormed _
theorem vmov (t : Fin 64) (c : Fin 4) (w : BitVec 120) : Statement (.vmov t c w) := of_wellFormed _
theorem vadd (t : Fin 64) (c : Fin 4) (w : BitVec 120) : Statement (.vadd t c w) := of_wellFormed _
theorem vsub (t : Fin 64) (c : Fin 4) (w : BitVec 120) : Statement (.vsub t c w) := of_wellFormed _
theorem vmul (t : Fin 64) (c : Fin 4) (w : BitVec 120) : Statement (.vmul t c w) := of_wellFormed _
theorem vfma (t : Fin 64) (c : Fin 4) (w : BitVec 120) : Statement (.vfma t c w) := of_wellFormed _
theorem vmin (t : Fin 64) (c : Fin 4) (w : BitVec 120) : Statement (.vmin t c w) := of_wellFormed _
theorem vmax (t : Fin 64) (c : Fin 4) (w : BitVec 120) : Statement (.vmax t c w) := of_wellFormed _
theorem vdiv (t : Fin 64) (c : Fin 4) (w : BitVec 120) : Statement (.vdiv t c w) := of_wellFormed _
theorem vsqrt (t : Fin 64) (c : Fin 4) (w : BitVec 120) : Statement (.vsqrt t c w) := of_wellFormed _
theorem vexp2 (t : Fin 64) (c : Fin 4) (w : BitVec 120) : Statement (.vexp2 t c w) := of_wellFormed _
theorem vrsum (t : Fin 64) (c : Fin 4) (w : BitVec 120) : Statement (.vrsum t c w) := of_wellFormed _
theorem vrmax (t : Fin 64) (c : Fin 4) (w : BitVec 120) : Statement (.vrmax t c w) := of_wellFormed _
theorem vcvt (t : Fin 64) (c : Fin 4) (w : BitVec 120) : Statement (.vcvt t c w) := of_wellFormed _
theorem srun (t : Fin 64) (c : Fin 4) (w : BitVec 120) : Statement (.srun t c w) := of_wellFormed _
theorem sstop (t : Fin 64) (c : Fin 4) (w : BitVec 120) : Statement (.sstop t c w) := of_wellFormed _
theorem signal (t : Fin 64) (c : Fin 4) (w : BitVec 120) : Statement (.signal t c w) := of_wellFormed _
theorem wait (t : Fin 64) (c : Fin 4) (w : BitVec 120) : Statement (.wait t c w) := of_wellFormed _
theorem fence (t : Fin 64) (c : Fin 4) (w : BitVec 120) : Statement (.fence t c w) := of_wellFormed _
theorem barrier (t : Fin 64) (c : Fin 4) (w : BitVec 120) : Statement (.barrier t c w) := of_wellFormed _
theorem fset (t : Fin 64) (c : Fin 4) (w : BitVec 120) : Statement (.fset t c w) := of_wellFormed _
theorem tmmaIssueEnd (t : Fin 64) (chk : Check) : Statement (.tmmaIssueEnd t chk) := of_wellFormed _
theorem tileHangTimeout (t : Fin 64) : Statement (.tileHangTimeout t) := of_wellFormed _
theorem drainStart (t : Fin 64) : Statement (.drainStart t) := of_wellFormed _
theorem drainEnd (t : Fin 64) (chk : Check) : Statement (.drainEnd t chk) := of_wellFormed _
theorem rescaleStart (t : Fin 64) : Statement (.rescaleStart t) := of_wellFormed _
theorem rescaleEnd (t : Fin 64) : Statement (.rescaleEnd t) := of_wellFormed _
theorem leafSwap (t : Fin 64) : Statement (.leafSwap t) := of_wellFormed _
theorem vectorEnd (t : Fin 64) (chk : Check) : Statement (.vectorEnd t chk) := of_wellFormed _
theorem waitSatisfied (t : Fin 64) (c : Fin 4) : Statement (.waitSatisfied t c) := of_wellFormed _
theorem fenceComplete (t : Fin 64) (c : Fin 4) : Statement (.fenceComplete t c) := of_wellFormed _
theorem barrierRelease (p : Fin 64) (bar : Fin 16) : Statement (.barrierRelease p bar) := of_wellFormed _
theorem signalArrive (i : Nat) : Statement (.signalArrive i) := of_wellFormed _
theorem tagClaim (t : Fin 64) (i : Nat) : Statement (.tagClaim t i) := of_wellFormed _
theorem remoteWriteArrive (i : Nat) : Statement (.remoteWriteArrive i) := of_wellFormed _
theorem remoteReadReturn (i : Nat) : Statement (.remoteReadReturn i) := of_wellFormed _
theorem scrubTick (t : Fin 64) (line : Fin 32768) : Statement (.scrubTick t line) := of_wellFormed _
theorem waitLimitExpiry (p : Fin 64) : Statement (.waitLimitExpiry p) := of_wellFormed _
theorem powerLend (t : Fin 64) : Statement (.powerLend t) := of_wellFormed _
theorem streamXfer (t : Fin 64) (h : Fin 8) : Statement (.streamXfer t h) := of_wellFormed _
theorem streamReadLand (t : Fin 64) (h : Fin 8) (r : LandRead) : Statement (.streamReadLand t h r) := of_wellFormed _
theorem streamDone (t : Fin 64) (h : Fin 8) : Statement (.streamDone t h) := of_wellFormed _
theorem mergeEntryTimeout (t : Fin 64) (i : Nat) : Statement (.mergeEntryTimeout t i) := of_wellFormed _
theorem pageWalkDone (t : Fin 64) (h : Fin 8) : Statement (.pageWalkDone t h) := of_wellFormed _
theorem compositionDone (p : Fin 64) : Statement (.compositionDone p) := of_wellFormed _
theorem tokenReadDone (e : Fin 32768) (tokens : Option (List Word32)) : Statement (.tokenReadDone e tokens) := of_wellFormed _
theorem hsBlockReadDone (e : Fin 32768) (block : Option (BitVec 2048)) : Statement (.hsBlockReadDone e block) := of_wellFormed _
theorem steepRelease (p : Fin 64) : Statement (.steepRelease p) := of_wellFormed _
theorem newtSample (e : Fin 32768) (bad : List Nat) (chk : Check) : Statement (.newtSample e bad chk) := of_wellFormed _
theorem headstartFill (e : Fin 32768) : Statement (.headstartFill e) := of_wellFormed _
theorem headstartFillTimeout (p : Fin 64) : Statement (.headstartFillTimeout p) := of_wellFormed _
theorem draftLimitTick (waitPermille : Nat) : Statement (.draftLimitTick waitPermille) := of_wellFormed _
theorem newtHangTimeout (n : Fin 8) : Statement (.newtHangTimeout n) := of_wellFormed _
theorem pourRecordWrite (p : Fin 64) (tgt : Fin 1024) (input : RecordInput) : Statement (.pourRecordWrite p tgt input) := of_wellFormed _
theorem consumedPoll (p : Fin 64) (tgt : Fin 1024) : Statement (.consumedPoll p tgt) := of_wellFormed _
theorem controlBlockRead (p : Fin 64) (tgt : Fin 1024) (block : Option (BitVec 512)) : Statement (.controlBlockRead p tgt block) := of_wellFormed _
theorem commitAck (p : Fin 64) (tgt : Fin 1024) : Statement (.commitAck p tgt) := of_wellFormed _
theorem resultWriteDone (e : Fin 32768) (ok : Bool) : Statement (.resultWriteDone e ok) := of_wellFormed _
theorem targetNak (p : Fin 64) (tgt : Fin 1024) (cause : Fin 3) : Statement (.targetNak p tgt cause) := of_wellFormed _
theorem transportAckTimeout (p : Fin 64) (tgt : Fin 1024) : Statement (.transportAckTimeout p tgt) := of_wellFormed _
theorem cnpReceived (p : Fin 64) (tgt : Fin 1024) : Statement (.cnpReceived p tgt) := of_wellFormed _
theorem pourPortFail (port : Fin 4) : Statement (.pourPortFail port) := of_wellFormed _
theorem pourPortReturn (port : Fin 4) : Statement (.pourPortReturn port) := of_wellFormed _
theorem helloTimer : Statement (.helloTimer) := of_wellFormed _
theorem hello (port : Fin 16) (id : BitVec 64) (peerPort : Fin 32) (epoch : BitVec 16) (isSwitch : Bool) : Statement (.hello port id peerPort epoch isSwitch) := of_wellFormed _
theorem epochMessage (epoch : BitVec 16) : Statement (.epochMessage epoch) := of_wellFormed _
theorem prepare (epoch : BitVec 16) : Statement (.prepare epoch) := of_wellFormed _
theorem commit (epoch : BitVec 16) (modules switches : List (BitVec 64)) (routes : List Route) : Statement (.commit epoch modules switches routes) := of_wellFormed _
theorem fabricLinkPacket (port : Fin 18) (header : BitVec 128) (payload : List Byte) : Statement (.fabricLinkPacket port header payload) := of_wellFormed _
theorem linkRetransmitTimeout (port : Fin 18) (vc : Fin 4) : Statement (.linkRetransmitTimeout port vc) := of_wellFormed _
theorem sPortStateChange (port : Fin 16) (up : Bool) : Statement (.sPortStateChange port up) := of_wellFormed _
theorem laneFailure (port : Fin 18) (lane : Fin 4) : Statement (.laneFailure port lane) := of_wellFormed _
theorem fabricRecordSend (t : Fin 64) (base : BitVec 16) : Statement (.fabricRecordSend t base) := of_wellFormed _
theorem fabricRecordDeliver (t : Fin 64) (record : List Byte) : Statement (.fabricRecordDeliver t record) := of_wellFormed _
theorem groupFormTimeout (g : Fin 16) : Statement (.groupFormTimeout g) := of_wellFormed _
theorem inPassingReduction (g : Fin 16) (joined : Nat) (sums : List Word32) : Statement (.inPassingReduction g joined sums) := of_wellFormed _
theorem lagExchangeTimer (g : Fin 16) (totals : List (Nat × Nat)) : Statement (.lagExchangeTimer g totals) := of_wellFormed _
theorem lockstepPageCount (p : Fin 64) (rank : Nat) (free : Nat) : Statement (.lockstepPageCount p rank free) := of_wellFormed _
theorem lockstepRowMaps (p : Fin 64) (rpt : Nat) (rows : List RowEntry) : Statement (.lockstepRowMaps p rpt rows) := of_wellFormed _
theorem lockstepRelease (p : Fin 64) : Statement (.lockstepRelease p) := of_wellFormed _
theorem lockstepAbort (p : Fin 64) (charged : Bool) (rows : List (Fin 32768)) : Statement (.lockstepAbort p charged rows) := of_wellFormed _
theorem heartbeatTimer : Statement (.heartbeatTimer) := of_wellFormed _
theorem heartbeat (port : Fin 2) (timebase : Word64) (echoSent echoArrived : Word64) : Statement (.heartbeat port timebase echoSent echoArrived) := of_wellFormed _
theorem heartbeatMissed : Statement (.heartbeatMissed) := of_wellFormed _
theorem aliveInTimeout : Statement (.aliveInTimeout) := of_wellFormed _
theorem mirrorDelta (d : Delta) : Statement (.mirrorDelta d) := of_wellFormed _
theorem mirrorAck (n : Nat) (fails : Option (BitVec 16 × Nat)) : Statement (.mirrorAck n fails) := of_wellFormed _
theorem mirrorPortFail (port : Fin 2) : Statement (.mirrorPortFail port) := of_wellFormed _
theorem mirrorPortReturn (port : Fin 2) : Statement (.mirrorPortReturn port) := of_wellFormed _
theorem resyncExchange (partner : Option ResyncInput) : Statement (.resyncExchange partner) := of_wellFormed _
theorem sleep (ticks : Word64) : Statement (.sleep ticks) := of_wellFormed _
theorem sleepConfirm : Statement (.sleepConfirm) := of_wellFormed _
theorem pairReauth (port : Fin 2) (partner : BindInput) : Statement (.pairReauth port partner) := of_wellFormed _
theorem pairBindTimeout : Statement (.pairBindTimeout) := of_wellFormed _
theorem wireFaultClear : Statement (.wireFaultClear) := of_wellFormed _
theorem moduleFault (code : BitVec 8) : Statement (.moduleFault code) := of_wellFormed _
theorem controlCoreFail : Statement (.controlCoreFail) := of_wellFormed _
theorem packageLost (pkg : Fin 32) : Statement (.packageLost pkg) := of_wellFormed _
theorem patrolScrubTick (stripe : Nat) (bad : Option (Fin 32)) : Statement (.patrolScrubTick stripe bad) := of_wellFormed _
theorem caddyWayDisable (w : WayErrors) : Statement (.caddyWayDisable w) := of_wellFormed _
theorem powerCapTick (i : InputSample) : Statement (.powerCapTick i) := of_wellFormed _
theorem dieHot : Statement (.dieHot) := of_wellFormed _
theorem dieHotClearTimeout : Statement (.dieHotClearTimeout) := of_wellFormed _
theorem pwrBrakeN (low : Bool) : Statement (.pwrBrakeN low) := of_wellFormed _
theorem currentLimit : Statement (.currentLimit) := of_wellFormed _
theorem currentLimitTimeout : Statement (.currentLimitTimeout) := of_wellFormed _
theorem thermalSample (x : Temps) : Statement (.thermalSample x) := of_wellFormed _
theorem vinOutOfWindow (mv : Int) : Statement (.vinOutOfWindow mv) := of_wellFormed _
theorem railFault : Statement (.railFault) := of_wellFormed _
theorem leak : Statement (.leak) := of_wellFormed _
theorem wakeNExternal : Statement (.wakeNExternal) := of_wellFormed _
theorem refclkLoss : Statement (.refclkLoss) := of_wellFormed _
theorem alarmFire (i : Fin 4) : Statement (.alarmFire i) := of_wellFormed _
theorem stateDwellExpiry (scope : PwrScope) : Statement (.stateDwellExpiry scope) := of_wellFormed _
theorem wakeEvent (scope : PwrScope) (source : BitVec 8) : Statement (.wakeEvent scope source) := of_wellFormed _
theorem domainSwitchClose : Statement (.domainSwitchClose) := of_wellFormed _
theorem pinTestTimer (above2V : Bool) (bridged : List (Fin 21)) : Statement (.pinTestTimer above2V bridged) := of_wellFormed _
theorem pinReadbackMismatch (pin : Fin 21) : Statement (.pinReadbackMismatch pin) := of_wellFormed _
theorem smbusHeldLowTimeout (pin : Fin 2) : Statement (.smbusHeldLowTimeout pin) := of_wellFormed _
theorem powerOn (x : StartCfg) : Statement (.powerOn x) := of_wellFormed _
theorem startupTimeout : Statement (.startupTimeout) := of_wellFormed _
theorem resetN (x : StartCfg) : Statement (.resetN x) := of_wellFormed _
theorem perstN (kind : LinkReset) : Statement (.perstN kind) := of_wellFormed _
theorem flr (vf : Fin 64) : Statement (.flr vf) := of_wellFormed _
theorem a4Exit (x : StartCfg) : Statement (.a4Exit x) := of_wellFormed _
theorem firmwareQueueDispatch : Statement (.firmwareQueueDispatch) := of_wellFormed _
theorem deadlinePassed (e : Fin 32768) : Statement (.deadlinePassed e) := of_wellFormed _
theorem illegalOpcode (t : Fin 64) (c : Fin 4) (w : BitVec 128) : Statement (.illegalOpcode t c w) := of_wellFormed _
theorem rnrNak (p : Fin 64) (tgt : Fin 1024) : Statement (.rnrNak p tgt) := of_wellFormed _
theorem rnrTimerExpiry (p : Fin 64) (tgt : Fin 1024) : Statement (.rnrTimerExpiry p tgt) := of_wellFormed _
theorem combiningBufferTimeout (stripe : Nat) : Statement (.combiningBufferTimeout stripe) := of_wellFormed _
theorem trainingRetryTimer (port : Fin 22) (x : Training) : Statement (.trainingRetryTimer port x) := of_wellFormed _
theorem vinBackInside (mv : Int) : Statement (.vinBackInside mv) := of_wellFormed _
theorem leakNHigh : Statement (.leakNHigh) := of_wellFormed _
theorem currentLimitRelease : Statement (.currentLimitRelease) := of_wellFormed _
theorem pairAliveInEdge : Statement (.pairAliveInEdge) := of_wellFormed _
theorem neighbourTable (id : BitVec 64) (isSwitch : Bool) (nbrs : List Neighbour) : Statement (.neighbourTable id isSwitch nbrs) := of_wellFormed _
theorem prepareConfirmation (id : BitVec 64) (epoch : BitVec 16) : Statement (.prepareConfirmation id epoch) := of_wellFormed _
theorem spdmRequest (r : SpdmReq) : Statement (.spdmRequest r) := of_wellFormed _
theorem pldmRequest (r : PldmReq) : Statement (.pldmRequest r) := of_wellFormed _
theorem pmeTurnOff : Statement (.pmeTurnOff) := of_wellFormed _
theorem vfEnable (vf : Fin 64) : Statement (.vfEnable vf) := of_wellFormed _
theorem sidebandHeldTimeout (pin : Fin 21) : Statement (.sidebandHeldTimeout pin) := of_wellFormed _

end Sys2Proof.Laws.RingInRange
end

