-- ==== Sys2Proof/Tests/Slice0.lean ====
section
/-! SUPPORT. Slice0.lean: tests. Ill-formed commands that are refused; for each obligation with hypotheses the values that meet
them; single steps with results worked out from the spec. -/

namespace Sys2Proof.Tests

open Sys2Proof Sys2Proof.Machine

set_option Elab.async false

/-! ## Well-formedness: one ill-formed command for each check -/

def somePacket : Packet := { flags := 0, tenantClass := 0, seq := 7, handle := 9, params := 0 }
theorem wf_ring : WellFormed (.nop 8192 somePacket) = false := by decide
theorem wf_ring_last : WellFormed (.nop 8191 somePacket) = true := by decide
theorem wf_unknown : WellFormed (.unknownOpcodeCommand 0 0x7F somePacket) = false := by decide
theorem wf_doorbell : WellFormed (.doorbellWrite 0 0x1000000 0xFF 0) = false ∧ WellFormed (.doorbellWrite 0 0 0 0) = false := by decide
theorem wf_push : WellFormed (.pushWrite 0 0xFFFFFF [1]) = false ∧ WellFormed (.pushWrite 0 0x1000000 []) = false := by decide
theorem wf_pull : WellFormed (.pullFetchDone 0 (some [])) = false ∧ WellFormed (.pullFetchDone 0 (some (List.replicate 9 0))) = false := by decide
theorem wf_completion : WellFormed (.completionWrite 16384 true) = false ∧ WellFormed (.interruptAgeExpiry 16384) = false := by decide
theorem wf_enable : WellFormed (.ringEnable 0 0 0) = false ∧ WellFormed (.ringDisable 0 0 0x8000000000000000) = false := by decide
theorem wf_halves : WellFormed (.pairedLowWrite 1 4 0) = false ∧ WellFormed (.counterLowRead 1 4) = false ∧ WellFormed (.registerWrite 1 0 0 0) = false := by decide
theorem wf_bar4 : WellFormed (.bar4Access 0 0 [] none) = false ∧ WellFormed (.bar4Access 0 0 [true, false] (some [1])) = false := by decide
theorem wf_permille : WellFormed (.draftLimitTick 1001) = false := by decide
theorem wf_packet : WellFormed (.fabricLinkPacket 0 0 [1]) = false := by decide
theorem wf_record : WellFormed (.fabricRecordDeliver 0 [1]) = false := by decide
theorem wf_rpt : WellFormed (.lockstepRowMaps 0 100 []) = false := by decide
theorem wf_fault : WellFormed (.moduleFault 0) = false := by decide
theorem wf_stripe : WellFormed (.patrolScrubTick stripes none) = false ∧ WellFormed (.combiningBufferTimeout stripes) = false := by decide
theorem wf_supply : WellFormed (.vinOutOfWindow 48000) = false ∧ WellFormed (.vinOutOfWindow 80001) = false ∧ WellFormed (.vinBackInside 37999) = false := by decide
theorem wf_source : WellFormed (.wakeEvent .device 0) = false ∧ WellFormed (.wakeEvent .device 8) = false := by decide
theorem wf_opcode : WellFormed (.illegalOpcode 0 0 0x20) = false ∧ WellFormed (.illegalOpcode 0 0 0xFF) = true := by decide

/-! ## Small states -/

def part0 : Part :=
  { tileMask := 1, ringBase := 2, ringQuota := 4, pushBase := 128, pushUnits := 1, dramPages := 64, entryQuota := 4, tenantQuota := 4, keyGen := 1, keyContext := 0,
    regulator := 0x0000020000212122, caddyWays := 0xFFFF }
/-- A module that runs, with one partition of one tile. -/
def up : State := { State.reset with ready := true, mod := { lifeStarted := true }, parts := [(0, part0)] }
def mapEnt (kind base count : Nat) : MapEntry :=
  { kind := BitVec.ofNat 8 kind, sizeLog := 0, base := BitVec.ofNat 16 base, count := BitVec.ofNat 16 count, reads := 0, init := 0, tailFlag := 0, flagEn := 0, headFlag := 0, rsvd := 0 }
/-- A tile with 4 KiB of programs at 0, the row-map window at 64 KiB and a circular region of 4 records at 128 KiB. -/
def tile0 : Tile := { map := [mapEnt 1 0 8, mapEnt 2 128 32, mapEnt 4 256 4], ctx := [(0, { st := .running })] }
def atTile (x : Tile) : State := { up with tiles := [(0, x)] }
/-- The tile whose context 0 has these registers. -/
def regs (l : List (Nat × Word64)) : State := atTile { tile0 with ctx := [(0, { st := .running, s := l })] }
/-- Bits 127:8 of an instruction from its fields: (lowest bit, value). -/
def fields (l : List (Nat × Nat)) : BitVec 120 := BitVec.ofNat 120 (l.foldr (fun q n => n + q.2 * 2 ^ q.1) 0 / 256)
/-- `AtHead` of partition 0, as it can be decided. -/
def headOk (s : State) (t c op : Nat) (w : BitVec 120) (rsv : List (Nat × Nat)) (part : Part) : Bool :=
  decide (partOfTile s t = some 0) && decide (getPart? s 0 = some part) && decide ((getCtx (getTile s t) c).st = .running) && decide ((getCtx (getTile s t) c).held = none) &&
    fetchOk (getTile s t) (getCtx (getTile s t) c).pc && decide ((getTile s t).oneBit = []) && decide (poisoned (getTile s t) [((getCtx (getTile s t) c).pc, 16)] = none) && decide (badReserved (wordOf w op) rsv = none)
theorem headOk_sound {s : State} {t c op : Nat} {w : BitVec 120} {rsv : List (Nat × Nat)} {part : Part} (h : headOk s t c op w rsv part = true) : AtHead s t c op w rsv 0 part := by
  simp only [headOk, Bool.and_eq_true, decide_eq_true_eq] at h
  exact ⟨h.1.1.1.1.1.1.1, h.1.1.1.1.1.1.2, Or.inl h.1.1.1.1.1.2, h.1.1.1.1.2, h.1.1.1.2, by simp [fetched, h.1.1.2], h.1.2, h.2⟩
/-- An image of one layer whose context 0 starts at address 0 and whose first round sends 64 bytes. -/
def img0 : Image :=
  { headerLen := 100000, measurement := 77, stepping := 0xB1, prefill := true, embed := true, score := true, poolMean := true, embedDim := 32, embedFmt := 0x06, contextMax := 4096, vocab := 4,
    layers := 2, kvBytes := 128, stateBytes := 0, pMin := 1, rptMask := 15, chunkDefault := 256, entries := [some 0, none, none, none], ringSchedule := [64], barrierTable := List.replicate 16 15,
    waitLimit := 0, layerMarks := [(0, 0), (0, 1)], leafCuts := [], kvBlock := 32, keyOperands := [], logitBase := 0, programs := [[0]], maps := [[mapEnt 1 0 8, mapEnt 2 128 32]], sharedExperts := 0, topK := 0, privateMax := 0,
    variants := 0, draft := none, collMembers := none, collRegions := [],
    segs := [{ layer := 0, kind := 1, fmt := 6, heads := 1, dim := 32, blk := 1, blkStride := 0, elemBase := 0, posStride := 128, headStride := 64, scaleBase := 0, scalePosStride := 0, scaleHeadStride := 0, stateLen := 0, dynamicKey := false }],
    size := 100000, bytes := [] }
def part1 : Part := { part0 with image := some img0 }
/-! ## Hypotheses that can be met: the step and the tile -/

theorem witness_StepRunsTheFrontCommand : ({ up with pending := [.pmeTurnOff] } : State).pending = .pmeTurnOff :: [] := rfl
theorem witness_EmptyQueueIsATick : up.pending = [] ∧ up.mod.waitStart = none ∧ powered up = true ∧ up.pwr.dev < 4 ∧ up.pwr.captured = none ∧ powered State.reset = false := by decide
theorem witness_EveryCommandKeepsTheQueue : ∃ t, exec .pmeTurnOff up = .next t := ⟨_, rfl⟩
theorem witness_EveryStepKeepsTheStores : StoresOk up ∧ ∃ t, step up = .next t := ⟨⟨rfl, by decide, List.Pairwise.nil, by decide⟩, _, rfl⟩
theorem witness_ScalarArithmetic : ∀ q ∈ scalarRows 0 0 (fields [(8, 31)]), AtHead (regs []) 0 0 q.2.1 (fields [(8, 31)]) [(63, 24)] 0 part0 := by
  have h : (scalarRows 0 0 (fields [(8, 31)])).all (fun q => headOk (regs []) 0 0 q.2.1 (fields [(8, 31)]) [(63, 24)] part0) = true := by decide +kernel
  exact fun q m => headOk_sound (List.all_eq_true.1 h q m)
theorem witness_BoundsFlagRangeAndRowMap : ∀ op ∈ [0x2E, 0x33, 0x31, 0x34, 0x35, 0x32], AtHead (regs []) 0 0 op (fields [(8, 7)]) [(63, 24)] 0 part0 ∧
    poisoned (getTile (regs []) 0) (mapRanges (issOf (regs []) 0 0 op (fields [(8, 7)]) 0 part0)) = none ∧ poisoned (getTile (regs []) 0) (rmapRanges (issOf (regs []) 0 0 op (fields [(8, 7)]) 0 part0)) = none := by
  have h : [0x2E, 0x33, 0x31, 0x34, 0x35, 0x32].all (fun op => headOk (regs []) 0 0 op (fields [(8, 7)]) [(63, 24)] part0) = true := by decide +kernel
  exact fun op m => ⟨headOk_sound (List.all_eq_true.1 h op m), rfl, rfl⟩
/-- SLD and SST at the last word of the scratchpad; MLD and MST at its last 64 bytes. -/
theorem witness_ScratchpadAccesses :
    (AtHead (regs []) 0 0 0x2C (fields [(64, 0xFFFFF8)]) [(63, 24)] 0 part0 ∧ AtHead (regs []) 0 0 0x2D (fields [(64, 0xFFFFF8)]) [(63, 24)] 0 part0 ∧
      AtHead (regs [(1, 0xFFFFC0)]) 0 0 0x2F (fields [(13, 1)]) [(63, 24)] 0 part0 ∧ AtHead (regs [(1, 0xFFFFC0)]) 0 0 0x30 (fields [(13, 1)]) [(63, 24)] 0 part0) ∧
    wordCheck (issOf (regs []) 0 0 0x2C (fields [(64, 0xFFFFF8)]) 0 part0) 0xFFFFF8 8 8 false = .go ∧ wordCheck (issOf (regs []) 0 0 0x2D (fields [(64, 0xFFFFF8)]) 0 part0) 0xFFFFF8 8 8 true = .go ∧
    wordCheck (issOf (regs [(1, 0xFFFFC0)]) 0 0 0x2F (fields [(13, 1)]) 0 part0) 0xFFFFC0 64 1 false = .go ∧
    wordCheck (issOf (regs [(1, 0xFFFFC0)]) 0 0 0x30 (fields [(13, 1)]) 0 part0) 0xFFFFC0 64 1 true = .go := by
  refine ⟨⟨headOk_sound ?_, headOk_sound ?_, headOk_sound ?_, headOk_sound ?_⟩, ?_, ?_, ?_, ?_⟩ <;> decide +kernel
/-- JMP to the last instruction of the region; BR on every condition; LOOP with a count and with 0. -/
theorem witness_ControlInstructions :
    (AtHead (regs []) 0 0 0x00 0 [(127, 8)] 0 part0 ∧ AtHead (regs []) 0 0 0x02 (fields [(8, 255)]) [(127, 32)] 0 part0 ∧ AtHead (regs [(1, 3)]) 0 0 0x03 (fields [(8, 1), (18, 3), (32, 255)]) [(31, 21), (127, 64)] 0 part0 ∧
      AtHead (regs [(1, 3)]) 0 0 0x04 (fields [(8, 1), (16, 2)]) [(15, 13), (127, 32)] 0 part0 ∧ AtHead (regs []) 0 0 0x04 (fields [(8, 1), (16, 2)]) [(15, 13), (127, 32)] 0 part0 ∧ AtHead (regs []) 0 0 0x01 0 [(127, 8)] 0 part0) ∧
    ((4080 : Nat) : Int) = (ctxOf (regs []) 0 0).pc + 16 * (BitVec.ofNat 24 (bits (wordOf (fields [(8, 255)]) 0x02) 31 8)).toInt ∧ fetchOk tile0 4080 = true ∧
    ((4080 : Nat) : Int) = (ctxOf (regs []) 0 0).pc + 16 * (BitVec.ofNat 32 (bits (wordOf (fields [(8, 1), (18, 3), (32, 255)]) 0x03) 63 32)).toInt ∧ bits (wordOf (fields [(8, 1), (16, 2)]) 0x04) 31 16 ≠ 0 ∧
    readS (ctxOf (regs [(1, 3)]) 0 0) 1 = 3 ∧ readS (ctxOf (regs []) 0 0) 1 = 0 ∧ (ctxOf (regs [(1, 3)]) 0 0).loops = [] ∧
    earlierDone (getTile (regs []) 0) 0 = true ∧ (∀ i < 4, (getSlot (getTile (regs []) 0) i).st = .free) ∧ part0.phase = .none := by
  refine ⟨⟨headOk_sound ?_, headOk_sound ?_, headOk_sound ?_, headOk_sound ?_, headOk_sound ?_, headOk_sound ?_⟩, ?_⟩ <;> decide +kernel
theorem witness_UnlistedOpcodes : bits (0xFF : BitVec 128) 7 0 ∉ listedOpcodes ∧ AtHead (regs []) 0 0 (bits (0xFF : BitVec 128) 7 0) ((0xFF : BitVec 128).extractLsb' 8 120) [] 0 part0 := by
  refine ⟨?_, headOk_sound ?_⟩ <;> decide +kernel
def stB : State := { regs [] with parts := [(0, part1)] }
/-- Context 1 runs, and context 0 holds a WAIT that would consume from flag 255 and whose condition holds. -/
def turnS (v : Word32) : State := atTile { tile0 with ctx := [(0, { st := .waiting, cause := 1, held := some (.wait 255 0 true v) }), (1, { st := .running })] }
theorem witness_SyncInstructions_turn :
    AtHead (turnS 1) 0 1 0xC1 (fields [(8, 255), (18, 1)]) [(31, 25), (127, 64)] 0 part0 ∧ AtHead (turnS 0) 0 1 0xC1 (fields [(8, 255), (18, 1)]) [(31, 25), (127, 64)] 0 part0 ∧
    ((wordOf (fields [(8, 255), (18, 1)]) 0xC1).getLsbD 18 = true ∧ bits (wordOf (fields [(8, 255), (18, 1)]) 0xC1) 17 16 = 0) ∧
    (∀ d < 1, ∀ u : Word32, (ctxOf (turnS 1) 0 d).held = some (.wait 255 0 true u) → (getFlag (getTile (turnS 1) 0) 255).toNat < u.toNat) ∧
    (ctxOf (turnS 0) 0 0).held = some (.wait 255 0 true 0) ∧ ¬ (getFlag (getTile (turnS 0) 0) 255).toNat < (0 : Word32).toNat := by
  refine ⟨headOk_sound ?_, headOk_sound ?_, by decide +kernel, ?_, rfl, by decide⟩
  · decide +kernel
  · decide +kernel
  · intro d hd u h
    obtain rfl : d = 0 := by omega
    obtain rfl : (1 : Word32) = u := by injection h with h; injection h
    decide +kernel
/-- A transfer of the context that the fence covers is on its way. -/
def stBusy : State := { stB with tiles := [(0, { tile0 with ctx := [(0, { st := .running })], handles := [(0, { busy := true })] })] }
theorem witness_SyncInstructions :
    (∀ cond ∈ [0, 1, 2], AtHead (regs []) 0 0 0xC1 (fields [(8, 255), (16, cond)]) [(31, 25), (127, 64)] 0 part0 ∧ ∃ b : Bool,
      [decide ((0 : Word32).toNat ≤ (getFlag (getTile (regs []) 0) 255).toNat), decide (getFlag (getTile (regs []) 0) 255 = 0), decide (getFlag (getTile (regs []) 0) 255 ≠ 0)][bits (wordOf (fields [(8, 255), (16, cond)]) 0xC1) 17 16]? = some b) ∧
    (∀ sc ∈ [0, 1, 2], AtHead stB 0 0 0xC2 (fields [(8, sc)]) [(127, 10)] 0 part1 ∧ bits (wordOf (fields [(8, sc)]) 0xC2) 9 8 < 3 ∧ fenceDone stB 0 0 sc = true) ∧
    (AtHead stBusy 0 0 0xC2 (fields [(8, 2)]) [(127, 10)] 0 part1 ∧ fenceDone stBusy 0 0 2 = false) ∧
    (AtHead stB 0 0 0xC3 (fields [(8, 15)]) [(127, 12)] 0 part1 ∧ AtHead stBusy 0 0 0xC3 (fields [(8, 15)]) [(127, 12)] 0 part1 ∧ (barrierMask part1 (bits (wordOf (fields [(8, 15)]) 0xC3) 11 8)).getLsbD 0 = true) ∧
    (AtHead (regs []) 0 0 0xC0 (fields [(8, 254), (29, 1)]) [(31, 31), (127, 64)] 0 part0 ∧ tileOfIndex part0 0 = some 0) ∧
    (AtHead (regs []) 0 0 0xC0 (fields [(8, 254), (16, 1), (17, 7), (29, 1)]) [(31, 31), (127, 64)] 0 part0 ∧ 7 < 8) ∧
    (AtHead (regs []) 0 0 0xC4 (fields [(8, 254)]) [(31, 16), (127, 64)] 0 part0 ∧ (regs []).sigs = []) := by
  refine ⟨?_, ?_, ⟨headOk_sound ?_, ?_⟩, ⟨headOk_sound ?_, headOk_sound ?_, ?_⟩, ⟨headOk_sound ?_, ?_⟩, ⟨headOk_sound ?_, by decide⟩, headOk_sound ?_, rfl⟩
  · have h : [0, 1, 2].all (fun cond => headOk (regs []) 0 0 0xC1 (fields [(8, 255), (16, cond)]) [(31, 25), (127, 64)] part0) = true := by decide +kernel
    exact fun cond m => ⟨headOk_sound (List.all_eq_true.1 h cond m), by revert cond; decide +kernel⟩
  · have h : [0, 1, 2].all (fun sc => headOk stB 0 0 0xC2 (fields [(8, sc)]) [(127, 10)] part1) = true := by decide +kernel
    exact fun sc m => ⟨headOk_sound (List.all_eq_true.1 h sc m), by revert sc; decide +kernel⟩
  all_goals decide +kernel
/-- An operand word at 256 KiB with a pitch of 512 B. -/
def word1 : Word64 := 0x1040000
/-- TMMA's list entry or fold descriptor at 512 KiB. -/
def listSpad : SMap 8 := writeBytes [] 0x80000 (natToBytes 8 word1.toNat ++ natToBytes 8 word1.toNat ++ natToBytes 4 32 ++ [0, 8, 0, 1])
def foldSpad : SMap 8 := [(0x80000, 4), (0x80001, 2)]
def tmmaW : BitVec 120 := fields [(12, 1), (15, 6), (18, 6), (26, 2), (32, 1), (36, 1), (56, 1), (61, 1), (80, 1)]
def tmmaLW : BitVec 120 := fields [(12, 1), (15, 6), (18, 6), (26, 2), (32, 1), (36, 1), (56, 2), (61, 1), (80, 1)]
def tmmaFW : BitVec 120 := fields [(12, 1), (15, 6), (18, 6), (26, 2), (32, 1), (36, 1), (56, 1), (61, 1), (80, 1), (105, 3)]
def matTile (spad : SMap 8) : Tile := { tile0 with spad := spad, ctx := [(0, { st := .running, s := [(1, word1), (2, 0x1080000), (3, 0x80000)], b := [(1, 4)] })] }
theorem witness_MatrixInstructions :
    (AtHead (atTile (matTile [])) 0 0 0x40 tmmaW (matRsv 0x40) 0 part0 ∧ AtHead (atTile (matTile listSpad)) 0 0 0x41 tmmaLW (matRsv 0x41) 0 part0 ∧ AtHead (atTile (matTile foldSpad)) 0 0 0x42 tmmaFW (matRsv 0x42) 0 part0) ∧
    matCheck (issOf (atTile (matTile [])) 0 0 0x40 tmmaW 0 part0) = .go ∧ matCheck (issOf (atTile (matTile listSpad)) 0 0 0x41 tmmaLW 0 part0) = .go ∧ matCheck (issOf (atTile (matTile foldSpad)) 0 0 0x42 tmmaFW 0 part0) = .go := by
  refine ⟨⟨headOk_sound ?_, headOk_sound ?_, headOk_sound ?_⟩, ?_, ?_, ?_⟩ <;> decide +kernel
/-- Every vector instruction with a scratchpad source and destination of one row. -/
def vecW : BitVec 120 := fields [(8, 1), (10, 1), (15, 1), (17, 2), (22, 2), (29, 2), (36, 1), (40, 1)]
def vecS : State := atTile { tile0 with ctx := [(0, { st := .running, s := [(1, word1), (2, 0x1080000)], b := [(1, 1)] })] }
/-- The same into accumulator slot 0, which is FREE. -/
def vecFreeW : BitVec 120 := fields [(15, 1), (17, 2), (22, 2), (29, 2), (36, 1), (40, 1)]
theorem witness_VectorInstructions : (∀ q ∈ vectorRows 0 0 vecW, AtHead vecS 0 0 q.2 vecW [(127, 64)] 0 part0 ∧ vecCheck (issOf vecS 0 0 q.2 vecW 0 part0) = .go) ∧
    AtHead vecS 0 0 0x80 vecFreeW [(127, 64)] 0 part0 ∧ vecCheck (issOf vecS 0 0 0x80 vecFreeW 0 part0) = .go := by
  refine ⟨?_, headOk_sound (by decide +kernel), by decide +kernel⟩
  have h : (vectorRows 0 0 vecW).all (fun q => headOk vecS 0 0 q.2 vecW [(127, 64)] part0 && decide (vecCheck (issOf vecS 0 0 q.2 vecW 0 part0) = .go)) = true := by decide +kernel
  intro q m
  have h2 := List.all_eq_true.1 h q m
  simp only [Bool.and_eq_true, decide_eq_true_eq] at h2
  exact ⟨headOk_sound h2.1, h2.2⟩
/-- A stage descriptor at 512 KiB: step 9, BF16 to the scratchpad; slot 0 holds sums. -/
def descSpad : SMap 8 := writeBytes [] 0x80000 (natToBytes 64 (0x100 + 6 * 2 ^ 24 + word1.toNat * 2 ^ 64))
def drainS : State := atTile { matTile descSpad with slots := [(0, { st := .accumulating }), (1, { st := .chained, online := true })] }
def drainW : BitVec 120 := fields [(14, 4), (29, 1), (33, 1)]
def drainTile : Tile := { getTile drainS 0 with ctx := [(0, { st := .running, s := [(4, 0x1080000)], b := [(1, 4)] })] }
theorem witness_DrainRescaleLswap :
    (AtHead (atTile drainTile) 0 0 0x48 drainW [(9, 8), (127, 52)] 0 part0 ∧ AtHead drainS 0 0 0x44 (fields [(12, 1)]) [(9, 8), (127, 14)] 0 part0 ∧ AtHead stB 0 0 0x45 0 [(127, 8)] 0 part1) ∧
    drainCheck (issOf (atTile drainTile) 0 0 0x48 drainW 0 part0) = .go ∧ rescaleCheck (issOf drainS 0 0 0x44 (fields [(12, 1)]) 0 part0) = .go ∧
    part1.image = some img0 ∧ (getTile stB 0).ringRound < img0.ringSchedule.length := by
  refine ⟨⟨headOk_sound ?_, headOk_sound ?_, headOk_sound ?_⟩, ?_, ?_, ?_⟩ <;> decide +kernel
theorem witness_StreamInstructions : (AtHead (regs [(4, 0x1040000)]) 0 0 0xA0 (fields [(8, 7), (21, 4)]) [(127, 63)] 0 part0 ∧ AtHead (regs []) 0 0 0xA1 (fields [(8, 7)]) [(127, 11)] 0 part0) ∧
    srunCheck (issOf (regs [(4, 0x1040000)]) 0 0 0xA0 (fields [(8, 7), (21, 4)]) 0 part0) = .go ∧ (issOf (regs []) 0 0 0xA1 (fields [(8, 7)]) 0 part0).older = false := by
  refine ⟨⟨headOk_sound ?_, headOk_sound ?_⟩, ?_, ?_⟩ <;> decide +kernel
/-- A handle with nothing on the way, and one that waits for a read. -/
def stopS (l : List MemReq) : State := atTile { tile0 with handles := [(7, { busy := true, reads := l })] }
theorem witness_StreamInstructions_stop : AtHead (stopS []) 0 0 0xA1 (fields [(8, 7)]) [(127, 11)] 0 part0 ∧ AtHead (stopS [{ chunks := [], runs := [] }]) 0 0 0xA1 (fields [(8, 7)]) [(127, 11)] 0 part0 ∧
    (issOf (stopS []) 0 0 0xA1 (fields [(8, 7)]) 0 part0).older = false ∧ (issOf (stopS [{ chunks := [], runs := [] }]) 0 0 0xA1 (fields [(8, 7)]) 0 part0).older = false ∧
    handleQuiet (stopS []) 0 7 = true ∧ (getHandle (getTile (stopS []) 0) 7).far = [] ∧ handleQuiet (stopS [{ chunks := [], runs := [] }]) 0 7 = false := by
  refine ⟨headOk_sound ?_, headOk_sound ?_, ?_⟩ <;> decide +kernel
/-! ## Hypotheses that can be met: units and events of a tile -/

/-- The state after a step that goes on. -/
def after (r : Res) : State := match r with | .next s => s | _ => State.reset
def matS : State := after (exec (.tmma 0 0 tmmaW) (atTile (matTile [])))
def vecS1 : State := after (exec (.vadd 0 0 vecW) vecS)
def vecS2 : State := after (exec (.vmov 0 0 vecFreeW) vecS)
def vecX (s : State) (v : VecOp) : Tile := retryClaims (makeClaims (getTile s 0) v.id v.ctx false (vecOpnds v)) v.id
theorem witness_ComputeOperationsEnd :
    (∃ m, (getTile matS 0).mats = [m] ∧ claimsTaken (getTile matS 0) m.id = true ∧ poisoned (getTile matS 0) (readsOfOp (getTile matS 0) m.id (matOpnds (getTile matS 0) m)) = none ∧ numericBad (getTile matS 0) m = none ∧
      m.loaded = true ∧ m.listLen ≤ m.listIdx + 1 ∧ m.chainA = none) ∧ checkPassed .pass = true ∧ (∃ replayed left, arrayCheck .normal .pass = .done replayed left) ∧
    (∃ v, (getTile vecS1 0).vecs = [v] ∧ claimsTaken (vecX vecS1 v) v.id = true ∧ poisoned (vecX vecS1 v) (readsOfOp (vecX vecS1 v) v.id ((vecOpnds v).filter (fun o => !o.write))) = none ∧ v.dk = 1) ∧
    (∃ v, (getTile vecS2 0).vecs = [v] ∧ claimsTaken (vecX vecS2 v) v.id = true ∧ poisoned (vecX vecS2 v) (readsOfOp (vecX vecS2 v) v.id ((vecOpnds v).filter (fun o => !o.write))) = none ∧ v.dk = 0 ∧ v.opcode ≠ 0x8E) :=
  ⟨⟨(getTile matS 0).mats.head (by decide +kernel), by decide +kernel⟩, rfl, ⟨_, _, rfl⟩, ⟨(getTile vecS1 0).vecs.head (by decide +kernel), by decide +kernel⟩, (getTile vecS2 0).vecs.head (by decide +kernel), by decide +kernel⟩
def drainS1 : State := after (exec (.drain 0 0 drainW) (atTile drainTile))
def drainS2 : State := after (exec (.drainStart 0) drainS1)
def resS : State := after (exec (.rescale 0 0 (fields [(12, 1)])) drainS)
def resS2 : State := after (exec (.rescaleStart 0) resS)
def swapS : State := after (exec (.lswap 0 0 0) { stB with tiles := [(0, { tile0 with arr := { bytes := [(1, 7)], fill := 2, full := true } })] })
/-- The state when a drain has retried its claims here and in its target tile. -/
def drainX (s : State) (d : DrainOp) : State × Bool :=
  let x := getTile s 0
  remoteReady (setTile s 0 (retryClaims (makeClaims x d.id d.ctx false (drainOpnds (getSlot x d.slot) d)) d.id)) 0 part0 d
theorem witness_DrainRescaleAndLeafEvents :
    (∃ d, (getTile drainS1 0).drains.find? (fun q => !q.started) = some d ∧ ((getTile drainS1 0).drains.filter (·.started)).length < 2) ∧
    (∃ d, (getTile drainS2 0).drains.find? (·.started) = some d ∧ (drainX drainS2 d).2 = true ∧ claimsTaken (getTile (drainX drainS2 d).1 0) d.id = true ∧
      poisoned (getTile (drainX drainS2 d).1 0) (readsOfOp (getTile (drainX drainS2 d).1 0) d.id ((drainOpnds (getSlot (getTile drainS2 0) d.slot) d).filter (fun o => !o.write)) ++
        mapReads (getTile (drainX drainS2 d).1 0) part0 (getSlot (getTile drainS2 0) d.slot) d) = none ∧ dDest d.desc = 0 ∧ dStep d.desc 5 = false) ∧
    (feedEnded (getHandle (getTile drainS2 0) 3) = true ∧ feedEnded { busy := true, drainFed := true } = false) ∧
    partOfTile drainS2 0 = some 0 ∧ getPart? drainS2 0 = some part0 ∧ (∃ r, (getTile resS2 0).rescales = [r] ∧ r.started = true) ∧
    (partOfTile swapS 0 = some 0 ∧ getPart? swapS 0 = some part1 ∧ swapWaiter (getTile swapS 0) = some 0 ∧ (getTile swapS 0).arr.full = true ∧ (getTile swapS 0).mats = [] ∧ ringIdle (tileCount part1) (getTile swapS 0) = true) := by
  refine ⟨⟨(getTile drainS1 0).drains.head (by decide +kernel), by decide +kernel⟩, ⟨(getTile drainS2 0).drains.head (by decide +kernel), by decide +kernel⟩, by decide +kernel, by decide +kernel, by decide +kernel,
    ⟨(getTile resS2 0).rescales.head (by decide +kernel), by decide +kernel⟩, by decide +kernel⟩
/-- Context 0 holds a head. -/
def heldS (f : Word32) (h : Held) (cause : Nat) : State :=
  { stB with tiles := [(0, { tile0 with ctx := [(0, { st := .waiting, cause := cause, held := some h })], flags := smSet [] 255 f })] }
/-- All four contexts have arrived at barrier 15. -/
def arrivedS : State := { stB with parts := [(0, { part1 with arrived := [(15, [(0, 0), (0, 1), (0, 2), (0, 3)])] })] }
theorem witness_HeldHeadsGoOn :
    (ctxOf (heldS 5 (.wait 255 0 true 5) 1) 0 0).held = some (.wait 255 0 true 5) ∧ (5 : Word32).toNat ≤ (getFlag (getTile (heldS 5 (.wait 255 0 true 5) 1) 0) 255).toNat ∧
    getFlag (getTile (heldS 5 (.wait 255 1 true 5) 1) 0) 255 = 5 ∧ getFlag (getTile (heldS 5 (.wait 255 2 true 4) 1) 0) 255 ≠ 4 ∧
    fenceDone (heldS 0 (.fence 2) 2) 0 0 2 = true ∧ fenceDone (heldS 0 (.barrier 15) 2) 0 0 2 = true ∧ partOfTile (heldS 0 (.barrier 15) 2) 0 = some 0 ∧
    (∃ x, getPart? arrivedS 0 = some x ∧ barrierMembers x 15 ≠ [] ∧ (∀ q ∈ barrierMembers x 15, q ∈ tabGetD x.arrived 15 []) ∧ x.running = none) ∧
    (img0.layerMarks.length - (img0.layerMarks.idxOf (0, 0) + 1) = 1 ∧ img0.layerMarks.length - (img0.layerMarks.idxOf (0, 1) + 1) = 0 ∧ (0, 1) ∈ img0.layerMarks ∧ (15, 0) ∉ img0.layerMarks) :=
  ⟨rfl, by decide +kernel, rfl, by decide +kernel, by decide +kernel, by decide +kernel, rfl, ⟨{ part1 with arrived := [(15, [(0, 0), (0, 1), (0, 2), (0, 3)])] }, by decide +kernel⟩, by decide +kernel⟩
/-- A tile with a tagged region of 4 slots at 256 KiB. -/
def tagTile : Tile := { tile0 with map := tile0.map ++ [mapEnt 3 512 4] }
def claim0 : Claim := { entry := 3, index := 3, opnd := 0, circ := false, writer := true, remote := false, who := 0, op := 9, taken := false }
def remote0 : Remote := { src := 1, dst := 0, ctx := 0, read := false, addr := 0, base := 0x30000, runs := [(0x30000, [1, 2, 3, 4])], len := 4, loc := [], handle := none, part := 0, toArr := false }
def remote1 : Remote := { remote0 with read := true, addr := 0xFFFFFC, base := 0xFFFFFC, runs := [], loc := [(0x40000, 4)], handle := some 7 }
def sig0 : Sig := { src := .newt 0, toNewt := false, target := 0, flag := 254, set := false, value := 5, part := 0, steep := 1 }
def steep0 : Steep := { n := 1, rpt := 32, tiles := [0], rows := [], frozen := { heads := [], prompts := [], cfg := 0 }, marks := [], undo := [], frozenAt := 0, composed := true, released := 0 }
/-- Partition 0 runs steep 1. -/
def part2 : Part := { part1 with phase := .body, steepNo := 1, running := some steep0 }
def arriveS : State := { atTile tagTile with parts := [(0, part2)], sigs := [sig0], remotes := [remote0, { remote1 with src := 2 }] }
theorem witness_ArrivalsAndClaims :
    arriveS.sigs[0]? = some sig0 ∧ sigBlocked arriveS.sigs 0 sig0 = false ∧ sigStale { arriveS with sigs := dropIdx arriveS.sigs 0 } sig0 = false ∧ sigStale (atTile tagTile) sig0 = true ∧
    canClaim { tagTile with claims := [claim0] } claim0 = true ∧ claimAhead { tagTile with claims := [claim0] } 0 claim0 = false ∧
    canClaim { tagTile with claims := [{ claim0 with entry := 2, circ := true }] } { claim0 with entry := 2, circ := true } = true ∧ canClaim { tagTile with tags := [(tagKey 3 3, { st := .full })] } { claim0 with writer := false } = true ∧
    remoteBlocked arriveS.remotes 0 remote0 = false ∧ farReady (farClaim (getTile arriveS 0) remote0) remote0 = true ∧
    arriveS.remotes[1]? = some { remote1 with src := 2 } ∧ remoteBlocked arriveS.remotes 1 { remote1 with src := 2 } = false ∧ farReady (farClaim (getTile arriveS 0) remote1) { remote1 with src := 2 } = true ∧
    (getHandle (getTile arriveS 2) 7).dir ≠ 2 ∧ poisoned (farClaim (getTile arriveS 0) remote1) [(remote1.addr, remote1.len)] = none ∧
    claimsTaken (landClaim (getTile arriveS 2) (getHandle (getTile arriveS 2) 7) remote1.loc) (getHandle (getTile arriveS 2) 7).opId = true ∧ sigBlocked [{ sig0 with toNewt := true }] 0 { sig0 with toNewt := true } = false := by decide +kernel
def waitingS : State := { heldS 0 (.wait 255 0 true 5) 1 with parts := [(0, part2)] }
theorem witness_TileTimeoutsAndScrubbing : (ctxOf (regs []) 0 0).st = .running ∧ (getTile (regs []) 0).retired = false ∧ getPart? waitingS 0 = some part2 ∧ part2.phase ≠ .none ∧
    (∀ t ∈ maskTiles part2.tileMask, (∀ c < 4, (ctxOf waitingS t c).st ≠ .running) ∧ unitBusy waitingS t = false) := by decide +kernel
/-- An address program that reads 64 bytes of the partition's memory, and its handle. -/
def progSpad : SMap 8 := writeBytes [] 0x50000 (natToBytes 16 (2 + 1 * 256) ++ natToBytes 16 (3 + 64 * 2 ^ 32 + 128 * 2 ^ 64) ++ natToBytes 16 0)
def handle0 : Handle := { busy := true, progAddr := 0x50000, l := 0x40000, localWord := 0x1040000, opId := 77 }
def streamS : State := atTile { tile0 with spad := progSpad, handles := [(7, handle0)] }
def streamS2 : State := after (exec (.streamXfer 0 7) streamS)
def streamS3 : State := after (exec (.streamXfer 0 7) streamS2)
def streamS4 : State := after (exec (.streamReadLand 0 7 ⟨0, []⟩) streamS3)
theorem witness_StreamTransfers :
    partOfTile streamS 0 = some 0 ∧ getPart? streamS 0 = some part0 ∧ mayStart (getTile streamS 0) (getHandle (getTile streamS 0) 7) = true ∧ bits (readLE progSpad 0x50000 16 128 : BitVec 128) 7 0 = 2 ∧
    poisoned (getTile streamS 0) [(0x50000, 48)] = none ∧ apMalformed (readLE progSpad 0x50000 16 128) 0 [readLE progSpad 0x50010 16 128, readLE progSpad 0x50020 16 128] = none ∧
    (let h := getHandle (getTile streamS2 0) 7
     let hd := apRun 128 h
     let s1 := setTile streamS2 0 (setHandle (getTile streamS2 0) 7 hd)
     let w := hd.prog.getD hd.ip 0
     h.loaded = true ∧ h.busy = true ∧ h.walking = none ∧ h.dir = 0 ∧ h.drainFed = false ∧ h.sent = 0 ∧ apOp w = 3 ∧ xferBad s1 0 part0 hd w = none ∧ memSide s1 part0 0 hd.mspace hd.rtile (hd.m + apM w) (apLen w) = .mem [(128, 64)] [] ∧
       (requestsOf [(128, 64)] 0).filter (fun q => decide (hd.sent ≤ q.2.2)) = [(128, 64, 0)] ∧ (getTile streamS2 0).merge = [] ∧ h.reads.length < 64 ∧ readsOut (getTile s1 0) < 256) ∧
    0 ≤ part0.creditRd := by decide +kernel
def merge0 : MergeEntry := { granule := 262143, bytes := [(0, 9), (63, 8)], mask := 0x8000000000000001, handles := 0 }
theorem witness_StreamEvents :
    (∃ q, (getHandle (getTile streamS3 0) 7).reads = [q] ∧ (getHandle (getTile streamS3 0) 7).dir = 0 ∧
      claimsTaken (landClaim (getTile streamS3 0) (getHandle (getTile streamS3 0) 7) q.runs) (getHandle (getTile streamS3 0) 7).opId = true) ∧
    (getHandle (getTile streamS4 0) 7).reads = [] ∧ (getHandle (getTile streamS4 0) 7).loaded = true ∧ (getHandle (getTile streamS4 0) 7).sent = 0 ∧ (getHandle (getTile streamS4 0) 7).far = [] ∧
    surplusRows (apRun 128 (getHandle (getTile streamS4 0) 7)) = false ∧ ([merge0].map (·.granule)).Nodup ∧ 0 ≤ part0.creditWr ∧ ({ part0 with creditWr := -1 } : Part).creditWr < 0 ∧ apOp ((apRun 128 (getHandle (getTile streamS4 0) 7)).prog.getD (apRun 128 (getHandle (getTile streamS4 0) 7)).ip 0) = 0 ∧
    streamS4.remotes = [] ∧ (getTile streamS4 0).merge = [] ∧ (getTile streamS4 0).claims = [] ∧ ({ tile0 with merge := [merge0] } : Tile).merge[0]? = some merge0 ∧ ({ handle0 with walking := some (3, 4) } : Handle).walking = some (3, 4) :=
  ⟨⟨(getHandle (getTile streamS3 0) 7).reads.head (by decide +kernel), by decide +kernel⟩, by decide +kernel⟩

/-! ## Hypotheses that can be met: commands of the rings -/

/-- A packet of a tenant, class, SEQ, HANDLE and parameter fields (offset, value). -/
def pk (tenant cls seq handle : Nat) (ps : List (Nat × Nat)) : Packet :=
  { flags := 0, tenantClass := BitVec.ofNat 16 (cls * 4096 + tenant), seq := BitVec.ofNat 32 seq, handle := BitVec.ofNat 64 handle, params := BitVec.ofNat 384 (ps.foldr (fun q n => n + q.2 * 256 ^ (q.1 - 16)) 0) }
def subRing (op : BitVec 8) (p : Packet) : Ring := { cfg := 0x8000000008000000, tail := 1, live := [packetBits op p] }
/-- The command at the head of a ring: the PF's ring 0, or partition 0's ring 2; its completion ring is the next one. -/
def ringS (s : State) (ring : Nat) (op : BitVec 8) (p : Packet) : State := { s with rings := [(ring, subRing op p), (ring + 1, { cfg := 0xC000000000000000 })] }
/-- The command at the front of the firmware queue. -/
def frontC (ring : Nat) (op : BitVec 8) (p : Packet) (i : FwInput) : FwCmd := { ring := ring, opcode := op, p := p, input := i }
def frontS (s : State) (c : FwCmd) : State := { s with fwQueue := [c], rings := [(c.ring, { subRing c.opcode c.p with live := [], head := 1, outstanding := [c.p.seq] }), (c.ring + 1, { cfg := 0xC000000000000000 })] }
theorem frontS_front {s : State} {c : FwCmd} (h : s.ready = true) (h2 : s.mod.cores ≠ 0) (h3 : mirroring s = false) : AtFront (frontS s c) c [] := ⟨rfl, h, h2, h3⟩
def decodeOk (s : State) (ring : Nat) (op : BitVec 8) (p : Packet) : Bool :=
  decide (ring < 8192) && s.ready && decide (s.pwr.dev = 0) && bit (getRing s ring).cfg 63 && !bit (getRing s ring).cfg 62 && decide ((getRing s ring).live.head? = some (packetBits op p)) && cplRoom s ring p && ringTurn s ring &&
    !handleWaits s ring op.toNat p && !mirroring s
theorem decodeOk_sound {s : State} {ring : Nat} {op : BitVec 8} {p : Packet} (h : decodeOk s ring op p = true) : Decodable s ring op p := by
  simp only [decodeOk, Bool.and_eq_true, decide_eq_true_eq, Bool.not_eq_true'] at h
  exact ⟨h.1.1.1.1.1.1.1.1.1, ⟨h.1.1.1.1.1.1.1.1.2, h.1.1.1.1.1.1.1.2⟩, ⟨h.1.1.1.1.1.1.2, h.1.1.1.1.1.2⟩, h.1.1.1.1.2, h.1.1.1.2, h.1.1.2, h.1.2, h.2⟩
def tenant0 : Tenant := { variant := 0xFFFF, pinQuota := 16, subRing := 2, cplRing := 3 }
def target0 : Target :=
  { tenant := 1, host := false, ports := 0xF, destQpn := 5, pmtu := 1, gid := 0, rkey := 0, startPsn := 0, regionAddr := 0x100000, regionLen := 0x4000000, qpn := 1, psn := 0, port := 0, st := .active, cause := 0, moved := false,
    retries := 0, tries := 0, triedPorts := [], rnr := false, log := some (65536, 65536), consumed := 0, pos := 0, produced := 0, queue := [], recIdx := 0, crcs := [], flights := [], cnps := 0 }
/-- Partition 0 runs steep 1 for tenant 1, which has a pour target and a pinned prefix. -/
def pin0 : Pin := { tenant := 1, length := 4, crc := 0, measurement := 77, pages := [60], retiring := false }
def part3 : Part := { part2 with tenants := [(1, tenant0)], targets := [(0, target0)], poolPages := 63, pool := (List.range 62).map (· + 1), pins := [(16383, pin0)] }
def fields0 : ReqFields :=
  { partition := 0, kind := 0, handle := 9, seq := 5, ring := 2, tenant := 1, variant := 0xFFFF, image := 0, length := 5, contLen := 0, chunk := 2, progress := 0, nextPos := 0, pin := 0, basePrio := 3, effPrio := 3, deadline := 0,
    admitAt := 0, promoStart := 0, pourTarget := 0, result := 0, seed := 0, stopSet := 0, maxNew := 8, pauses := 0, charges := 0, tokenAddr := 0x2000, tokenCrc := 0, crcHwm := 0, delay := 0, lastEvent := 0, cmdFlags := 0, cls := 0,
    steps := 0, measurement := 77, isPin := false }
def entry0 (st : ReqState) : Entry := entryFrom st fields0 false true
def reqS (st : ReqState) : State := { up with parts := [(0, part3)], table := [(0, entry0 st)] }
def submitP : Packet := pk 1 0 5 10 [(16, 0x2000), (24, 5), (48, 5 + 3 * 2 ^ 23), (52, 8 * 2 ^ 17)]
theorem witness_FinalCompletionsWait : mirroring up = false ∧ mirroring (reqS .queued) = false := ⟨rfl, rfl⟩
theorem witness_CommandsTurnedAway :
    Decodable (ringS (reqS .queued) 2 0x10 (pk 0 0 1 0 [])) 2 0x10 (pk 0 0 1 0 []) ∧ gate (decoded (ringS (reqS .queued) 2 0x10 (pk 0 0 1 0 [])) 2) 2 0x10 (pk 0 0 1 0 []) = some (0x0202, 0) ∧
    Decodable (ringS (reqS .queued) 2 0x01 { submitP with flags := 4 }) 2 0x01 { submitP with flags := 4 } ∧ gate (decoded (ringS (reqS .queued) 2 0x01 { submitP with flags := 4 }) 2) 2 0x01 { submitP with flags := 4 } = some (0x0201, 1) ∧
    Decodable (ringS (reqS .queued) 2 0x07 submitP) 2 0x07 submitP ∧ listedCommand 0x07 = false := by
  refine ⟨decodeOk_sound ?_, ?_, decodeOk_sound ?_, ?_, decodeOk_sound ?_, ?_⟩ <;> decide +kernel
def pauseP : Packet := pk 1 0 6 9 []
def pairedS : State := { ringS (reqS .queued) 2 0x02 pauseP with pair := { st := 2 } }
theorem witness_CommandsAreQueued :
    Decodable (ringS (reqS .queued) 2 0x03 pauseP) 2 0x03 pauseP ∧ gate (decoded (ringS (reqS .queued) 2 0x03 pauseP) 2) 2 0x03 pauseP = none ∧
    (ringS (reqS .queued) 2 0x03 pauseP).fwQueue.length < (ringS (reqS .queued) 2 0x03 pauseP).fwLimit.toNat ∧
    Decodable { ringS (reqS .queued) 2 0x03 pauseP with fwLimit := 0 } 2 0x03 pauseP ∧
    (pairedS.ready = true ∧ pairedS.pwr.dev = 0 ∧ bit (getRing pairedS 2).cfg 63 = true ∧ bit (getRing pairedS 2).cfg 62 = false ∧ (getRing pairedS 2).live.head? = some (packetBits 0x02 pauseP) ∧ cplRoom pairedS 2 pauseP = true ∧
      handleWaits pairedS 2 0x02 pauseP = false ∧ ringTurn pairedS 2 = true ∧ pairedS.pair.st = 2 ∧ gate (decoded pairedS 2) 2 0x02 pauseP = none) := by
  refine ⟨decodeOk_sound ?_, ?_, ?_, decodeOk_sound ?_, ?_⟩ <;> decide +kernel
theorem witness_SubmissionsAreAdmitted :
    let s := ringS (reqS .queued) 2 0x01 submitP
    Decodable s 2 0x01 submitP ∧ gate (decoded s 2) 2 0x01 submitP = none ∧ partNo (decoded s 2) 2 = 0 ∧ getPart? (decoded s 2) 0 = some part3 ∧ follower (decoded s 2) 0 = false ∧ part3.image = some img0 ∧ part3.phase ≠ .none ∧
    subReserved submitP = none ∧ submitChecks (decoded s 2) 0 part3 img0 submitP = none ∧ freeEntry (decoded s 2) = some 1 := by
  refine ⟨decodeOk_sound ?_, ?_⟩ <;> decide +kernel
theorem witness_ExpressCommandsTakeEffect :
    let s := fun st => ringS (reqS st) 2 0x02 pauseP
    let q := ringS (reqS .queued) 2 0x05 (pk 1 0 6 9 [(16, 7)])
    let n := ringS (reqS .queued) 2 0x7F pauseP
    (∀ st ∈ [ReqState.queued, .done], decodeOk (s st) 2 0x02 pauseP = true ∧ gate (decoded (s st) 2) 2 0x02 pauseP = none ∧ follower (decoded (s st) 2) 0 = false ∧ paramsOk pauseP [] ∧
      namedEntry (decoded (s st) 2) 2 pauseP = some (0, entry0 st) ∧ getPart? (decoded (s st) 2) 0 = some part3 ∧ part3.phase ≠ .none) ∧
    (decodeOk q 2 0x05 (pk 1 0 6 9 [(16, 7)]) = true ∧ gate (decoded q 2) 2 0x05 (pk 1 0 6 9 [(16, 7)]) = none ∧ paramsOk (pk 1 0 6 9 [(16, 7)]) [(16, 1)] ∧ (pk 1 0 6 9 [(16, 7)]).le 16 1 = 7 ∧ namedEntry (decoded q 2) 2 (pk 1 0 6 9 [(16, 7)]) = some (0, entry0 .queued)) ∧
    (decodeOk n 2 0x7F pauseP = true ∧ gate (decoded n 2) 2 0x7F pauseP = none ∧ (getRing n 2).outstanding = [] ∧ (getRing n 2).nops = []) := by
  unfold paramsOk; decide +kernel
def createP : Packet := pk 0 0 1 0 [(16, 1), (18, 8), (20, 0xFF00), (28, 64), (32, 512), (34, 34), (35, 33), (36, 33), (38, 0xFFFF), (40, 64), (42, 4), (44, 2), (48, 7)]
def tenantP : Packet := pk 0 0 2 0 [(16, 2), (20, 0xFFFF), (22, 2), (24, 3), (28, 100)]
def part4 : Part := { part3 with image := none, running := none, phase := .none, tenants := [], targets := [], pins := [] }
def emptyS : State := { up with parts := [(0, part4)] }
def loadS : State := { up with parts := [(0, { part4 with image := some img0 })] }
def loadP : Packet := pk 0 0 3 0 [(24, 100000)]
theorem witness_SetupCommandsTakeEffect :
    (∀ c ∈ [frontC 0 0x10 createP .none, frontC 0 0x11 (pk 0 0 1 0 [(16, 0)]) .none, frontC 2 0x12 tenantP .none, frontC 2 0x13 loadP (.image (.image img0 0))], AtFront (frontS emptyS c) c []) ∧
    AtFront (frontS loadS (frontC 2 0x14 (pk 0 0 3 0 []) .none)) (frontC 2 0x14 (pk 0 0 3 0 []) .none) [] ∧
    (paramsOk createP [(16, 1), (18, 19), (38, 8), (48, 8)] ∧ createBad { frontS emptyS (frontC 0 0x10 createP .none) with fwQueue := [] } (createArgs createP) = none ∧ emptyS.mod.gen ≠ BitVec.allOnes 32) ∧
    (paramsOk (pk 0 0 1 0 [(16, 0)]) [(16, 1)] ∧ getPart? emptyS 0 = some part4 ∧ destroyHeld { frontS emptyS (frontC 0 0x11 (pk 0 0 1 0 [(16, 0)]) .none) with fwQueue := [] } 0 part4 = false) ∧
    (paramsOk tenantP [(16, 3), (20, 6), (28, 4)] ∧ tenantBad { frontS emptyS (frontC 2 0x12 tenantP .none) with fwQueue := [] } 0 part4 tenantP = none ∧ tenantP.le 18 1 = 0) ∧
    (paramsOk loadP [(16, 17), (40, 8)] ∧ loadP.le 32 1 = 0 ∧ part4.image = none ∧ img0.headerLen = loadP.le 24 8 ∧ loadP.le 40 8 = 0 ∧ imageOk part4 img0 = true ∧ imagePages img0 + totalPages img0 img0.contextMax ≤ part4.dramPages) ∧
    emptyS.pair.waitingEntries = [] ∧ partNo (frontS emptyS (frontC 2 0x13 loadP .none)) 2 = 0 ∧ paramsOk (pk 0 0 3 0 []) [] ∧ entriesOf loadS 0 = [] ∧ part4.pins = [] := by
  refine ⟨fun c _ => frontS_front rfl (by decide) rfl, frontS_front rfl (by decide) rfl, ?_⟩
  unfold paramsOk; decide +kernel
def pinP : Packet := pk 1 0 7 11 [(16, 0x3000), (24, 5), (28, 7)]
def unpinP : Packet := pk 1 0 8 9 [(16, 16383)]
def pinnedS : State := { up with parts := [(0, part3)], table := [(0, { entry0 .queued with f := { fields0 with pin := 0x7FFF } })] }
theorem witness_RequestCommandsTakeEffect :
    (∀ c ∈ [frontC 2 0x03 pauseP .none, frontC 2 0x06 (pk 1 0 6 9 [(16, 0x4000)]) (.hostOk true), frontC 2 0x06 (pk 1 0 6 9 [(16, 0x4000)]) (.hostOk false), frontC 2 0x15 pinP .none], AtFront (frontS (reqS .queued) c) c []) ∧
    AtFront (frontS (reqS .paused) (frontC 2 0x04 pauseP .none)) (frontC 2 0x04 pauseP .none) [] ∧ AtFront (frontS pinnedS (frontC 2 0x16 unpinP .none)) (frontC 2 0x16 unpinP .none) [] ∧
    (∀ st ∈ [ReqState.queued, .paused], namedEntry (reqS st) 2 pauseP = some (0, entry0 st)) ∧ getPart? (reqS .queued) 0 = some part3 ∧ follower (reqS .queued) 0 = false ∧ part3.phase ≠ .none ∧
    (paramsOk pauseP [] ∧ paramsOk (pk 1 0 6 9 [(16, 0x4000)]) [(16, 8)] ∧ (pk 1 0 6 9 [(16, 0x4000)]).le 16 8 % 64 = 0) ∧
    (paramsOk pinP [(16, 13)] ∧ pinChecks (reqS .queued) 0 part3 img0 pinP = none ∧ freeEntry (reqS .queued) = some 1) ∧
    (paramsOk unpinP [(16, 2)] ∧ tabGet? (unpinP.le 16 2) part3.pins = some pin0 ∧ ringLevel pinnedS 2 = 1 ∧
      ∃ r ∈ entriesOf pinnedS 0, r.2.f.pin.getLsbD 14 = true ∧ r.2.f.pin.toNat % 2 ^ 14 = unpinP.le 16 2) := by
  refine ⟨fun c _ => frontS_front rfl (by decide) rfl, frontS_front rfl (by decide) rfl, frontS_front rfl (by decide) rfl, ?_⟩
  unfold paramsOk; decide +kernel

/-! ## Hypotheses that can be met: the window, doorbells, completions, and commands of the engines -/

def sent0 : Completion := { seq := 5, status := 0, final := false, event := true, degraded := false, detail := 0, handle := 9, result := 7, int := true }
/-- Partition 0's function is enabled; ring 2 is a push-mode submission ring of 32 entries with one live entry at its last slot, ring 3 a completion ring. -/
def winS : State :=
  { up with parts := [(0, part3)], funcs := [(1, { enabled := true })], push := [(262144 + 31 * 64, 5), (262144 + 32 * 64 - 1, 6)],
            rings := [(2, { cfg := 0xA000000008000000, head := 31, tail := 32, live := [0] }), (3, { cfg := 0xC000000000000000, base := 0x100000, head := 65530, tail := 25, waiting := [(sent0, none)] })] }
def winOff (n : Nat) (x : Ring) : State := { winS with rings := tabInsert n x winS.rings }
theorem witness_WindowAccesses :
    hostReach winS 1 = true ∧ regAt winS 1 0x30000 = none ∧ regAt winS 1 0x100028 = some (.ring 2 0x28) ∧ regCounter (.ring 2 0x28) = true ∧ regAt winS 1 0x100068 = some (.ring 3 0x28) ∧
    regAt winS 1 0x100000 = some (.ring 2 0) ∧ regPaired (.ring 2 0) = true ∧ regBarred winS 1 (.ring 2 0) = none ∧ regBarred winS 1 (.ring 2 0x28) = some 4 ∧
    (exec (.counterLowRead 1 0x100028) winS = .next (after (exec (.counterLowRead 1 0x100028) winS)) ∧ Reaches (after (exec (.counterLowRead 1 0x100028) winS)) 1 0x100028 (.ring 2 0x28)) ∧
    Reaches (after (exec (.pairedLowWrite 1 0x100000 7) winS)) 1 0x100000 (.ring 2 0) ∧ regBarred (after (exec (.pairedLowWrite 1 0x100000 7) winS)) 1 (.ring 2 0) = none := by
  refine ⟨?_, ?_, ?_, ?_, ?_, ?_, ?_, ?_, ?_, ⟨rfl, ⟨?_, ?_⟩⟩, ⟨?_, ?_⟩, ?_⟩ <;> decide +kernel
/-- Reads of a register whole, of two of its bytes and of its low half; doorbells shown and not; push memory to its last word; ERR_ACCESS empty and filled; a register that is not paired. -/
theorem witness_WindowReadsAndWrites :
    (∃ off, regAt winS 1 off = some .errAccess ∧ off % 8 = 0 ∧ regPaired .errAccess = false ∧ regCounter .errAccess = false ∧ regBarred winS 1 .errAccess = none) ∧ hostReach winS 1 = true ∧
    ((0x06 : BitVec 8) ≠ 0xFF ∧ (0x06 : BitVec 8) ≠ 0x0F ∧ (0x06 : BitVec 8) ≠ 0xF0 ∧ firstByte 0x06 = 1 ∧ (0x06 : BitVec 8).getLsbD 2 = true) ∧
    (doorbellHere winS 1 24 = true ∧ doorbellHere winS 1 32 = false ∧ (0x1000000 + ((pushPart winS 1).2 - 8)) + 8 - 0x1000000 ≤ (pushPart winS 1).2) ∧
    (bit (getFunc winS 1).errAccess 63 = false ∧ bit (getFunc (errAccess winS 1 1 0 8) 1).errAccess 63 = true) := by
  refine ⟨⟨0x1000, ?_⟩, ?_⟩ <;> decide +kernel
def a4S : State := { up with parts := [], pwr := { pmeDone := true } }
theorem witness_RingPortAndKettleSwitches :
    (Reaches winS 1 0x100000 (.ring 2 0) ∧ regBarred winS 1 (.ring 2 0) = none ∧ mirroring winS = false ∧ ringEnabled (getRing winS 2) = true) ∧
    ringEnabled (getRing (winOff 2 {}) 2) = false ∧ enableOk (dropHeld (winOff 2 {}) 1 0x100000) 1 2 (0x8000000008000000 &&& cfgMask) = true ∧ (0x2000000008000000 : Word64) &&& cfgMask = setBit (getRing winS 2).cfg 63 false ∧
    hostReach a4S 0 = true ∧ a4S.ready = true ∧ a4Ready a4S = true ∧ a4Ready up = false ∧ (0x8000000000000000 &&& cfgMask ^^^ (getRing winS 2).cfg) &&& 0x7FFFFFFFFFFFFFFF ≠ 0 := by
  refine ⟨⟨⟨?_, ?_⟩, ?_⟩, ?_⟩ <;> decide +kernel
theorem witness_Bar4AccessesMemory : hostReach winS 1 = true ∧ winS.pwr.dev = 0 ∧ getPart? winS 0 = some part3 ∧ 0 ≤ part3.creditRm ∧ ({ part3 with creditRm := -1 } : Part).creditRm < 0 ∧ [true, false, true, true].length = 4 ∧ (bits part3.bar4Base 47 30 * 2 ^ 30 + 16777212) + 4 ≤ part3.dramPages * 262144 ∧
    part3.imageBase + img0.size ≤ bits part3.bar4Base 47 30 * 2 ^ 30 + 16777212 := by decide +kernel
/-- A TAIL one past what the ring can hold, a HEAD one past TAIL, a disabled ring and a module before READY. -/
theorem witness_BadDoorbellsAreDropped :
    hostReach winS 1 = true ∧ doorbellRing winS 1 0 = some 2 ∧ doorbellRing winS 1 8 = some 3 ∧ ringEnabled (getRing winS 2) = true ∧ ringIsCpl (getRing winS 2) = false ∧
    ringSize (getRing winS 2) < ((64 : BitVec 16) - (getRing winS 2).head).toNat ∧ ringIsCpl (getRing winS 3) = true ∧ ((getRing winS 3).tail - (getRing winS 3).head).toNat < ((26 : BitVec 16) - (getRing winS 3).head).toNat ∧
    ringEnabled (getRing (winOff 2 {}) 2) = false ∧ doorbellRing { winS with ready := false } 1 0 = some 2 ∧ bits (64 : Word64) 63 16 = 0 ∧ winS.pwr.dev = 0 ∧ (0xFF : BitVec 8) >>> (8 - 0) = 0 ∧
    ((0x0F : BitVec 8) <<< (12 % 8) = 0xF0 ∧ (0x0F : BitVec 8) >>> (8 - 12 % 8) = 0 ∧ doorbellRing winS 1 (12 / 8 * 8) = some 3) := by decide +kernel
theorem witness_DoorbellsAreTaken :
    hostReach winS 1 = true ∧ doorbellRing winS 1 0 = some 2 ∧ doorbellRing winS 1 8 = some 3 ∧ mirroring winS = false ∧ bits (63 : Word64) 63 16 = 0 ∧
    ((getRing winS 2).tail - (getRing winS 2).head).toNat ≤ ((63 : BitVec 16) - (getRing winS 2).head).toNat ∧ ((63 : BitVec 16) - (getRing winS 2).head).toNat ≤ ringSize (getRing winS 2) ∧
    ((25 : BitVec 16) - (getRing winS 3).head).toNat ≤ ((getRing winS 3).tail - (getRing winS 3).head).toNat ∧ bit (getRing winS 2).cfg 61 = true ∧ winS.ready = true ∧ winS.pwr.dev = 0 ∧
    ringEnabled (getRing winS 2) = true ∧ ringEnabled (getRing winS 3) = true ∧ ringIsCpl (getRing winS 3) = true ∧ ringIsCpl (getRing winS 2) = false := by decide +kernel
/-- Bytes of the live entry, and bytes beside it. -/
theorem witness_PushWritesSpareLiveEntries :
    hostReach winS 1 = true ∧ winS.ready = true ∧ (0x10007BF - 0x1000000) + 2 ≤ (pushPart winS 1).2 ∧ liveAt winS 1 (0x10007BF - 0x1000000) = none ∧ liveAt winS 1 (0x10007BF - 0x1000000 + 1) = some 2 ∧
    ringFirst winS 1 + ringsShown winS 1 ≤ 8192 ∧ (2046 : Nat) + 2 ≤ (pushPart winS 1).2 ∧ (∀ i < 2, liveAt winS 1 (i + 5) = none) := by decide +kernel
def pullS : State := winOff 2 { cfg := 0x8000000008000000, head := 0, tail := 1 }
def fullS : State := winOff 3 { cfg := 0xC000000000000000, head := 0, tail := 32, waiting := [(sent0, none)] }
def lastS (c : Completion) (int : Word64) : State := { winOff 3 { cfg := 0xC000000000000000, head := 0, tail := 31, waiting := [(c, none)], int := int } with table := [] }
theorem witness_RingEvents :
    (deviceUp pullS = true ∧ mirroring pullS = false ∧ ringEnabled (getRing pullS 2) = true ∧ ringIsCpl (getRing pullS 2) = false ∧ bit (getRing pullS 2).cfg 61 = false ∧
      ((getRing pullS 2).tail - (getRing pullS 2).head).toNat - (getRing pullS 2).live.length = 1 ∧ [(0 : BitVec 512)].length ≤ 8) ∧
    ((getRing fullS 3).waiting = [(sent0, none)] ∧ ringSize (getRing fullS 3) ≤ ((getRing fullS 3).tail - (getRing fullS 3).head).toNat) ∧ (getRing winS 3).waiting = [(sent0, none)] ∧
    ((getRing winS 3).tail - (getRing winS 3).head).toNat < ringSize (getRing winS 3) ∧ bit (getRing winS 3).int 63 = true ∧
    (let s := lastS { sent0 with final := true } 0x500000001
     ((getRing s 3).tail - (getRing s 3).head).toNat < ringSize (getRing s 3) ∧ bit (getRing s 3).int 63 = false ∧ (getFunc s (ringFunc s 3)).fnMask = false ∧ (getFunc s (ringFunc s 3)).masked = [] ∧ s.table = []) ∧
    (let s := winOff 3 { cfg := 0xC000000000000000, int := 0x500000001, unsignalled := 1 }
     bit (getRing s 3).int 63 = false ∧ bits (getRing s 3).int 23 0 ≠ 0 ∧ 0 < (getRing s 3).unsignalled ∧ bits (getRing s 3).int 42 32 = 5) := by decide +kernel

/-! ## Hypotheses that can be met: targets, power, service, groups and the pair -/

def addP (mask : Nat) : Packet := pk 1 0 5 0 [(16, 7), (19, mask), (20, 9), (23, 1), (48, 0x100000), (56, 0x4000000)]
def hostAddP : Packet := pk 1 0 5 0 [(16, 7), (18, 1), (48, 0x100000), (56, 0x4000000)]
def portS : State := { reqS .queued with iod := { portsUp := 1 } }
def bareS : State := { up with parts := [(0, part3)] }
theorem witness_TargetAndPowerCommands :
    (∀ c ∈ [frontC 2 0x20 (addP 15) .none, frontC 2 0x20 (addP 2) .none, frontC 2 0x20 hostAddP .none], AtFront (frontS portS c) c []) ∧
    (∀ c ∈ [frontC 0 0x40 (pk 0 0 1 0 [(16, 5)]) .none, frontC 2 0x40 (pk 1 0 5 0 [(16, 5)]) .none, frontC 0 0x41 (pk 0 0 1 0 [(16, 800)]) .none, frontC 0 0x41 (pk 0 0 1 0 [(16, 799)]) .none],
      AtFront (frontS up c) c []) ∧
    AtFront (frontS bareS (frontC 2 0x21 (pk 1 0 5 0 [(16, 0)]) .none)) (frontC 2 0x21 (pk 1 0 5 0 [(16, 0)]) .none) [] ∧
    (∀ p ∈ [addP 15, addP 2, hostAddP], targetParams p = none ∧ tabGet? (p.le 16 2) part3.targets = none ∧ (portS.parts.map (fun q => q.2.targets.length)).sum < 1024) ∧
    getPart? portS 0 = some part3 ∧ (addP 15).le 18 1 = 0 ∧ leastLoaded portS (portsFor portS (BitVec.ofNat 4 ((addP 15).le 19 1))) = some 0 ∧ portsFor portS (BitVec.ofNat 4 ((addP 2).le 19 1)) = [] ∧ hostAddP.le 18 1 = 1 ∧
    (paramsOk (pk 1 0 5 0 [(16, 0)]) [(16, 2)] ∧ tabGet? 0 part3.targets = some target0 ∧ getPart? bareS 0 = some part3 ∧ target0.tenant = (pk 1 0 5 0 [(16, 0)]).tenant ∧ entriesOf bareS 0 = [] ∧ part3.cancelled = [] ∧ bareS.pair.waitingEntries = []) ∧
    (paramsOk (pk 0 0 1 0 [(16, 5)]) [(16, 4)] ∧ ringPart up 0 = none ∧ ringPart up 2 = some 0 ∧ (∀ q ∈ up.parts, q.2.pstate = 0 ∧ q.2.waking = none) ∧ up.pwr.tolCmds = []) ∧
    (pk 0 0 1 0 [(16, 800)]).le 16 2 = 800 ∧ (pk 0 0 1 0 [(16, 799)]).le 16 2 = 799 := by
  refine ⟨fun c _ => frontS_front rfl (by decide) rfl, fun c _ => frontS_front rfl (by decide) rfl, frontS_front rfl (by decide) rfl, ?_⟩
  unfold paramsOk; decide +kernel
def teleP : Packet := pk 0 0 1 0 [(16, 0x4000), (24, 1048576)]
def logP : Packet := pk 0 0 1 0 [(16, 0x4000), (24, 128), (28, 1)]
def fwImg0 : FwImage := { signed := true, version := 2, svn := 1 }
def stagedS : State := { up with mod := { lifeStarted := true, staged := some fwImg0 } }
theorem witness_ServiceCommandsTakeEffect :
    (∀ c ∈ [frontC 0 0x60 teleP (.hostOk true), frontC 0 0x61 logP (.hostOk true), frontC 0 0x70 (pk 0 0 1 0 [(16, 15)]) (.mask 7), frontC 0 0x71 (pk 0 0 1 0 [(16, 0x4000), (24, 33554432)]) (.fw (some fwImg0))],
      AtFront (frontS up c) c []) ∧
    AtFront (frontS stagedS (frontC 0 0x72 (pk 0 0 1 0 [(16, 2)]) (.activate true true))) (frontC 0 0x72 (pk 0 0 1 0 [(16, 2)]) (.activate true true)) [] ∧
    paramsOk teleP [(16, 14)] ∧ paramsOk logP [(16, 20)] ∧ paramsOk (pk 0 0 1 0 [(16, 15)]) [(16, 1)] ∧ paramsOk (pk 0 0 1 0 [(16, 0x4000), (24, 33554432)]) [(16, 12)] ∧ paramsOk (pk 0 0 1 0 [(16, 2)]) [(16, 2)] ∧
    (teleP.le 16 8 % 64 = 0 ∧ teleP.le 24 4 = 1048576 ∧ teleP.le 28 2 = 0) ∧ (logP.le 24 4 = 128 ∧ ringLevel up 0 = 2) ∧ (pk 0 0 1 0 [(16, 15)]).le 16 1 = 15 ∧
    (up.mod.flashWp = false ∧ imageVerified up fwImg0 = true) ∧ stagedS.mod.staged = some fwImg0 ∧ fwImg0.version.toNat = (pk 0 0 1 0 [(16, 2)]).le 16 2 ∧ stagedS.pair.partner = none := by
  refine ⟨fun c _ => frontS_front rfl (by decide) rfl, frontS_front rfl (by decide) rfl, ?_⟩
  unfold paramsOk; decide +kernel
def group0 (rank : Nat) (st : GroupState) (l : MemberList) : Group :=
  { st := st, part := 0, key := 7, rank := rank, levelsAsked := 7, levelsUsed := 4, list := l, brokenRank := 0xFFFF, joined := 1, waits := [(1, 5)], slowest := 0, slowestNs := 0, tagWaits := [], far := [1], destroying := false,
    cmd := some (2, somePacket), endCmd := none }
def list0 : MemberList := { groupKey := 7, members := 2, levels := 7, rsvd := 0, entries := [⟨ownId, 0, 0, 0, 0⟩, ⟨ownId + 1, 0, 0, 0, 0⟩], crc := 0 }
def imgG : Image := { img0 with collMembers := some 2 }
def groupP : Packet := pk 1 0 5 0 [(16, 3), (17, 7), (18, 2), (20, 0), (24, 0x4000), (32, 7)]
theorem list0_good : listBad 0 imgG groupP list0 = none := by
  have e : groupP.le 20 2 = 0 ∧ groupP.le 17 1 = 7 ∧ groupP.le 18 2 = 2 ∧ groupP.le 32 8 = 7 := by decide +kernel
  simp [listBad, firstBad, list0, imgG, e.1, e.2.1, e.2.2.1, e.2.2.2]
def groupS (g : Group) : State := { up with parts := [(0, { part0 with image := some imgG })], fab := { groups := [(3, g)] } }
theorem witness_GroupCommandsTakeEffect :
    (let c := frontC 2 0x30 groupP (.members (some list0))
     AtFront (frontS (groupS (group0 0 .forming list0)) c) c [] ∧ AtFront (frontS { groupS (group0 0 .forming list0) with fab := {} } c) c []) ∧
    (let c := frontC 2 0x31 (pk 1 0 5 0 [(16, 3)]) .none
     AtFront (frontS (groupS (group0 0 .forming list0)) c) c []) ∧
    listBad 0 imgG groupP list0 = none ∧ (paramsOk groupP [(16, 6), (24, 16)] ∧ groupP.le 16 1 = 3 ∧ groupP.le 17 1 = 7 ∧ groupP.le 18 2 = 2) ∧
    (paramsOk (pk 1 0 5 0 [(16, 3)]) [(16, 1)] ∧ (pk 1 0 5 0 [(16, 3)]).le 16 1 = 3) ∧ tabGet? 3 (groupS (group0 0 .forming list0)).fab.groups = some (group0 0 .forming list0) := by
  refine ⟨⟨frontS_front rfl (by decide) rfl, frontS_front rfl (by decide) rfl⟩, frontS_front rfl (by decide) rfl, list0_good, ?_⟩
  unfold paramsOk
  refine ⟨by decide +kernel, by decide +kernel, rfl⟩
def pairS (y : Pair) : State := { up with pair := y, table := [] }
def bindP : Packet := pk 0 0 1 0 [(16, 77)]
theorem witness_PairCommandsTakeEffect :
    (∀ c ∈ [frontC 0 0x50 bindP (.bind .waiting), frontC 0 0x51 (pk 0 0 1 0 []) .none, frontC 0 0x52 (pk 0 0 1 0 []) .none], AtFront (frontS up c) c []) ∧
    AtFront (frontS (pairS { st := 3, partner := some 77, rank := 1 }) (frontC 0 0x50 bindP (.bind .waiting))) (frontC 0 0x50 bindP (.bind .waiting)) [] ∧ paramsOk (pk 0 0 1 0 []) [] ∧ up.pair.st = 0 ∧
    (let s := pairS { st := 1, bindCmd := some (0, bindP, 77) }
     s.pair.st = 1 ∧ s.pair.bindCmd = some (0, bindP, 77)) ∧ (78 : BitVec 384) ≠ 77 ∧ (pairS { st := 3, partner := some 77, rank := 1 }).pair.partner = some 77 := by
  refine ⟨fun c _ => frontS_front rfl (by decide) rfl, frontS_front rfl (by decide) rfl, ?_⟩
  unfold paramsOk; decide +kernel
/-! ## Hypotheses that can be met: steeps, newts and pours -/

def row0 : Placement := { entry := 0, first := 0, count := 5, pos := 0, head := false, d := 0, dead := false, filled := false, tokens := [] }
def next0 (done : Bool) : Steep :=
  { n := 2, rpt := 128, tiles := [0], rows := [row0], frozen := { heads := [(0, 0, 5)], prompts := [0], cfg := 0 }, marks := [],
    undo := [{ entry := 0, head := false, nextPos := 0, pages := 0, statePages := 0, queued := true, newt := none, delay := 0 }], frozenAt := 0, composed := done, released := 0 }
/-- A parameter block of zero temperature, TOP_P 1 and no stops. -/
def block0 : BitVec 2048 := 0x3F80000000000000
def composing (done : Bool) : Part := { part3 with phase := .none, running := none, next := some (next0 done), hsTable := 0x1000000000000 }
def composeS (done : Bool) (q : Entry) : State := { up with parts := [(0, composing done)], table := [(0, q)] }
def readEntry : Entry := { entry0 .steeping with tokens := [1, 2, 3, 0, 1], block := some block0 }
theorem witness_CompositionReads :
    let s := composeS false (entry0 .steeping)
    (getEntry? s 0 = some (entry0 .steeping) ∧ getPart? s (entryPart (entry0 .steeping)) = some (composing false) ∧ placedOf (composing false) 0 = some row0 ∧ (composing false).image = some img0) ∧
    (tokensDue (entry0 .steeping) row0 = true ∧ mirroring s = false ∧ [1, 2, 3, 0, 1].length = row0.pos + row0.count - (entry0 .steeping).tokens.length ∧ tokensBad (composing false) img0.vocab (entry0 .steeping) [1, 2, 3, 0, 1] = false ∧
      tokensBad (composing false) img0.vocab (entry0 .steeping) [1, 2, 3, 4, 1] = true) ∧
    (blockDue (entry0 .steeping) row0 = true ∧ (entry0 .steeping).f.stopSet.toNat < bits (composing false).hsTable 63 48 ∧ blockOk block0 img0.vocab = true ∧ blockOk 0 img0.vocab = false) ∧
    (let s := composeS false readEntry
     getPart? s 0 = some (composing false) ∧ (composing false).next = some (next0 false) ∧ groupsOf s 0 = [] ∧ getEntry? s 0 = some readEntry ∧ tokensDue readEntry row0 = false ∧ blockDue readEntry row0 = false ∧
     (next0 false).frozenAt + 8000 < now { s with pwr := { timebase := 8001 } } ∧ ¬ (next0 false).frozenAt + 8000 < now { s with pwr := { timebase := 8000 } }) := by decide +kernel
theorem witness_SteepsAreReleased : getPart? (composeS true readEntry) 0 = some (composing true) ∧ (composing true).next = some (next0 true) ∧ (composing true).image = some img0 ∧ groupsOf (composeS true readEntry) 0 = [] ∧
    canRelease (composeS true readEntry) 0 (composing true) (next0 true) = true ∧ 2 ≤ img0.layerMarks.length ∧ (next0 true).tiles.Nodup ∧ img0.entries.getD 0 none = some 0 := by decide +kernel
def newtEntry (st : ReqState) (w : Sample) : Entry := { entry0 st with tokens := [1, 2, 3, 0, 1], block := some block0, samples := [w], newt := some 2, emitted := [1], proposals := [3], roundOut := true }
def newtS (st : ReqState) (w : Sample) : State := { up with parts := [(0, part3)], table := [(0, newtEntry st w)] }
/-- The logit buffer's rows of the image, 128 bytes apart: the first favours token 3, the second token 2. -/
def logitPart : Part := { part3 with mem := writeBytes (writeBytes [] 12 [0, 0, 0x80, 0x3F]) (128 + 8) [0, 0, 0x80, 0x3F] }
def logitS (q : Entry) : State := { up with parts := [(0, logitPart)], table := [(0, q)] }
theorem witness_NewtsSample :
    (∀ w ∈ [Sample.first 0, .round 1 0, .score 0 2 0, .embed 0 2 0], let q := newtEntry .headstart w
      getEntry? (logitS q) 0 = some q ∧ getPart? (logitS q) (entryPart q) = some logitPart ∧ q.samples = [w] ∧ sampleReady q w = true ∧ q.st ≠ .cancelling ∧ creditOk (logitS q) (entryPart q) .newt = true ∧
      creditOk { logitS q with iod := { creditNewt := -1 } } (entryPart q) .newt = false ∧ q.newt = some 2) ∧
    (newtEntry .cancelling (.first 0)).st = .cancelling ∧ logitPart.image = some img0 ∧ checkPassed .retryPass = true ∧ (newtEntry .headstart (.first 0)).block = some block0 ∧ logitPart.phase ≠ .none ∧
    (let rows := (List.range (sampleSpan img0 (.round 1 0)).2.1).map (fun k => memWords logitPart.mem ((sampleSpan img0 (.round 1 0)).1 + k * (4 * max img0.vocab img0.embedDim)) (sampleSpan img0 (.round 1 0)).2.2)
     let q := newtEntry .headstart (.round 1 0)
     rows = [[0, 0, 0, 0x3F800000], [0, 0, 0x3F800000, 0]] ∧ stopCode img0 q.f block0 [BitVec.ofNat 32 (sampleLogits block0 q.f.seed q.f.length.toNat 0 1 (rows.headD []))] = 0 ∧
     (decideRound img0 q.f block0 q.tokens rows q.proposals q.emitted 0).2.1 = 0 ∧ (decideRound img0 q.f block0 q.tokens rows q.proposals q.emitted 0).1 = [1, 3]) ∧
    (∀ k ∈ [1, 2], let q := { newtEntry .pouring (if k = 2 then .score 0 2 0 else .embed 0 2 0) with f := { fields0 with kind := BitVec.ofNat _ k } }
      q.f.kind = BitVec.ofNat _ k ∧ q.st = .pouring) := by decide +kernel
def headRow : Placement := { entry := 0, first := 0, count := 2, pos := 5, head := true, d := 1, dead := false, filled := false, tokens := [] }
def fillEntry : Entry := { newtEntry .headstart (.first 0) with samples := [], proposals := [], roundOut := false }
def fillPart : Part := { part3 with running := some { next0 true with rows := [headRow] } }
def fillS : State := { up with parts := [(0, fillPart)], table := [(0, fillEntry)] }
def lateS : State := { up with parts := [(0, part3)], table := [(0, { fillEntry with f := { fields0 with deadline := 5 } })], pwr := { timebase := 5 } }
theorem witness_HeadStartEvents :
    (getEntry? fillS 0 = some fillEntry ∧ getPart? fillS (entryPart fillEntry) = some fillPart ∧ fillPart.running = some { next0 true with rows := [headRow] } ∧ fillPart.image = some img0 ∧ fillEntry.block = some block0 ∧
      [headRow].find? (fun r => decide (r.entry = 0) && r.head && !r.filled && !r.dead) = some headRow ∧ fillPart.phase ≠ .none ∧ fillEntry.st = .headstart ∧ fillEntry.samples = [] ∧ fillEntry.emitted ≠ [] ∧ creditOk fillS (entryPart fillEntry) .newt = true) ∧
    ((∃ q ∈ fillS.table, q.2.newt = some 2) ∧ fillS.iod.newtsLost.getLsbD 2 = false ∧ setBit fillS.iod.newtsLost 2 true ≠ 0xFF) ∧
    (∃ q, getEntry? lateS 0 = some q ∧ q.f.deadline ≠ 0 ∧ q.f.deadline.toNat ≤ lateS.pwr.timebase.toNat ∧ q.late = none ∧ q.finalPosted = false) :=
  ⟨by decide +kernel, by decide +kernel, { fillEntry with f := { fields0 with deadline := 5 } }, by decide +kernel⟩
def job0 : PourJob := { entry := 0, f := fields0, chunk := 0, first := 0, count := 5, pages := [1], statePages := 0, pinLen := 0, pinPages := [], headstart := false, final := none, wait := false }
def target1 (log : Option (Nat × Nat)) (pos idx : Nat) : Target := { target0 with log := log, pos := pos, recIdx := idx, queue := [job0], crcs := [7] }
def pourPart (t : Target) : Part := { part3 with targets := [(0, t)] }
def pourS (t : Target) (st : ReqState) : State := { up with parts := [(0, pourPart t)], table := [(0, { entry0 st with pages := [1] })], iod := { portsUp := 3 } }
theorem witness_PourRecordsAreWritten :
    (∀ t ∈ [target1 none 0 0, target1 (some (0, 64)) 0 0, target1 (some (0, 1024)) 640 0, target1 (some (0, 1024)) 0 0, target1 (some (0, 1024)) 512 1, { target1 (some (0, 1024)) 512 1 with host := true }],
      getPart? (pourS t .steeping) 0 = some (pourPart t) ∧ tabGet? 0 (pourPart t).targets = some t ∧ (pourPart t).image = some img0 ∧ deviceUp (pourS t .steeping) = true ∧ t.st ≠ .errored ∧ t.rnr = false ∧ t.queue = [job0] ∧
      job0.wait = false ∧ creditOk (pourS t .steeping) 0 .rm = true ∧ creditOk { pourS t .steeping with parts := [(0, { pourPart t with creditRm := -1 })] } 0 .rm = false) ∧
    (let n := fun (t : Target) => (nextRecord part3.mem 0 img0 t job0 []).length
     64 < n (target1 (some (0, 64)) 0 0) ∧ n (target1 (some (0, 1024)) 640 0) ≤ 1024 ∧ 1024 < 640 + padBefore (target1 (some (0, 1024)) 640 0) 1024 (n (target1 (some (0, 1024)) 640 0)) + n (target1 (some (0, 1024)) 640 0) - 0 ∧
     padBefore (target1 (some (0, 1024)) 0 0) 1024 (n (target1 (some (0, 1024)) 0 0)) + n (target1 (some (0, 1024)) 0 0) ≤ 1024 ∧ 0 < (cutChunk img0 0 5).length ∧
     512 + padBefore (target1 (some (0, 1024)) 512 1) 1024 (n (target1 (some (0, 1024)) 512 1)) + n (target1 (some (0, 1024)) 512 1) ≤ 1024 ∧ (cutChunk img0 0 5).length ≤ 1 ∧ part3.phase ≠ .none) := by decide +kernel
def flight0 (commit : Bool) : Flight := { pos := 0, len := 512, entry := 0, chunk := 0, commit := commit, sent := 0 }
/-- A control block: CONSUMED, LOG_OFFSET, LOG_LEN. -/
def block1 (c o l : Nat) : BitVec 512 := BitVec.ofNat 512 (c + o * 2 ^ 64 + l * 2 ^ 128)
def ackTarget : Target := { target0 with pos := 1024, flights := [flight0 false, flight0 true] }
def resultS : State := { pourS target0 .pouring with table := [(0, { entry0 .pouring with f := { fields0 with result := 0x8000000000010000 }, resultDue := true, outBytes := [1, 2, 3, 4] })] }
theorem witness_PourAcknowledgements :
    (let t := { target0 with st := .waiting }
     getPart? (pourS t .pouring) 0 = some (pourPart t) ∧ tabGet? 0 (pourPart t).targets = some t ∧ t.st = .waiting ∧ deviceUp (pourS t .pouring) = true) ∧
    (let t := { target0 with log := none, pos := 0 }
     tabGet? 0 (pourPart t).targets = some t ∧ cbOk (pourPart t) t (block1 0 65536 0x1000000) = true ∧ cbField (block1 0 65536 0x1000000) 0 8 = 0 ∧ cbOk (pourPart t) t (block1 0 65535 0x1000000) = false ∧ t.host = false ∧
     ({ t with host := true } : Target).host = true) ∧
    (tabGet? 0 (pourPart ackTarget).targets = some ackTarget ∧ ackTarget.log ≠ none ∧ cbField (block1 1024 0 0) 0 8 = 1024 ∧ ackTarget.pos < cbField (block1 1088 0 0) 0 8 ∧ cbField (block1 1 0 0) 0 8 % 64 ≠ 0 ∧
      ackTarget.consumed ≤ cbField (block1 1024 0 0) 0 8 ∧ cbField (block1 0 0 0) 0 8 < ({ ackTarget with consumed := 64 } : Target).consumed ∧ ackTarget.flights.find? (·.commit) = some (flight0 true) ∧ (flight0 true).chunk + 1 < 2 ^ 14 ∧ getEntry? (pourS ackTarget .steeping) 0 = some { entry0 .steeping with pages := [1] } ∧ mirroring (pourS ackTarget .steeping) = false) ∧
    (∃ q, getEntry? resultS 0 = some q ∧ getTarget resultS (entryPart q) (resTarget q.f.result) = some target0 ∧ q.resultDue = true ∧ q.st = .pouring ∧ target0.st ≠ .errored ∧ deviceUp resultS = true ∧ target0.host = false) :=
  ⟨by decide +kernel, by decide +kernel, by decide +kernel, { entry0 .pouring with f := { fields0 with result := 0x8000000000010000 }, resultDue := true, outBytes := [1, 2, 3, 4] }, by decide +kernel⟩
def fencedS : State := { up with iod := { portsUp := 1, portsFenced := 2 } }
theorem witness_PourFailures :
    (let t := ackTarget
     getPart? (pourS t .pouring) 0 = some (pourPart t) ∧ tabGet? 0 (pourPart t).targets = some t ∧ t.host = false ∧ t.st ≠ .errored ∧ t.flights ≠ [] ∧ t.tries < 7) ∧
    (let t := { ackTarget with tries := 7, rnr := true }
     7 ≤ t.tries ∧ t.rnr = true ∧ leastLoaded (pourS t .pouring) ((portsFor (pourS t .pouring) t.ports).filter (fun i => !(t.triedPorts ++ [t.port]).contains i && (pourS t .pouring).iod.portsMacsec.getLsbD i = (pourS t .pouring).iod.portsMacsec.getLsbD t.port)) = some 1) ∧
    (fencedS.iod.portsUp.getLsbD 0 = true ∧ (∀ q ∈ fencedS.parts, ∀ r ∈ q.2.targets, r.2.port = 0 → r.2.host = true ∨ r.2.st = .errored) ∧ fencedS.iod.portsFenced.getLsbD 1 = true) := by decide +kernel
/-! ## Hypotheses that can be met: the fabric -/

def linkS (status : Word64) (l : Tab LinkVc) : State :=
  { up with fab := { ports := [(3, { status := status, vcs := l })], epoch := 9, published := true, routeId := 1 } }
def searchS (tables : List (BitVec 64 × Bool × List Neighbour)) (confirms : List (BitVec 64)) : State :=
  { up with fab := { epoch := 9, searching := true, prepared := some 9, tables := tables, confirms := confirms } }
theorem searchS_modules (i : BitVec 64) (h : idKey ownId < idKey i) : tableModules (searchS [(i, false, [])] []) = [ownId, i] ∧ i ≠ ownId := by
  have hne : i ≠ ownId := by rintro rfl; omega
  refine ⟨?_, hne⟩
  simp [tableModules, allTables, searchS, byId, sortBy, insertBy, hne, Nat.le_of_lt h]
/-- With one more module than its own, where that one's ID is the higher; and alone in its domain. -/
theorem witness_SearchMessages :
    (portUp (getPort (linkS 0x8000000000000000 []) 3) = true ∧ laterEpoch 9 (9 : BitVec 16) = false ∧ laterEpoch 10 (9 : BitVec 16) = true ∧ laterEpoch 0x8009 (9 : BitVec 16) = false ∧ (linkS 0x8000000000000000 []).fab.searching = false) ∧
    ((searchS [] []).fab.epoch = 9 ∧ (searchS [] []).fab.prepared = some 9 ∧ (searchS [] []).fab.groups = []) ∧ (ownId + 1 ≠ ownId ∧ (searchS [] []).fab.searching = true) ∧
    (leads (searchS [] []) = true ∧ ownId ∈ tableModules (searchS [] []) ∧ ownId ∉ (searchS [] []).fab.confirms ∧ ∀ m ∈ tableModules (searchS [] []), m ∈ (searchS [] []).fab.confirms ++ [ownId]) ∧
    (∀ i, idKey ownId < idKey i → leads (searchS [(i, false, [])] []) = true ∧ i ∈ tableModules (searchS [(i, false, [])] []) ∧ i ∉ (searchS [(i, false, [])] []).fab.confirms ∧
      ∃ m ∈ tableModules (searchS [(i, false, [])] []), m ∉ (searchS [(i, false, [])] []).fab.confirms ++ [i]) := by
  have h1 : tableModules (searchS [] []) = [ownId] := by simp [tableModules, allTables, searchS, byId, sortBy, insertBy]
  refine ⟨by decide +kernel, ⟨rfl, rfl, rfl⟩, ⟨by simp, rfl⟩, ⟨by simp [leads, h1], by simp [h1], by simp [searchS], by rw [h1]; simp⟩, fun i h => ?_⟩
  obtain ⟨h2, hne⟩ := searchS_modules i h
  exact ⟨by simp [leads, h2], by simp [h2], by simp [searchS], ownId, by simp [h2], by simpa [searchS] using Ne.symm hne⟩
def payload0 : List Byte := []
def head0 (dst vc seq : Nat) : BitVec 128 := Machine.header dst 2 vc 0 0 seq payload0
def vc0 : LinkVc := { nextRecv := 7, unacked := [(head0 2 0 6, payload0)] }
theorem witness_LinkEvents :
    (let s := linkS 0x8C00000000000000 [(0, vc0)]
     portUp (getPort s 3) = true ∧ headerOk (head0 1 0 7) payload0 = true ∧ headerOk (head0 1 0 7 + 1) payload0 = false ∧ bits (head0 1 0 7) 33 32 = 0 ∧ bits (head0 1 0 7) 39 36 ≠ 6 ∧ BitVec.ofNat 32 (bits (head0 1 0 7) 95 64) = (getVc (getPort s 3) 0).nextRecv ∧
     BitVec.ofNat 32 (bits (head0 1 0 8) 95 64) ≠ (getVc (getPort s 3) 0).nextRecv ∧ s.fab.published = true ∧ bits (head0 1 0 7) 15 0 = s.fab.routeId.toNat ∧ (getVc (getPort s 3) 0).unacked ≠ [] ∧
     s.ready = true ∧ portFenced (getPort s 3) = false ∧ portUp (getPort s 4) = false ∧ portFenced (getPort s 4) = false) ∧
    (let s := linkS 0x8CF0000000000000 []
     portUp (getPort s 3) = true ∧ bits (getPort s 3).status 55 52 = 15 ∧ (15 : BitVec 4).getLsbD 2 = true ∧ setBit (15 : BitVec 4) 2 false ≠ 0) := by decide +kernel
def list1 : MemberList := { list0 with entries := [⟨1, 0, 0, 0, 0⟩, ⟨2, 0, 0, 0, 0⟩] }
/-- An image whose tile 0 sends from the region at 132 KiB and receives rank 0's records in the region at 128 KiB. -/
def imgC : Image := { imgG with collRegions := [⟨0, 256, false, 0, 0⟩, ⟨0, 264, true, 0, 0⟩] }
def partC : Part := { part2 with image := some imgC }
def record0 : List Byte := [0, 0, 0, 3, 0, 1, 0, 0, 64] ++ List.replicate 55 0 ++ List.replicate 64 9
def tileC : Tile :=
  { tile0 with map := [mapEnt 1 0 8, mapEnt 2 128 32, mapEnt 4 256 4, mapEnt 4 264 4], circs := [(2, { tailC := 3, tail := 3 }), (3, { tailC := 1, tail := 1 })],
               spad := [(135171, 3), (135173, 1), (135176, 64)] ++ (List.range 64).map (fun i => (135232 + i, 9)) }
def collS (x : Tile) : State := { atTile x with parts := [(0, partC)], fab := { groups := [(3, group0 0 .active list1)] } }
def fullC : Tile := { tileC with circs := [(2, { tailC := 4, tail := 4 }), (3, { tailC := 1, tail := 1 })] }
def claimC (x : Tile) (e : Nat) (w : Bool) : Claim := { entry := e, index := 0, opnd := 0, circ := true, writer := w, remote := true, who := 0, op := x.nextOp, taken := false }
theorem witness_FabricRecords :
    (partOfTile (collS tileC) 0 = some 0 ∧ getPart? (collS tileC) 0 = some partC ∧ partC.image = some imgC ∧ tabGet? (recLE record0 3 1) (collS tileC).fab.groups = some (group0 0 .active list1) ∧
      regionAt (getTile (collS tileC) 0) (recLE record0 4 2) = some 2 ∧ (getTile (collS tileC) 0).map[2]? = some (mapEnt 4 256 4) ∧ partC.phase ≠ .none ∧ recLE record0 0 2 = 0 ∧ recLE record0 2 1 = tileIndex partC 0 ∧
      (∃ r ∈ imgC.collRegions, r.send = false ∧ r.tile = tileIndex partC 0 ∧ r.base.toNat = recLE record0 4 2 ∧ r.srcRank = recLE record0 16 2 ∧ r.srcTile = recLE record0 18 1) ∧
      record0.length = 64 + recLE record0 8 4 ∧ record0.length ≤ entRec (mapEnt 4 256 4) ∧ canClaim (getTile (collS tileC) 0) (claimC tileC 2 true) = true ∧ canClaim (getTile (collS fullC) 0) (claimC fullC 2 true) = false) ∧
    (let x := getTile (collS tileC) 0
     let m := mapEnt 4 264 4
     let a := entBase m + (takeClaim x (claimC tileC 3 false)).2.index % max 1 m.count.toNat * entRec m
     let h := readBytes x.spad a 64
     regionAt x 264 = some 3 ∧ x.map[3]? = some m ∧ (∃ r ∈ imgC.collRegions, r.send = true ∧ r.tile = tileIndex partC 0 ∧ r.base = 264) ∧ canClaim x (claimC tileC 3 false) = true ∧ poisoned x [(a, 64)] = none ∧
     poisoned x [(a, 64 + recLE h 8 4)] = none ∧ recordRefused (collS tileC) 0 (tileIndex partC 0) imgC (entRec m) h = false ∧ recLE h 0 2 = (group0 0 .active list1).rank) ∧
    ((group0 0 .forming list1).st ≠ .active ∧ min 1 list1.members < list1.members ∧ list1.members ≤ 2 ∧ unequalBytes 2 (List.replicate 104 0) = [] ∧ unequalBytes 2 (List.replicate 104 1) ≠ []) := by decide +kernel
def stepS (rank : Nat) (x : Part) : State := { up with parts := [(0, x)], fab := { groups := [(3, group0 rank .active list1)] } }
def betweenC : Part := { partC with phase := .none, running := none }
theorem witness_LockstepMessages :
    getPart? (stepS 0 partC) 0 = some partC ∧ groupsOf (stepS 0 partC) 0 = [(3, group0 0 .active list1)] ∧ (group0 0 .active list1).rank = 0 ∧ 1 < (group0 0 .active list1).list.members ∧ partC.awaitCounts = false ∧
    ({ partC with awaitCounts := true } : Part).awaitCounts = true ∧ (group0 0 .active list1).list.members ≤ (tabInsert 1 5 partC.counts).length + 1 ∧
    (groupsOf (stepS 1 betweenC) 0 = [(3, group0 1 .active list1)] ∧ (group0 1 .active list1).rank ≠ 0 ∧ groupsReady (stepS 1 betweenC) 0 = true ∧ betweenC.phase ≠ .body ∧ 128 ∈ rptChoices 15 ∧ ([] : List RowEntry).length ≤ tileCount betweenC * 128) ∧ partC.phase ≠ .none :=
  ⟨rfl, rfl, rfl, by decide, rfl, rfl, by decide, by decide +kernel, by decide⟩
/-! ## Hypotheses that can be met: the pair -/

def paired0 : Pair := { st := 2, partner := some 77, portsUp := 3, aliveIn := 0 }
theorem witness_PairLiveness :
    ((pairS paired0).pair.partner.isSome = true ∧ (pairS paired0).ready = true ∧ (pairS paired0).pair.selfAsleep = false ∧ (pairS paired0).pair.portsUp.getLsbD 1 = true ∧ (pairS paired0).pair.aliveIn ≠ 2 ∧ (pairS paired0).pair.frozen = false ∧ (pairS paired0).pair.st = 2) ∧
    ((pairS { paired0 with aliveIn := 2 }).pair.aliveIn = 2 ∧ (pairS { paired0 with aliveIn := 2, wireFault := true }).pair.wireFault = true) ∧
    ((let s := pairS { paired0 with window := true, windowEnd := 20, partnerAsleep := true }
      s.pair.window = true ∧ now s < s.pair.windowEnd ∧ s.pair.windowEnd ≤ now { s with pwr := { timebase := 20 } } ∧ s.pair.aliveIn ≠ 2 ∧ s.pair.frozen = false) ∧
     (let s := pairS { paired0 with partnerAsleep := true }
      s.pair.st = 2 ∧ s.pair.partnerAsleep = true ∧ s.pair.aliveIn = 0 ∧ s.pair.window = false) ∧ ({ paired0 with aliveIn := 1 } : Pair).aliveIn ≠ 0) ∧
    ((pairS paired0).pair.window = false ∧ (pairS paired0).pair.partnerAsleep = false ∧ (pairS { paired0 with partnerAsleep := true }).pair.partnerAsleep = true ∧ (pairS { paired0 with partnerAsleep := true }).pair.aliveIn = 0) ∧
    (pairS paired0).pair.st ≠ 3 ∧ a3Ready { pairS paired0 with parts := [] } = true := by decide +kernel
def shadow0 : Shadow := { requests := [], commands := [], rings := [(2, { cfg := 0x8000000008000000, base := 0, int := 0, devCount := 1, hostCount := 1, written := [] })], images := [], pins := [] }
def heldP : Pair := { paired0 with sent := [(4, .unbind)], held := [(4, frontC 2 0x03 pauseP .none)] }
theorem witness_MirroringEvents :
    ((pairS paired0).pair.st = 2 ∧ (pairS paired0).pair.frozen = false ∧ findHandle (pairS paired0) 0 9 = none) ∧
    ((pairS heldP).pair.sent = [(4, .unbind)] ∧ (pairS heldP).pair.held = [(4, frontC 2 0x03 pauseP .none)] ∧ (pairS heldP).pair.configs = [] ∧ (pairS heldP).pair.pairWrites = [] ∧ ∀ q ∈ (pairS heldP).pair.sent, q.1 ≠ 5) ∧
    ((pairS heldP).pair.portsUp.getLsbD 0 = true ∧ (pairS heldP).pair.mirrorPort = 0 ∧ (pairS heldP).pair.portsUp.getLsbD 1 = true) ∧
    ((pairS { paired0 with portsUp := 2 }).pair.portsUp.getLsbD 0 = false ∧ portFenced (getPort (pairS { paired0 with portsUp := 2 }) 16) = false ∧ (pairS { paired0 with portsUp := 2 }).ready = true) ∧
    (pairS { paired0 with st := 3, frozen := true }).pair.frozen = true := by
  refine ⟨by decide +kernel, ⟨rfl, rfl, rfl, rfl, by decide⟩, by decide +kernel, by decide +kernel, rfl⟩
def lastS2 : State := { pairS { paired0 with aliveIn := 2, shadow := shadow0 } with parts := [], rings := [(1, { cfg := 0xC000000000000000 })] }
theorem witness_LeapfrogAnnouncesItself :
    lastS2.pair.st = 2 ∧ lastS2.pair.selfAsleep = false ∧ lastS2.pair.frozen = false ∧ lastS2.pair.aliveIn = 2 ∧ lastS2.pair.wireFault = false ∧ lastS2.pair.partner = some 77 ∧ lastS2.pair.shadow.requests = [] ∧ lastS2.pair.shadow.commands = [] ∧
    lastS2.pair.held = [] ∧ lastS2.pair.configs = [] ∧ lastS2.pair.pairWrites = [] ∧ lastS2.parts = [] ∧ lastS2.pair.window = false := ⟨rfl, rfl, rfl, rfl, rfl, rfl, rfl, rfl, rfl, rfl, rfl, rfl, rfl⟩
/-! ## Hypotheses that can be met: faults, power, sideband and resets -/

def modS (y : Mod) : State := { up with mod := y }
def pwrS (w : Power) (x : Part) : State := { up with parts := [(0, x)], table := [], pwr := w }
theorem witness_ModuleFaults :
    (up.mod.lifeStarted = true ∧ up.mod.stopped = none ∧ up.ready = true ∧ 1 < up.mod.cores ∧ (modS { lifeStarted := true, cores := 1 }).mod.cores = 1) ∧ up.iod.waysOff.getLsbD 3 = false ∧ onesOf up.iod.lost < 2 ∧
    (let old : List (Bool × Nat) := [(true, 5), (false, 5)]
     2 ≤ ((old ++ [(true, 9)]).filter (fun q : Bool × Nat => q.1)).length ∧ ¬ 2 ≤ (old.filter (fun q => q.1)).length ∧ ¬ 64 ≤ (old.filter (fun q => !q.1)).length) ∧ stripes - 1 + 1 = stripes ∧ stripes - 1 < stripes ∧ onesOf (3 : BitVec 32) = 2 ∧
    (up.iod.lost.getLsbD 5 = false ∧ onesOf (setBit up.iod.lost 5 true) < 3 ∧ 3 ≤ onesOf (setBit (3 : BitVec 32) 5 true) ∧ (3 : BitVec 32).getLsbD 5 = false) := by decide +kernel
theorem witness_PowerResponses :
    (up.ready = true ∧ up.pwr.dev < 3 ∧ up.pwr.capCmds = [] ∧ up.pwr.hot = false ∧ up.pwr.capW.toNat = 2600 ∧ up.pwr.dieHot = false) ∧
    (2600 < 2700 ∧ 0 + max 1 (ceilDiv (64 * (2700 - 2600)) 2700) ≤ 16 ∧ 16 < 15 + max 1 (ceilDiv (64 * (2700 - 2600)) 2700)) ∧ (97 * 2600 ≤ 100 * 2600 ∧ 100 * 2000 < 97 * 2600) ∧
    (up.mod.ilimit = false ∧ (modS { lifeStarted := true, ilimit := true }).mod.ilimit = true ∧ (modS { lifeStarted := true, ilimit := true }).mod.lifeStarted = true ∧ (modS { lifeStarted := true, ilimit := true }).mod.stopped = none) := by decide +kernel
/-- The limits of each range: 104, 100, 97 and 96 degrees of a die; 30, 38, 42, 60, 62 and 80 V of the supply. -/
theorem witness_SensorsAndSupplies :
    (up.mod.stopped = none ∧ up.mod.leakShutdown = false ∧ [104, 96].foldl max 0 = 104 ∧ [96].foldl max 0 = 96) ∧ (80000 < (80001 : Int) ∧ (-60001 : Int) < -60000 ∧ (-60000 : Int) ≤ 29999 ∧ (29999 : Int) < 30000 ∧ (30000 : Int) < 38000 ∧ (62000 : Int) < 80000) ∧
    (up.pwr.dev < 4 ∧ up.mod.lifeStarted = true) ∧ (modS { stopped := some 0x09, restartOk := false }).mod.stopped = some 0x09 ∧ (modS { leakShutdown := true }).mod.leakShutdown = true := by decide +kernel
def idleW : Power := { tolUs := 50000, timebase := 100000000000, pmeDone := true }
def idleX (n : Nat) : Part := { part4 with tolUs := 50000, pstate := n }
def asleepS (dev : Nat) : State := { pwrS { idleW with dev := dev } (idleX 2) with out := [] }
theorem witness_PowerStates :
    (∀ n < 3, getPart? (pwrS idleW (idleX n)) 0 = some (idleX n) ∧ deviceUp (pwrS idleW (idleX n)) = true ∧ (idleX n).waking = none ∧ partIdle (pwrS idleW (idleX n)) 0 (idleX n) = true ∧ 2 ≤ tolPart (pwrS idleW (idleX n)) (idleX n)) ∧
    tolPart (pwrS idleW { idleX 0 with tolUs := 1 }) { idleX 0 with tolUs := 1 } < 2 ∧ 8 * offIf (pwrS idleW (idleX 1)) 0 + 4 ≤ tolPart (pwrS idleW (idleX 1)) (idleX 1) ∧ (∀ q ∈ (pwrS idleW (idleX 1)).parts, q.2.pstate ≠ 2) ∧
    (partIdle (pwrS idleW { part3 with pstate := 1 }) 0 { part3 with pstate := 1 } = false ∧ (pwrS idleW { part3 with pstate := 1 }).pwr.tolCmds = []) ∧
    ((asleepS 0).pwr.dev = 0 ∧ a3Ready (asleepS 0) = true ∧ 40000 ≤ tolDevice (asleepS 0) ∧ sleepDone (asleepS 0) = true ∧ sleepDone { asleepS 0 with pair := { st := 2 } } = false ∧ a3Ready { asleepS 0 with pair := { st := 2 } } = true ∧ a3Ready up = false) ∧
    ((asleepS 3).pwr.dev = 3 ∧ a4Ready (asleepS 3) = true ∧ 40000 ≤ tolDevice (asleepS 3) ∧ wakeMasked (asleepS 3) 2 = false) ∧
    ((pwrS { switches := [3, 5] } part0).pwr.switches = [3, 5] ∧ ∀ q ∈ (pwrS { switches := [3, 5] } part0).parts, q.2.waking = none) ∧
    (let s := pwrS { alarms := [(0, 0x8000000000000005), (1, 0x8000000000000006)], tick := 5 } part0
     bit (tabGetD s.pwr.alarms (0 : Fin 4) 0) 63 = true ∧ bits (tabGetD s.pwr.alarms (0 : Fin 4) 0) 47 0 ≤ s.pwr.tick.toNat % 2 ^ 48 ∧ bit (tabGetD s.pwr.alarms (0 : Fin 4) 0) 62 = false ∧ bit (tabGetD s.pwr.alarms (1 : Fin 4) 0) 63 = true ∧
     s.pwr.tick.toNat % 2 ^ 48 < bits (tabGetD s.pwr.alarms (1 : Fin 4) 0) 47 0) := by decide +kernel
def startCfg0 : StartCfg :=
  { slotId := 1, flashWp := false, slotOk := true, otherOk := true, sealOk := true, badTiles := [], lostPkgs := 0, networksOk := true, newtsLost := 0, cores := 4, comparatorsOk := true, portsUp := 15, portsMacsec := 0, refclk := true,
    perstHigh := true, fabUp := 0 }
def recoveryS : State := modS { recovery := true, waitStart := some (3, startCfg0) }
theorem witness_SidebandEvents :
    (up.mod.pinFaults.getLsbD 20 = false ∧ tabGet? 20 up.mod.pinClear = none ∧ up.log.length < 65536 ∧ (modS { pinFaults := setBit 0 20 true }).mod.pinFaults.getLsbD 20 = true) ∧ (∃ pin, testPins[up.mod.testPin]? = some pin) ∧
    (∃ pin : Fin 21, pin.val ∈ readbackPins) ∧ (∃ pin : Fin 21, pin.val ∉ readbackPins) ∧ (pwrS { wakeIn := true } part0).pwr.wakeIn = true ∧
    (up.mod.lifeStarted = true ∧ up.mod.recovery = false ∧ up.pwr.dev < 4 ∧ measured up 1 = true ∧ measured up 0 = false ∧ up.mod.sessions < 4 ∧ 4 ≤ (modS { lifeStarted := true, sessions := 4 }).mod.sessions) ∧
    (recoveryS.mod.recovery = true ∧ recoveryS.mod.waitStart = some (3, startCfg0) ∧ recoveryS.mod.flashWp = false ∧ imageVerified recoveryS fwImg0 = true) := by
  refine ⟨by decide +kernel, ⟨_, rfl⟩, by decide +kernel, by decide +kernel, rfl, by decide +kernel, by decide +kernel⟩
def training0 (crossed : Bool) (lanes : BitVec 8) : Training := { inverted := 0, reversed := false, permuted := false, crossed := crossed, openTx := 0, openRx := 0, lanesOk := lanes }
theorem witness_StartUpAndResets :
    (startCfg0.slotOk = true ∧ startCfg0.networksOk = true ∧ startCfg0.badTiles = [] ∧ startCfg0.newtsLost = 0 ∧ startCfg0.cores ≠ 0 ∧ startCfg0.lostPkgs = 0 ∧ startCfg0.comparatorsOk = true ∧ startCfg0.sealOk = true) ∧
    (powered State.reset = false ∧ State.reset.pwr.leakNow = false ∧ State.reset.pwr.vinOut = false ∧ State.reset.mod.restartOk = true) ∧
    (powered up = true ∧ up.pwr.leakNow = false ∧ up.pwr.vinOut = false ∧ up.pwr.dieHot = false ∧ up.mod.restartOk = true ∧ onesOf up.iod.lost < 3 ∧ up.iod.newtsLost ≠ 0xFF) ∧
    (let s := { asleepS 5 with saved := {} }
     s.pwr.dev = 5 ∧ s.mod.leakShutdown = false ∧ s.pwr.leakNow = false ∧ s.pwr.vinOut = false ∧ s.pwr.dieHot = false ∧ s.mod.restartOk = true ∧ onesOf s.iod.lost < 3 ∧ s.iod.newtsLost ≠ 0xFF) ∧
    (let s := { asleepS 4 with saved := { valid := true } }
     s.pwr.dev = 4 ∧ s.saved.valid = true ∧ s.saved.parts = [] ∧ onesOf s.iod.lost < 3 ∧ s.iod.newtsLost ≠ 0xFF) ∧
    (let s := { up with ready := false }
     s.ready = false ∧ s.mod.stopped = none ∧ powered s = true ∧ s.pwr.dev < 4) ∧
    (({ up with parts := [] } : State).ready = true ∧ (getRing { up with rings := [(2, { count := 5 })] } 2).count ≠ 0) ∧
    (portUp (getPort up 3) = false ∧ portFenced (getPort up 3) = false ∧ (getPort up 3).changes = [] ∧ (training0 true 15).crossed = true ∧ (training0 false 1).lanesOk &&& 0xF ≠ 0) ∧
    (up.iod.portsUp.getLsbD 2 = false ∧ up.iod.portsFenced.getLsbD 2 = false ∧ (training0 false 0xFF).lanesOk = 0xFF ∧ (training0 false 0x7F).lanesOk ≠ 0xFF) := by decide +kernel
/-! ## Results worked out by hand from the rules -/

/-- s[2] after a scalar instruction on s[1] = a with the immediate. -/
def scalarResult (i : Instr) (a : Word64) : Word64 := readS (ctxOf (after (exec i (regs [(1, a)]))) 0 0) 2
def immW (imm : Nat) : BitVec 120 := fields [(8, 2), (13, 1), (23, 1), (64, imm)]
theorem test_sadd_wraps : scalarResult (.sadd 0 0 (immW 2)) 0xFFFFFFFFFFFFFFFF = 1 := by decide +kernel
theorem test_ssub_wraps : scalarResult (.ssub 0 0 (immW 3)) 1 = 0xFFFFFFFFFFFFFFFE := by decide +kernel
theorem test_sshr_keeps_the_sign : scalarResult (.sshr 0 0 (immW 65)) 0xFFFFFFFFFFFFFFF8 = 0xFFFFFFFFFFFFFFFC := by decide +kernel
theorem test_sshrl_shifts_in_zeros : scalarResult (.sshrl 0 0 (immW 4)) 0xF000000000000000 = 0x0F00000000000000 := by decide +kernel
theorem test_smin_is_signed : scalarResult (.smin 0 0 (immW 1)) 0xFFFFFFFFFFFFFFFF = 0xFFFFFFFFFFFFFFFF := by decide +kernel
theorem test_smax_is_signed : scalarResult (.smax 0 0 (immW 1)) 0xFFFFFFFFFFFFFFFF = 1 := by decide +kernel
/-- The check value of CRC-32C, for the digits 1 to 9. -/
theorem test_crc32c : crc32c [0x31, 0x32, 0x33, 0x34, 0x35, 0x36, 0x37, 0x38, 0x39] = 0xE3069283 := by decide +kernel
theorem test_fadd_ties_to_even : fadd 0x3F800000 0x33800000 = 0x3F800000 ∧ fadd 0x3F800001 0x33800000 = 0x3F800002 := by decide +kernel
theorem test_fmul_overflows : fmul 0x7F000000 0x40000000 = 0x7F800000 := by decide +kernel
theorem test_fadd_cancels_to_plus_zero : fadd 0x3F800000 0xBF800000 = 0 := by decide +kernel
/-- A free TAIL behind HEAD: the ring takes the doorbell and the device has 31 more entries to read. -/
theorem test_doorbell_moves_tail : (getRing (after (exec (.doorbellWrite 1 0 0x0F 63) winS)) 2).tail = 63 := by decide +kernel
theorem test_doorbell_past_the_ring_is_dropped : (getRing (after (exec (.doorbellWrite 1 0 0x0F 64) winS)) 2).tail = 32 := by decide +kernel
theorem test_later_epoch_wraps : laterEpoch 1 0xFFFF = true ∧ laterEpoch 0xFFFF 1 = false := by decide +kernel
theorem test_power_on_reads_ready : (after (exec (.powerOn startCfg0) State.reset)).resetCause = 0x01 ∧ (after (exec (.powerOn startCfg0) State.reset)).ready = true := by decide +kernel
/-- The S-box and the column mixing of R431's cipher, on values of FIPS 197 and its published column vectors. -/
theorem test_aes_sbox : aesSbox 0x53 = 0xED ∧ aesUnsbox 0xED = 0x53 := by decide +kernel
theorem test_aes_mix : mixWith [2, 3, 1, 1] [0xDB, 0x13, 0x53, 0x45, 0xF2, 0x0A, 0x22, 0x5C, 1, 1, 1, 1, 0xC6, 0xC6, 0xC6, 0xC6] =
    [0x8E, 0x4D, 0xA1, 0xBC, 0x9F, 0xDC, 0x58, 0x9D, 1, 1, 1, 1, 0xC6, 0xC6, 0xC6, 0xC6] := by decide +kernel
/-- The granule of R431's example, and R365's sum of six members. -/
theorem test_granule_place : stripeOf 1221679586 = 40722652 ∧ posOf 1221679586 = 26 ∧ packageOf 1221679586 = 20 := by decide
theorem test_collective_tree : collectiveF32 [0x3F800000, 0x4B800000, 0x3F800000, 0xCB800000, 0x3F000000, 0x3E800000] = 0x3FE00000 := by decide +kernel
/-- R200: two lost bytes of a lane come back from the two parities. -/
theorem test_two_lost_bytes_return :
    let d := List.range 30
    let q := rsParity d
    rsRestore (((d.map some).set 3 none).set 29 none) (some q.1) (some q.2) = some d ∧ rsRestore (((d.map some).set 3 none).set 29 none) (some q.1) none = none := by decide +kernel
theorem test_unknown_word : decodeTableWord 128 0 = none := by decide
/-- Numbers of each clause: the largest finite number, whose double is past the limit and whose sum with 0 is not, a tie, a NaN and both infinities. -/
theorem witness_ExtendedAddition :
    (f32Finite 0x7F7FFFFF = true ∧ f32Finite 0 = true ∧ ¬ (f32Units 0x7F7FFFFF + f32Units 0x7F7FFFFF).natAbs < 2 ^ 277 - 2 ^ 252 ∧
      (f32Units 0x7F7FFFFF + f32Units 0).natAbs < 2 ^ 277 - 2 ^ 252) ∧
    (f32Finite 0x3F800000 = true ∧ f32Finite 0x33800000 = true ∧ f32Finite 0x3F800001 = true ∧ f32Units 0x3F800001 ≠ f32Units 0x3F800000 ∧
      (f32Units 0x3F800000 - (f32Units 0x3F800000 + f32Units 0x33800000)).natAbs = (f32Units 0x3F800001 - (f32Units 0x3F800000 + f32Units 0x33800000)).natAbs) ∧
    isNan 0x7F800001 = true ∧ isInf 0x7F800000 = true ∧ isInf 0xFF800000 = true ∧ f32Finite 0x7F7FFFFF = true ∧ f32Finite 0x7F800000 = false := by decide +kernel
end Sys2Proof.Tests
end

section
/-! SUPPORT. The numbers family: exact values under a finer unit, what rounding to nearest even does to an integer, FP32
magnitudes in units of 2^(-149), and the statements about them. -/

namespace Sys2Proof.Machine

open Sys2Proof

/-! ## Exact values in a unit -/

theorem scaled_eq_sign_mul (neg : Bool) (m : Nat) (e e0 : Int) :
    scaled neg m e e0 = (if neg then -1 else 1) * (m : Int) * 2 ^ (e - e0).toNat := by
  cases neg <;> simp [scaled]

theorem scaled_not (neg : Bool) (m : Nat) (e e0 : Int) : scaled (!neg) m e e0 = -scaled neg m e e0 := by
  cases neg <;> simp [scaled]

/-- The integer of a sign and a magnitude. -/
def withSign (neg : Bool) (n : Nat) : Int := if neg then -(n : Int) else n

@[simp] theorem natAbs_withSign (neg : Bool) (n : Nat) : (withSign neg n).natAbs = n := by cases neg <;> simp [withSign]

theorem withSign_mul (neg : Bool) (n d : Nat) : withSign neg (n * d) = d * withSign neg n := by
  cases neg <;> simp [withSign, mul_comm]

theorem withSign_neg_iff (neg : Bool) {n : Nat} (hn : 0 < n) : withSign neg n < 0 ↔ neg = true := by
  cases neg <;> simp [withSign, hn]

theorem withSign_decide_natAbs (v : Int) : withSign (decide (v < 0)) v.natAbs = v := by
  simp only [withSign, decide_eq_true_eq]
  split <;> omega

theorem scaled_eq_withSign (neg : Bool) (m : Nat) (e e0 : Int) : scaled neg m e e0 = withSign neg (m * 2 ^ (e - e0).toNat) := by
  simp [scaled, withSign]

@[simp] theorem scaled_self (neg : Bool) (m : Nat) (e : Int) : scaled neg m e e = withSign neg m := by
  simp [scaled_eq_withSign]

theorem scaled_lower_unit {e e1 e0 : Int} (h0 : e0 ≤ e1) (h1 : e1 ≤ e) (neg : Bool) (m : Nat) :
    scaled neg m e e0 = scaled neg m e e1 * 2 ^ (e1 - e0).toNat := by
  have hexp : (e - e0).toNat = (e - e1).toNat + (e1 - e0).toNat := by omega
  rw [scaled_eq_sign_mul, scaled_eq_sign_mul, hexp, pow_add, mul_assoc _ (2 ^ _) (2 ^ _)]

/-- A finite sum is exact in any unit that divides both terms (R32). -/
theorem add_fin_scaled {e1 e2 u : Int} (h1 : u ≤ e1) (h2 : u ≤ e2) (n1 n2 : Bool) (m1 m2 : Nat) :
    ∃ n m e, Num.add (.fin n1 m1 e1) (.fin n2 m2 e2) = .fin n m e ∧ u ≤ e ∧
      scaled n m e u = scaled n1 m1 e1 u + scaled n2 m2 e2 u := by
  have hu : u ≤ min e1 e2 := le_min h1 h2
  rw [scaled_lower_unit hu (min_le_left e1 e2), scaled_lower_unit hu (min_le_right e1 e2), ← add_mul]
  simp only [Num.add]
  split
  · next hs => exact ⟨_, _, _, rfl, hu, by rw [hs]; simp [scaled]⟩
  · refine ⟨_, _, _, rfl, hu, ?_⟩
    rw [scaled_lower_unit hu le_rfl, scaled_self, withSign_decide_natAbs]

/-- No finite encoding has an exponent below that of the subnormals (R22). -/
theorem exp_ge_of_decode_fin {f : FFmt} {x : Nat} {neg : Bool} {m : Nat} {e : Int} (h : f.decode x = .fin neg m e) :
    1 - (f.bias : Int) - f.mb ≤ e := by
  simp only [FFmt.decode] at h
  split at h
  · split at h <;> cases h
  · split at h
    · cases h
    · split at h <;> cases h <;> omega

/-! ## Element integers -/

theorem elemInt_eq_scaled {code x : Nat} {neg : Bool} {m : Nat} {e : Int} (h : elemNum code x = .fin neg m e) :
    unitExp code ≤ e ∧ elemInt code x = scaled neg m e (unitExp code) := by
  by_cases hc : code = 5
  · subst hc
    simp only [elemNum, if_pos] at h
    cases h
    refine ⟨by decide, ?_⟩
    simp only [elemInt, unitExp, if_pos, scaled_self, withSign_decide_natAbs]
  · simp only [elemNum, if_neg hc] at h
    exact ⟨by simpa only [unitExp, if_neg hc] using exp_ge_of_decode_fin h, by simp only [elemInt, if_neg hc, h]⟩

/-- Settles O59: the rows of R26 by evaluating every encoding, the element integer by `elemInt_eq_scaled`. -/
theorem elementIntegersAndUnitExponents : Obligations.ElementIntegersAndUnitExponents := by
  unfold Obligations.ElementIntegersAndUnitExponents
  intro q hq
  obtain ⟨hu, hlog, hmax, hle⟩ : unitExp q.1.1 = q.1.2 ∧ Nat.log2 q.2.1 + 1 = q.2.2 ∧
      (∃ x, x < 2 ^ elemBits q.1.1 ∧ (elemInt q.1.1 x).natAbs = q.2.1) ∧
      ∀ x, x < 2 ^ elemBits q.1.1 → (elemInt q.1.1 x).natAbs ≤ q.2.1 := by
    revert q
    decide +kernel
  refine ⟨hu, hlog, hmax, fun x hx => ⟨hle x hx, fun neg m e hfin => ?_⟩⟩
  rw [← hu, ← scaled_eq_sign_mul]
  exact elemInt_eq_scaled hfin

/-! ## Rounding to nearest, ties to even -/

/-- `step * σ` is at most half a step away from `v`, and exactly half a step only with σ even. -/
structure RoundsTo (step σ v : Int) : Prop where
  half : 2 * (step * σ - v).natAbs ≤ step
  even : 2 * ((step * σ - v).natAbs : Int) = step → 2 ∣ σ

theorem RoundsTo.neg {step σ v : Int} (h : RoundsTo step σ v) : RoundsTo step (-σ) (-v) := by
  have hd : (step * -σ - -v).natAbs = (step * σ - v).natAbs := by rw [mul_neg, ← Int.natAbs_neg]; congr 1; ring
  exact ⟨hd ▸ h.half, fun he => (h.even (hd ▸ he)).neg_right⟩

/-- Of the multiples of the step the rounded one is nearest. -/
theorem RoundsTo.nearest_multiple {step σ v : Int} (h : RoundsTo step σ v) (j : Int) :
    (step * σ - v).natAbs ≤ (step * j - v).natAbs ∧
      ((step * σ - v).natAbs = (step * j - v).natAbs → step * j ≠ step * σ → 2 ∣ σ) := by
  by_cases hj : j = σ
  · subst hj; exact ⟨le_rfl, fun _ hne => absurd rfl hne⟩
  obtain ⟨hhalf, heven⟩ := h
  have hgap : step ≤ (step * j - step * σ).natAbs := by
    rw [Int.natCast_natAbs, ← mul_sub, abs_mul, abs_of_nonneg (a := step) (by omega)]
    exact le_mul_of_one_le_right (by omega) (Int.one_le_abs (sub_ne_zero.mpr hj))
  exact ⟨by omega, fun heq _ => heven (by omega)⟩

theorem rneShift_eq (v k : Nat) : rneShift v k =
    if 2 ^ k < 2 * (v % 2 ^ k) ∨ (2 * (v % 2 ^ k) = 2 ^ k ∧ v / 2 ^ k % 2 = 1) then v / 2 ^ k + 1 else v / 2 ^ k := by
  have hrem : v - v / 2 ^ k * 2 ^ k = v % 2 ^ k := by rw [Nat.mod_def, Nat.mul_comm]
  by_cases hk : k = 0
  · subst hk; simp [rneShift, Nat.mod_one]
  · simp only [rneShift, if_neg hk, Nat.shiftRight_eq_div_pow, Nat.shiftLeft_eq, hrem, gt_iff_lt]

theorem roundsTo_rneShift (v k : Nat) : RoundsTo (2 ^ k) (rneShift v k) v := by
  have hlt := Nat.mod_lt v (Nat.two_pow_pos k)
  have hv : ((2 ^ k : Nat) : Int) * (v / 2 ^ k : Nat) + (v % 2 ^ k : Nat) = v := by exact_mod_cast Nat.div_add_mod v (2 ^ k)
  have hcast : ((2 ^ k : Nat) : Int) = 2 ^ k := by norm_cast
  rw [rneShift_eq, ← hcast]
  generalize v / 2 ^ k = w at *
  generalize v % 2 ^ k = r at *
  generalize 2 ^ k = d at *
  split
  · have hup : (d : Int) * ((w + 1 : Nat) : Int) - v = d - r := by rw [← hv]; push_cast; ring
    exact ⟨by omega, by omega⟩
  · have hdown : (d : Int) * (w : Int) - v = -r := by rw [← hv]; ring
    exact ⟨by omega, by omega⟩

theorem roundsTo_withSign (neg : Bool) (n k : Nat) : RoundsTo (2 ^ k) (withSign neg (rneShift n k)) (withSign neg n) := by
  cases neg
  · exact roundsTo_rneShift n k
  · exact (roundsTo_rneShift n k).neg

/-- The rounded quotient does not depend on the unit in which the number is held. -/
theorem rneShift_mul_pow (m j k : Nat) : rneShift (m * 2 ^ j) (k + j) = rneShift m k := by
  have hd : m * 2 ^ j / 2 ^ (k + j) = m / 2 ^ k := by rw [pow_add, Nat.mul_div_mul_right _ _ (Nat.two_pow_pos j)]
  have hr : m * 2 ^ j % 2 ^ (k + j) = m % 2 ^ k * 2 ^ j := by rw [pow_add, Nat.mul_mod_mul_right]
  have hlt : ∀ a b, a * 2 ^ j < b * 2 ^ j ↔ a < b := fun a b => Nat.mul_lt_mul_right (Nat.two_pow_pos j)
  have heq : ∀ a b, a * 2 ^ j = b * 2 ^ j ↔ a = b := fun a b => Nat.mul_left_inj (Nat.two_pow_pos j).ne'
  simp only [rneShift_eq, hd, hr]
  simp only [← mul_assoc, pow_add, hlt, heq]

theorem rneShift_mul_pow_exact (m j k : Nat) : rneShift (m * 2 ^ (j + k)) k = m * 2 ^ j := by
  have h := rneShift_mul_pow (m * 2 ^ j) k 0
  rwa [Nat.zero_add, mul_assoc, ← pow_add] at h

/-- The bounds between which a rounded quotient lies. -/
theorem le_rneShift {a n k : Nat} (h : a * 2 ^ k ≤ n) : a ≤ rneShift n k := by
  have hd : a ≤ n / 2 ^ k := (Nat.le_div_iff_mul_le (Nat.two_pow_pos k)).mpr h
  rw [rneShift_eq]
  split <;> omega

theorem rneShift_le {a n k : Nat} (h : n < a * 2 ^ k) : rneShift n k ≤ a := by
  have hd : n / 2 ^ k < a := (Nat.div_lt_iff_lt_mul (Nat.two_pow_pos k)).mpr h
  rw [rneShift_eq]
  split <;> omega

/-! ## FP32 magnitudes -/

/-- The value of the low 31 bits of a finite FP32 number in units of 2^(-149) (R22). -/
def f32MagUnits (y : Nat) : Nat := if y / 2 ^ 23 = 0 then y else (2 ^ 23 + y % 2 ^ 23) * 2 ^ (y / 2 ^ 23 - 1)

/-- The low 31 bits of `n` units of 2^(-149) rounded to FP32, as if its exponent had no upper bound. -/
def f32RoundMag (n : Nat) : Nat := (Nat.log2 n - 23) * 2 ^ 23 + rneShift n (Nat.log2 n - 23)

/-- The FP32 word of a sign and the low 31 bits. -/
def f32Word (neg : Bool) (y : Nat) : Word32 := BitVec.ofNat 32 ((if neg then 2 ^ 31 else 0) + y)

/-- A significand of at most 24 bits (2^24 carries into the exponent) after the field of its exponent. -/
theorem f32MagUnits_field_add {k σ : Nat} (hlow : 2 ^ 23 ≤ σ ∨ k = 0) (hhigh : σ ≤ 2 ^ 24) :
    f32MagUnits (k * 2 ^ 23 + σ) = σ * 2 ^ k := by
  unfold f32MagUnits
  rcases Nat.lt_or_ge σ (2 ^ 23) with hlt | hge
  · obtain rfl : k = 0 := by omega
    rw [if_pos (by omega)]; simp
  · rw [if_neg (by omega)]
    rcases Nat.lt_or_ge σ (2 ^ 24) with hlt | hge
    · have hdiv : (k * 2 ^ 23 + σ) / 2 ^ 23 - 1 = k := by omega
      have hmod : 2 ^ 23 + (k * 2 ^ 23 + σ) % 2 ^ 23 = σ := by omega
      rw [hdiv, hmod]
    · obtain rfl : σ = 2 ^ 24 := by omega
      have hdiv : (k * 2 ^ 23 + 2 ^ 24) / 2 ^ 23 - 1 = k + 1 := by omega
      have hmod : (k * 2 ^ 23 + 2 ^ 24) % 2 ^ 23 = 0 := by omega
      rw [hdiv, hmod]
      ring

/-- A magnitude is a multiple of the last place of the binade 2^(23 + k), or lies below that binade. -/
theorem dvd_f32MagUnits_or_lt (k y : Nat) : 2 ^ k ∣ f32MagUnits y ∨ f32MagUnits y < 2 ^ (23 + k) := by
  unfold f32MagUnits
  have hmod : y % 2 ^ 23 < 2 ^ 23 := Nat.mod_lt _ (Nat.two_pow_pos 23)
  split
  · right
    calc y < 2 ^ 23 := by omega
      _ ≤ 2 ^ (23 + k) := Nat.pow_le_pow_right (by omega) (by omega)
  · rcases Nat.lt_or_ge (y / 2 ^ 23 - 1) k with hlt | hge
    · right
      calc (2 ^ 23 + y % 2 ^ 23) * 2 ^ (y / 2 ^ 23 - 1) < 2 ^ 24 * 2 ^ (y / 2 ^ 23 - 1) :=
            Nat.mul_lt_mul_of_pos_right (by omega) (Nat.two_pow_pos _)
        _ = 2 ^ (23 + (y / 2 ^ 23 - 1 + 1)) := by ring
        _ ≤ 2 ^ (23 + k) := Nat.pow_le_pow_right (by omega) (by omega)
    · exact .inl (Dvd.dvd.mul_left (pow_dvd_pow 2 hge) _)

theorem lt_pow_mul_pow_log2 (n : Nat) : n < 2 ^ 24 * 2 ^ (Nat.log2 n - 23) :=
  calc n < 2 ^ (Nat.log2 n + 1) := Nat.lt_log2_self
    _ ≤ 2 ^ (24 + (Nat.log2 n - 23)) := Nat.pow_le_pow_right (by omega) (by omega)
    _ = 2 ^ 24 * 2 ^ (Nat.log2 n - 23) := pow_add ..

theorem rneShift_log2_le (n : Nat) : rneShift n (Nat.log2 n - 23) ≤ 2 ^ 24 := rneShift_le (lt_pow_mul_pow_log2 n)

theorem pow_mul_pow_log2_le {n : Nat} (h : Nat.log2 n - 23 ≠ 0) : 2 ^ 23 * 2 ^ (Nat.log2 n - 23) ≤ n := by
  have hn : n ≠ 0 := by rintro rfl; simp at h
  rw [← pow_add, show 23 + (Nat.log2 n - 23) = Nat.log2 n by omega]
  exact Nat.log2_self_le hn

theorem le_rneShift_log2 {n : Nat} (h : Nat.log2 n - 23 ≠ 0) : 2 ^ 23 ≤ rneShift n (Nat.log2 n - 23) :=
  le_rneShift (pow_mul_pow_log2_le h)

theorem f32MagUnits_roundMag (n : Nat) :
    f32MagUnits (f32RoundMag n) = rneShift n (Nat.log2 n - 23) * 2 ^ (Nat.log2 n - 23) :=
  f32MagUnits_field_add ((em' _).imp_left le_rneShift_log2) (rneShift_log2_le n)

theorem f32RoundMag_mod_two (n : Nat) : f32RoundMag n % 2 = rneShift n (Nat.log2 n - 23) % 2 := by
  unfold f32RoundMag; omega

/-- The rounded magnitude is finite just below the largest finite value plus half its last place (R37). -/
theorem f32RoundMag_lt_iff (n : Nat) : f32RoundMag n < 255 * 2 ^ 23 ↔ n < 2 ^ 277 - 2 ^ 252 := by
  have hround := roundsTo_rneShift n (Nat.log2 n - 23)
  have hle := rneShift_log2_le n
  have hlow := @le_rneShift_log2 n
  have hlt := lt_pow_mul_pow_log2 n
  unfold f32RoundMag
  rcases Nat.lt_trichotomy (Nat.log2 n - 23) 253 with hk | hk | hk
  · have : 2 ^ (Nat.log2 n - 23) ≤ 2 ^ 252 := Nat.pow_le_pow_right (by omega) (by omega)
    omega
  · obtain ⟨hhalf, heven⟩ := hround
    rw [hk] at hle hlow hhalf heven ⊢
    omega
  · have : 2 ^ 23 * 2 ^ 254 ≤ n := le_trans (Nat.mul_le_mul_left _ (Nat.pow_le_pow_right (by omega) hk)) (pow_mul_pow_log2_le (by omega))
    have := hlow (by omega)
    omega

theorem log2_mul_pow {m : Nat} (hm : m ≠ 0) (j : Nat) : Nat.log2 (m * 2 ^ j) = Nat.log2 m + j := by
  simp only [Nat.log2_eq_log_two]
  induction j with
  | zero => simp
  | succ i ih => rw [pow_succ, ← mul_assoc, Nat.log_mul_base one_lt_two (by positivity), ih, add_assoc]

/-- A significand held at the exponent `j - 149`, moved to the exponent `k - 149` by an exact or a rounding shift. -/
theorem significand_eq_rneShift (m j k : Nat) : (if (k : Int) - 149 ≤ j - 149 then m * 2 ^ (j - 149 - ((k : Int) - 149)).toNat
    else rneShift m ((k : Int) - 149 - (j - 149)).toNat) = rneShift (m * 2 ^ j) k := by
  split
  · obtain ⟨i, rfl⟩ : ∃ i, j = i + k := ⟨j - k, by omega⟩
    rw [rneShift_mul_pow_exact]
    congr 2; omega
  · obtain ⟨i, rfl⟩ : ∃ i, k = i + j := ⟨k - j, by omega⟩
    rw [rneShift_mul_pow]
    congr 1; omega

/-- Every number of a unit at least 2^(-149) rounds as the number of units it is (R25, R37). -/
theorem fp32_round_eq {e : Int} (he : -149 ≤ e) (neg : Bool) (m : Nat) :
    fFP32.round neg m e = (if neg then 2 ^ 31 else 0) + min (f32RoundMag (m * 2 ^ (e + 149).toNat)) (255 * 2 ^ 23) := by
  by_cases hm : m = 0
  · subst hm; simp [FFmt.round, FFmt.sign, fFP32, f32RoundMag, rneShift]
  obtain ⟨j, hj⟩ : ∃ j : Nat, (e + 149).toNat = j := ⟨_, rfl⟩
  obtain rfl : e = j - 149 := by omega
  have hlog := log2_mul_pow hm j
  obtain ⟨k, hk⟩ : ∃ k, Nat.log2 (m * 2 ^ j) - 23 = k := ⟨_, rfl⟩
  have hq : max ((j : Int) - 149 + Nat.log2 m) (1 - 127) - 23 = k - 149 := by omega
  have hfield : (k - 149 + 23 - (1 - 127) : Int).toNat = k := by omega
  have hlow := @le_rneShift_log2 (m * 2 ^ j)
  rw [hk] at hlow
  simp only [FFmt.round, FFmt.sign, fFP32, if_neg hm, f32RoundMag, Nat.cast_ofNat, hq, hfield, hj, hk, Nat.shiftLeft_eq,
    significand_eq_rneShift]
  generalize rneShift (m * 2 ^ j) k = σ at *
  have hmag : (if σ < 2 ^ 23 then σ else k * 2 ^ 23 + σ) = k * 2 ^ 23 + σ := by split <;> omega
  have hcap : ∀ y top : Nat, (if y > top then top + 1 else y) = min y (top + 1) := fun y top => by split <;> omega
  have htop : 2139095039 + 1 = 255 * 2 ^ 23 := by norm_num
  rw [hmag, if_pos trivial, hcap, htop]

/-! ## FP32 words -/

theorem toNat_f32Word (neg : Bool) {y : Nat} (hy : y < 2 ^ 31) : (f32Word neg y).toNat = (if neg then 2 ^ 31 else 0) + y := by
  rw [f32Word, BitVec.toNat_ofNat, Nat.mod_eq_of_lt]
  split <;> omega

theorem signBit_eq (x : Word32) : signBit x = decide (2 ^ 31 ≤ x.toNat) := by
  rw [signBit, ← BitVec.msb_eq_getLsbD_last, BitVec.msb_eq_decide]

theorem f32Word_sign_mag (x : Word32) : f32Word (signBit x) (x.toNat % 2 ^ 31) = x := by
  apply BitVec.eq_of_toNat_eq
  rw [toNat_f32Word _ (Nat.mod_lt _ (by omega)), signBit_eq]
  have := x.isLt
  simp only [decide_eq_true_eq]
  split <;> omega

theorem f32Word_mag (neg : Bool) {y : Nat} (hy : y < 2 ^ 31) : (f32Word neg y).toNat % 2 ^ 31 = y := by
  rw [toNat_f32Word neg hy]
  split <;> omega

theorem signBit_f32Word (neg : Bool) {y : Nat} (hy : y < 2 ^ 31) : signBit (f32Word neg y) = neg := by
  rw [signBit_eq, toNat_f32Word neg hy]
  cases neg
  · simpa using hy
  · simp

theorem f32Finite_iff (x : Word32) : f32Finite x = true ↔ x.toNat % 2 ^ 31 < 255 * 2 ^ 23 := by
  simp only [f32Finite, bits, decide_eq_true_eq, Nat.shiftRight_eq_div_pow]
  omega

/-- The value of an FP32 word by its sign, its exponent field and its mantissa (R22). -/
theorem ofF32_eq (x : Word32) :
    let y := x.toNat % 2 ^ 31
    ofF32 x = if y / 2 ^ 23 = 255 then (if y % 2 ^ 23 = 0 then .inf (signBit x) else .nan)
      else if y / 2 ^ 23 = 0 then .fin (signBit x) (y % 2 ^ 23) (-149)
      else .fin (signBit x) (2 ^ 23 + y % 2 ^ 23) ((y / 2 ^ 23 : Nat) - 150) := by
  have hlt := x.isLt
  have hsign : decide (x.toNat / 2 ^ (8 + 23) % 2 = 1) = signBit x := by rw [signBit_eq, decide_eq_decide]; omega
  have hexp : x.toNat / 2 ^ 23 % 2 ^ 8 = x.toNat % 2 ^ 31 / 2 ^ 23 := by omega
  have hman : x.toNat % 2 ^ 23 = x.toNat % 2 ^ 31 % 2 ^ 23 := by omega
  simp only [ofF32, FFmt.decode, fFP32, Nat.shiftRight_eq_div_pow, hsign, hexp, hman]
  simp [sub_sub]

theorem ofF32_of_lt {x : Word32} (h : x.toNat % 2 ^ 31 < 255 * 2 ^ 23) :
    ∃ m e, ofF32 x = .fin (signBit x) m e ∧ -149 ≤ e ∧ m * 2 ^ (e + 149).toNat = f32MagUnits (x.toNat % 2 ^ 31) := by
  rw [ofF32_eq, if_neg (by omega), f32MagUnits]
  split
  · exact ⟨_, _, rfl, by omega, by simp; omega⟩
  · refine ⟨_, _, rfl, by omega, ?_⟩
    congr 2; omega

theorem ofF32_of_eq {x : Word32} (h : x.toNat % 2 ^ 31 = 255 * 2 ^ 23) : ofF32 x = .inf (signBit x) := by
  rw [ofF32_eq, if_pos (by omega), if_pos (by omega)]

theorem ofF32_of_gt {x : Word32} (h : 255 * 2 ^ 23 < x.toNat % 2 ^ 31) : ofF32 x = .nan := by
  rw [ofF32_eq, if_pos (by omega), if_neg (by omega)]

theorem isInf_iff (x : Word32) : isInf x = true ↔ x.toNat % 2 ^ 31 = 255 * 2 ^ 23 := by
  rcases Nat.lt_trichotomy (x.toNat % 2 ^ 31) (255 * 2 ^ 23) with h | h | h
  · obtain ⟨m, e, hx, -⟩ := ofF32_of_lt h
    simp only [isInf, hx, h.ne, Bool.false_eq_true]
  · simp only [isInf, ofF32_of_eq h, h]
  · simp only [isInf, ofF32_of_gt h, h.ne', Bool.false_eq_true]

theorem ofF32_of_finite {x : Word32} (h : f32Finite x = true) : ∃ m e, ofF32 x = .fin (signBit x) m e ∧ -149 ≤ e ∧
    f32Units x = scaled (signBit x) m e (-149) := by
  obtain ⟨m, e, hx, he, -⟩ := ofF32_of_lt ((f32Finite_iff x).mp h)
  exact ⟨m, e, hx, he, by rw [f32Units, hx]⟩

theorem f32Units_of_finite {x : Word32} (h : f32Finite x = true) :
    f32Units x = withSign (signBit x) (f32MagUnits (x.toNat % 2 ^ 31)) := by
  obtain ⟨m, e, hx, -, hm⟩ := ofF32_of_lt ((f32Finite_iff x).mp h)
  rw [f32Units, hx, ← hm]
  exact scaled_eq_withSign ..

theorem ofF32_of_isInf {x : Word32} (h : isInf x = true) : ofF32 x = .inf (signBit x) := ofF32_of_eq ((isInf_iff x).mp h)

theorem ofF32_of_isNan {x : Word32} (h : isNan x = true) : ofF32 x = .nan := of_decide_eq_true h

@[simp] theorem toF32_nan : toF32 .nan = nan32 := rfl

theorem toF32_inf (neg : Bool) : toF32 (.inf neg) = f32Word neg (255 * 2 ^ 23) := by cases neg <;> rfl

theorem toF32_inf_signBit {x : Word32} (h : isInf x = true) : toF32 (.inf (signBit x)) = x := by
  rw [toF32_inf, ← (isInf_iff x).mp h, f32Word_sign_mag]

theorem toF32_inf_not_signBit {x : Word32} (h : isInf x = true) : toF32 (.inf (!signBit x)) = x ^^^ 0x80000000 := by
  rw [toF32_inf]
  conv_rhs => rw [← toF32_inf_signBit h, toF32_inf]
  cases signBit x <;> rfl

theorem toF32_fin {e : Int} (he : -149 ≤ e) (neg : Bool) (m : Nat) :
    toF32 (.fin neg m e) = f32Word neg (min (f32RoundMag (m * 2 ^ (e + 149).toNat)) (255 * 2 ^ 23)) := by
  rw [toF32, FFmt.encode, fp32_round_eq he, f32Word]

theorem natAbs_f32Units {x : Word32} (h : f32Finite x = true) : (f32Units x).natAbs = f32MagUnits (x.toNat % 2 ^ 31) := by
  rw [f32Units_of_finite h, natAbs_withSign]

/-- No finite FP32 number is nearer to `v` than the multiple of its last place that it rounds to. -/
theorem RoundsTo.nearest_f32 {k : Nat} {σ v : Int} (h : RoundsTo (2 ^ k) σ v) (hk : k ≠ 0 → 2 ^ 23 * 2 ^ k ≤ v.natAbs) {y : Word32}
    (hy : f32Finite y = true) : (2 ^ k * σ - v).natAbs ≤ (f32Units y - v).natAbs ∧
      ((2 ^ k * σ - v).natAbs = (f32Units y - v).natAbs → f32Units y ≠ 2 ^ k * σ → 2 ∣ σ) := by
  have hcast : ((2 ^ k : Nat) : Int) = 2 ^ k := by norm_cast
  by_cases hdvd : (2 ^ k : Int) ∣ f32Units y
  · obtain ⟨j, hj⟩ := hdvd
    rw [hj]
    exact h.nearest_multiple j
  · have hbelow : (f32Units y).natAbs < 2 ^ 23 * 2 ^ k := by
      rw [natAbs_f32Units hy, ← pow_add]
      refine (dvd_f32MagUnits_or_lt k _).resolve_left fun hd => hdvd ?_
      rwa [← hcast, Int.natCast_dvd, natAbs_f32Units hy]
    have hbinade := hk (by rintro rfl; simp at hdvd)
    have hfoot := (h.nearest_multiple (if v < 0 then -2 ^ 23 else 2 ^ 23)).1
    rw [← hcast] at hfoot ⊢
    have hlt : (((2 ^ k : Nat) : Int) * σ - v).natAbs < (f32Units y - v).natAbs := by split at hfoot <;> omega
    exact ⟨hlt.le, fun heq => absurd heq hlt.ne⟩

theorem getLsbD_zero_f32Word (neg : Bool) {y : Nat} (hy : y < 2 ^ 31) (heven : y % 2 = 0) : (f32Word neg y).getLsbD 0 = false := by
  rw [BitVec.getLsbD, toNat_f32Word neg hy, Nat.testBit_zero, decide_eq_false_iff_not]
  split <;> omega

theorem f32Finite_f32Word (neg : Bool) {y : Nat} (hy : y < 255 * 2 ^ 23) : f32Finite (f32Word neg y) = true := by
  rwa [f32Finite_iff, f32Word_mag neg (by omega)]

theorem f32Units_f32Word (neg : Bool) {y : Nat} (hy : y < 255 * 2 ^ 23) : f32Units (f32Word neg y) = withSign neg (f32MagUnits y) := by
  rw [f32Units_of_finite (f32Finite_f32Word neg hy), signBit_f32Word neg (by omega), f32Word_mag neg (by omega)]

theorem nearestF32_roundMag (neg : Bool) {n : Nat} (hn : n < 2 ^ 277 - 2 ^ 252) :
    NearestF32 (f32Word neg (f32RoundMag n)) (withSign neg n) := by
  have hmag := (f32RoundMag_lt_iff n).mpr hn
  obtain ⟨k, hk⟩ : ∃ k, Nat.log2 n - 23 = k := ⟨_, rfl⟩
  have hval : f32Units (f32Word neg (f32RoundMag n)) = 2 ^ k * withSign neg (rneShift n k) := by
    rw [f32Units_f32Word neg hmag, f32MagUnits_roundMag, hk, withSign_mul, Nat.cast_pow, Nat.cast_ofNat]
  have hbinade : k ≠ 0 → 2 ^ 23 * 2 ^ k ≤ n := hk ▸ pow_mul_pow_log2_le
  rw [NearestF32, natAbs_withSign, if_pos hn, hval]
  refine ⟨f32Finite_f32Word neg hmag, fun y hy => ?_⟩
  obtain ⟨hle, htie⟩ := (roundsTo_withSign neg n k).nearest_f32 (by rwa [natAbs_withSign]) hy
  refine ⟨hle, fun heq hne => getLsbD_zero_f32Word neg (by omega) ?_⟩
  have heven : 2 ∣ rneShift n k := by simpa using Int.natAbs_dvd_natAbs.mpr (htie heq hne)
  rw [f32RoundMag_mod_two, hk]
  omega

theorem nearestF32_infinity (neg : Bool) {n : Nat} (hn : ¬n < 2 ^ 277 - 2 ^ 252) :
    NearestF32 (f32Word neg (255 * 2 ^ 23)) (withSign neg n) := by
  rw [NearestF32, natAbs_withSign, if_neg hn, isInf_iff, f32Word_mag neg (by omega), signBit_f32Word neg (by omega)]
  simp [withSign_neg_iff neg (show 0 < n by omega)]

/-- Conversion to FP32 rounds to the nearest FP32 number, ties to even, or overflows to infinity (R37). -/
theorem nearestF32_toF32 {e : Int} (he : -149 ≤ e) (neg : Bool) (m : Nat) :
    NearestF32 (toF32 (.fin neg m e)) (scaled neg m e (-149)) := by
  rewrite [toF32_fin he, scaled_eq_withSign, sub_neg_eq_add]
  generalize m * 2 ^ (e + 149).toNat = n
  have hlim := f32RoundMag_lt_iff n
  by_cases hmag : f32RoundMag n < 255 * 2 ^ 23
  · rw [min_eq_left hmag.le]
    exact nearestF32_roundMag neg (hlim.mp hmag)
  · rw [min_eq_right (Nat.le_of_not_lt hmag)]
    exact nearestF32_infinity neg (mt hlim.mpr hmag)

/-! ## Addition and subtraction -/

theorem ofF32_neg_of_finite {x : Word32} (h : f32Finite x = true) : ∃ m e, (ofF32 x).neg = .fin (!signBit x) m e ∧ -149 ≤ e ∧
    scaled (!signBit x) m e (-149) = -f32Units x := by
  obtain ⟨m, e, hx, he, hu⟩ := ofF32_of_finite h
  exact ⟨m, e, by rw [hx, Num.neg], he, by rw [hu, scaled_not]⟩

theorem nearestF32_add_fin {e1 e2 : Int} (h1 : -149 ≤ e1) (h2 : -149 ≤ e2) (n1 n2 : Bool) (m1 m2 : Nat) :
    NearestF32 (toF32 ((Num.fin n1 m1 e1).add (.fin n2 m2 e2))) (scaled n1 m1 e1 (-149) + scaled n2 m2 e2 (-149)) := by
  obtain ⟨n, m, e, hadd, he, hsum⟩ := add_fin_scaled h1 h2 n1 n2 m1 m2
  rewrite [hadd, ← hsum]
  exact nearestF32_toF32 he n m

theorem nearestF32_fadd {a b : Word32} (ha : f32Finite a = true) (hb : f32Finite b = true) :
    NearestF32 (fadd a b) (f32Units a + f32Units b) := by
  obtain ⟨m1, e1, hx, h1, hu1⟩ := ofF32_of_finite ha
  obtain ⟨m2, e2, hy, h2, hu2⟩ := ofF32_of_finite hb
  rewrite [fadd, hx, hy, hu1, hu2]
  exact nearestF32_add_fin h1 h2 ..

theorem nearestF32_fsub {a b : Word32} (ha : f32Finite a = true) (hb : f32Finite b = true) :
    NearestF32 (fsub a b) (f32Units a - f32Units b) := by
  obtain ⟨m1, e1, hx, h1, hu1⟩ := ofF32_of_finite ha
  obtain ⟨m2, e2, hy, h2, hu2⟩ := ofF32_neg_of_finite hb
  rewrite [fsub, hx, hy, sub_eq_add_neg, hu1, ← hu2]
  exact nearestF32_add_fin h1 h2 ..

@[simp] theorem Num.add_nan (n : Num) : n.add .nan = .nan := by cases n <;> rfl

@[simp] theorem Num.nan_add (n : Num) : Num.nan.add n = .nan := by cases n <;> rfl

theorem fadd_nan {a b : Word32} (h : isNan a = true ∨ isNan b = true) : fadd a b = nan32 := by
  rcases h with h | h <;> simp [fadd, ofF32_of_isNan h]

theorem fsub_nan {a b : Word32} (h : isNan a = true ∨ isNan b = true) : fsub a b = nan32 := by
  rcases h with h | h <;> simp [fsub, ofF32_of_isNan h, Num.neg]

theorem fadd_inf_inf {a b : Word32} (ha : isInf a = true) (hb : isInf b = true) :
    fadd a b = if signBit a = signBit b then a else nan32 := by
  rw [fadd, ofF32_of_isInf ha, ofF32_of_isInf hb, Num.add]
  split
  · exact toF32_inf_signBit ha
  · exact toF32_nan

theorem fsub_inf_inf {a b : Word32} (ha : isInf a = true) (hb : isInf b = true) :
    fsub a b = if signBit a = signBit b then nan32 else a := by
  rw [fsub, ofF32_of_isInf ha, ofF32_of_isInf hb, Num.neg, Num.add]
  simp only [Bool.eq_not, ← ite_not (signBit a = signBit b), ne_eq]
  split
  · exact toF32_inf_signBit ha
  · exact toF32_nan

theorem fadd_inf_finite {a b : Word32} (ha : isInf a = true) (hb : f32Finite b = true) : fadd a b = a := by
  obtain ⟨m, e, hy, -⟩ := ofF32_of_finite hb
  rw [fadd, ofF32_of_isInf ha, hy, Num.add, toF32_inf_signBit ha]
  all_goals exact nofun

theorem fsub_inf_finite {a b : Word32} (ha : isInf a = true) (hb : f32Finite b = true) : fsub a b = a := by
  obtain ⟨m, e, hy, -⟩ := ofF32_neg_of_finite hb
  rw [fsub, ofF32_of_isInf ha, hy, Num.add, toF32_inf_signBit ha]
  all_goals exact nofun

theorem fadd_finite_inf {a b : Word32} (ha : f32Finite a = true) (hb : isInf b = true) : fadd a b = b := by
  obtain ⟨m, e, hx, -⟩ := ofF32_of_finite ha
  rw [fadd, ofF32_of_isInf hb, hx, Num.add, toF32_inf_signBit hb]
  all_goals exact nofun

theorem fsub_finite_inf {a b : Word32} (ha : f32Finite a = true) (hb : isInf b = true) : fsub a b = b ^^^ 0x80000000 := by
  obtain ⟨m, e, hx, -⟩ := ofF32_of_finite ha
  rw [fsub, ofF32_of_isInf hb, hx, Num.neg, Num.add, toF32_inf_not_signBit hb]
  all_goals exact nofun

/-- Settles O60: rounding by `nearestF32_toF32` on the exact sum, the infinities and NaN by the cases of `Num.add`. -/
theorem extendedAddition : Obligations.ExtendedAddition := by
  unfold Obligations.ExtendedAddition
  refine ⟨fun a b ha hb => ?finite, fun a b => ⟨?nan, ?infs, ?left, ?right⟩, fun hi lo v => ?routine⟩
  case finite => exact ⟨nearestF32_fadd ha hb, nearestF32_fsub ha hb⟩
  case nan => exact fun h => ⟨fadd_nan h, fsub_nan h⟩
  case infs => exact fun ha hb => ⟨fadd_inf_inf ha hb, fsub_inf_inf ha hb⟩
  case left => exact fun ha hb => ⟨fadd_inf_finite ha hb, fsub_inf_finite ha hb⟩
  case right => exact fun ha hb => ⟨fadd_finite_inf ha hb, fsub_finite_inf ha hb⟩
  case routine =>
    simp only [extAdd, Bool.or_eq_true, or_comm (a := isNan _ = true)]
    split <;> rfl

end Sys2Proof.Machine
end

section
/-! SUPPORT. The doorbells and push memory of the rings: what a dropped doorbell and a push write do (R298-R301), and the
statements about them. -/

namespace Sys2Proof.Machine

open Sys2Proof

/-! ## Ring records and status bits -/

theorem modRing_of_lt {r : Nat} (h : r < 8192) (s : State) (f : Ring → Ring) : modRing s r f = { s with rings := tabModify s.rings r {} f } :=
  if_pos h

theorem getRing_modRing (s : State) (r m : Nat) (f : Ring → Ring) : getRing (modRing s r f) m = if m = r then f (getRing s r) else getRing s m := by
  by_cases hr : r < 8192
  · by_cases hm : m < 8192
    · simp only [modRing, getRing, if_pos hr, if_pos hm, tabModify, tabGetD_insert]
    · have hne : m ≠ r := by omega
      simp only [modRing, getRing, if_pos hr, if_neg hm, if_neg hne]
  · by_cases hm : m < 8192
    · have hne : m ≠ r := by omega
      simp only [modRing, getRing, if_neg hr, if_pos hm, if_neg hne]
    · have hsub : m - 8192 = r - 8192 ↔ m = r := by omega
      simp only [modRing, getRing, if_neg hr, if_neg hm, tabModify, tabGetD_insert, hsub]

theorem bit_setBit_self {w : Nat} (x : BitVec w) {i : Nat} (hi : i < w) : bit (setBit x i true) i = true := by
  have hone : (BitVec.ofNat w (1 <<< i))[i] = true := by
    simp [← BitVec.getLsbD_eq_getElem, BitVec.getLsbD_ofNat, hi, Nat.testBit_shiftLeft]
  simp [bit, setBit, setBits, hi, hone]

/-! ## Doorbells -/

/-- The rings whose doorbells and live entries a function has are rings that its window shows (R284, R298). -/
theorem doorbellsShown_le (s : State) (fn : Nat) : (if fn = 0 then 2 else ringsShown s fn) ≤ ringsShown s fn := by
  split
  · next h => simp [ringsShown, h, Config.rings]
  · exact le_rfl

theorem doorbellHere_of_doorbellRing {s : State} {fn off n : Nat} (hoff : off < 0x1000000) (h : doorbellRing s fn off = some n) :
    doorbellHere s fn off = true := by
  have hshown := doorbellsShown_le s fn
  simp only [doorbellRing] at h
  simp only [doorbellHere, decide_eq_true_eq]
  split at h
  · next hlow =>
    obtain ⟨hlt, -⟩ := Option.ite_none_right_eq_some.1 h
    omega
  · next hhigh =>
    obtain ⟨⟨hlt, -⟩, -⟩ := Option.ite_none_right_eq_some.1 h
    omega

theorem wakeDevice_of_awake {s : State} (h : s.pwr.dev = 0) (source : Nat) : wakeDevice s source = s :=
  if_pos (.inl (by omega))

/-- A doorbell whose byte enables stay within one 64-bit word is one part (R287). -/
theorem exec_doorbellWrite_one_word {fn : Fin 65} {offset : Nat} {be : BitVec 8} {s : State} (hreach : hostReach s fn = true)
    (hoff : offset < 0x1000000) (hbe : be >>> (8 - offset % 8) = 0) (v : Word64) :
    exec (.doorbellWrite fn offset be v) s =
      .next (doorbellPart s fn (offset / 8 * 8) (be <<< (offset % 8)) (v <<< (8 * (offset % 8)))) := by
  have hcond : ¬((!hostReach s fn) = true ∨ 0x1000000 ≤ offset) := by simp [hreach, hoff]
  simp only [exec, execDoorbellWrite, if_neg hcond, hbe]
  rw [doorbellPart, if_pos rfl]

/-- The counts that no doorbell may set (R300): a HEAD past TAIL on a completion ring, and on a submission ring a TAIL that
runs past the ring or backwards. -/
def badCount (x : Ring) (new : BitVec 16) : Prop :=
  (ringIsCpl x = true ∧ (x.tail - x.head).toNat < (new - x.head).toNat) ∨
    (ringIsCpl x = false ∧ (ringSize x < (new - x.head).toNat ∨ (new - x.head).toNat < (x.tail - x.head).toNat))

theorem takeDoorbell_of_bad {s : State} {n : Nat} {v : BitVec 16} (h : ringEnabled (getRing s n) = false ∨ badCount (getRing s n) v)
    (fn off : Nat) : takeDoorbell s fn n off v = badDoorbell s fn off (some n) := by
  rw [takeDoorbell]
  cases hen : ringEnabled (getRing s n) with
  | false => rfl
  | true =>
    have hbad : badCount (getRing s n) v := h.resolve_left (by simp [hen])
    rcases hbad with ⟨hcpl, hpast⟩ | ⟨hsub, hcount⟩
    · simp only [hcpl, hpast, if_true, Bool.not_true, Bool.false_eq_true, if_false]
    · simp only [hsub, hcount, if_true, Bool.not_true, Bool.false_eq_true, if_false]

/-- A write of a whole doorbell or of a half, at the doorbell of ring `n` in an awake device (R287, R298, R300). -/
theorem doorbellPart_of_ring {s : State} {fn off n : Nat} {be : BitVec 8} (hon : s.pwr.dev = 0) (hoff : off < 0x1000000)
    (hring : doorbellRing s fn off = some n) (hbe : be = 0xFF ∨ be = 0x0F ∨ be = 0xF0) (v : Word64) :
    doorbellPart s fn off be v =
      if s.ready = false then badDoorbell s fn off (some n)
      else if be = 0xF0 then badDoorbell s fn (off + 4) (some n)
      else if bits v (if be = 0xFF then 63 else 31) 16 ≠ 0 then s
      else takeDoorbell s fn n off (v.setWidth 16) := by
  have hne : be ≠ 0 := by rcases hbe with rfl | rfl | rfl <;> decide
  have hwidth : ¬(be ≠ 0xFF ∧ be ≠ 0x0F ∧ be ≠ 0xF0) := by tauto
  simp only [doorbellPart, if_neg hne, doorbellHere_of_doorbellRing hoff hring, if_neg hwidth, wakeDevice_of_awake hon, hring,
    Bool.not_true, Bool.not_eq_true', Bool.false_eq_true, if_false]

/-- In the cases of R300 such a write is dropped. -/
theorem doorbellPart_of_bad {s : State} {fn off n : Nat} {be : BitVec 8} {v : Word64} (hon : s.pwr.dev = 0) (hoff : off < 0x1000000)
    (hring : doorbellRing s fn off = some n) (hbe : be = 0xFF ∨ be = 0x0F ∨ be = 0xF0)
    (hres : s.ready = false ∨ be = 0xF0 ∨ bits v (if be = 0xFF then 63 else 31) 16 = 0)
    (hbad : s.ready = false ∨ be = 0xF0 ∨ ringEnabled (getRing s n) = false ∨ badCount (getRing s n) (v.setWidth 16)) :
    ∃ o, doorbellPart s fn off be v = badDoorbell s fn o (some n) := by
  rw [doorbellPart_of_ring hon hoff hring hbe]
  split
  · exact ⟨off, rfl⟩
  next hready =>
    split
    · exact ⟨off + 4, rfl⟩
    next hlow =>
      have hzero := (hres.resolve_left hready).resolve_left hlow
      rw [if_neg (not_not.2 hzero)]
      exact ⟨off, takeDoorbell_of_bad ((hbad.resolve_left hready).resolve_left hlow) fn off⟩

/-- Settles O31: the doorbell lies in one word, and that word is dropped by `doorbellPart_of_bad`. -/
theorem badDoorbellsAreDropped : Obligations.BadDoorbellsAreDropped := by
  unfold Obligations.BadDoorbellsAreDropped
  intro fn offset n be0 v0 s hreach hoff hring be v hword hon hres hbe x new hbad
  obtain ⟨o, hpart⟩ := doorbellPart_of_bad hon (by omega) hring hbe hres hbad
  exact ⟨o, by rw [exec_doorbellWrite_one_word hreach hoff hword, hpart, badDoorbell]⟩

/-! ## Push writes -/

/-- Push memory after a write from `a` on that spares the bytes for which `hit` names a ring (R301). -/
def putSpared (hit : Nat → Option Nat) (a : Nat) (b : List Byte) (m : SMap 8) : SMap 8 :=
  (b.mapIdx (fun i v => (i, v))).foldl (fun m q => if (hit q.1).isSome then m else smSet m (a + q.1) q.2) m

/-- The ring shows that a push write met one of its live entries (RING_STATUS.PUSH_LIVE). -/
def tellRing (x : Ring) : Ring := { x with status := setBit x.status 62 true }

def tellRings (s : State) (l : List Nat) : State := l.foldl (fun s n => modRing s n tellRing) s

/-- The rings that `hit` names for the first `n` bytes, each once. -/
def ringsHit (hit : Nat → Option Nat) (n : Nat) : List Nat := ((List.range n).filterMap hit).dedup

/-- The first of `n` bytes that met a live entry is logged as kind 9 (R292, R301). -/
def logFirstHit (s : State) (fn offset : Nat) (hit : Nat → Option Nat) (n : Nat) : State :=
  match (List.range n).find? (fun i => (hit i).isSome) with
  | some i => errAccess s fn 9 1 (offset + i)
  | none => s

theorem smGet_putSpared (hit : Nat → Option Nat) (a : Nat) (b : List Byte) (m : SMap 8) (k : Nat) :
    smGet (putSpared hit a b m) k = if a ≤ k ∧ k < a + b.length ∧ hit (k - a) = none then b.getD (k - a) 0 else smGet m k := by
  induction b using List.reverseRecOn with
  | nil => simp [putSpared]; omega
  | append_singleton r v ih =>
    have hstep : putSpared hit a (r ++ [v]) m =
        if (hit r.length).isSome then putSpared hit a r m else smSet (putSpared hit a r m) (a + r.length) v := by
      simp [putSpared, List.mapIdx_append]
    have hread : smGet (putSpared hit a (r ++ [v]) m) k =
        if k = a + r.length ∧ hit r.length = none then v else smGet (putSpared hit a r m) k := by
      rw [hstep]
      cases hit r.length <;> simp [smGet_smSet]
    rw [hread, ih]
    by_cases hk : k = a + r.length
    · subst hk; simp
    · have hlen : k < a + (r ++ [v]).length ↔ k < a + r.length := by
        rw [List.length_append, List.length_singleton]
        omega
      simp only [hk, hlen, false_and, if_false]
      split
      · next hin => rw [List.getD_append _ _ _ _ (by omega)]
      · rfl

theorem tellRings_cons (s : State) (n : Nat) (l : List Nat) : tellRings s (n :: l) = tellRings (modRing s n tellRing) l := rfl

theorem tellRings_frame (l : List Nat) (hl : ∀ n ∈ l, n < 8192) (s : State) :
    tellRings s l = { s with rings := (tellRings s l).rings } := by
  induction l generalizing s with
  | nil => rfl
  | cons n r ih =>
    have h := ih (fun q hq => hl q (List.mem_cons_of_mem _ hq)) (modRing s n tellRing)
    rw [modRing_of_lt (hl n List.mem_cons_self)] at h
    rwa [tellRings_cons, modRing_of_lt (hl n List.mem_cons_self)]

theorem getRing_tellRings {l : List Nat} (hl : l.Nodup) (s : State) (m : Nat) :
    getRing (tellRings s l) m = if m ∈ l then tellRing (getRing s m) else getRing s m := by
  induction l generalizing s with
  | nil => rfl
  | cons n r ih =>
    obtain ⟨hn, hr⟩ := List.nodup_cons.1 hl
    rw [tellRings_cons, ih hr, getRing_modRing]
    by_cases hm : m = n
    · subst hm; simp [hn]
    · simp [hm]

theorem liveAt_lt {s : State} {fn a n : Nat} (h : liveAt s fn a = some n) : n < ringFirst s fn + ringsShown s fn := by
  obtain ⟨q, hq, rfl⟩ := Option.map_eq_some_iff.1 h
  have hmem := (List.mem_filter.1 (List.mem_of_find?_eq_some hq)).2
  simp only [Bool.and_eq_true, decide_eq_true_eq] at hmem
  have hshown := doorbellsShown_le s fn
  omega

theorem mem_ringsHit {hit : Nat → Option Nat} {n r : Nat} : r ∈ ringsHit hit n ↔ ∃ i < n, hit i = some r := by
  simp [ringsHit]

theorem logFirstHit_frame (s : State) (fn offset : Nat) (hit : Nat → Option Nat) (n : Nat) :
    logFirstHit s fn offset hit n = { s with funcs := (logFirstHit s fn offset hit n).funcs } := by
  unfold logFirstHit
  split <;> rfl

theorem logFirstHit_of_none {hit : Nat → Option Nat} {n : Nat} (h : ∀ i < n, hit i = none) (s : State) (fn offset : Nat) :
    logFirstHit s fn offset hit n = s := by
  have hfind : (List.range n).find? (fun i => (hit i).isSome) = none := by simpa using h
  simp only [logFirstHit, hfind]

theorem logFirstHit_of_first {hit : Nat → Option Nat} {n i : Nat} (hi : i < n) (hsome : (hit i).isSome) (h : ∀ j < i, hit j = none)
    (s : State) (fn offset : Nat) : logFirstHit s fn offset hit n = errAccess s fn 9 1 (offset + i) := by
  have hfind : (List.range n).find? (fun i => (hit i).isSome) = some i := by
    rw [List.find?_range_eq_some]
    simpa [hsome, hi] using h
  simp only [logFirstHit, hfind]

/-- The ring whose live entry byte `i` of a push write at `offset` meets, if any. -/
def pushHit (s : State) (fn offset i : Nat) : Option Nat := liveAt s fn (offset - 0x1000000 + i)

/-- The state after a push write of which every byte lies in the function's part (R299, R301). -/
def afterPushWrite (s : State) (fn offset : Nat) (b : List Byte) : State :=
  logFirstHit
    (tellRings { s with push := putSpared (pushHit s fn offset) ((pushPart s fn).1 + (offset - 0x1000000)) b s.push }
      (ringsHit (pushHit s fn offset) b.length))
    fn offset (pushHit s fn offset) b.length

theorem exec_pushWrite_in_part {fn : Fin 65} {offset : Nat} {b : List Byte} {s : State} (hreach : hostReach s fn = true)
    (hoff : 0x1000000 ≤ offset) (hb : b ≠ []) (hready : s.ready = true) (hin : offset - 0x1000000 + b.length ≤ (pushPart s fn).2) :
    exec (.pushWrite fn offset b) s = .next (afterPushWrite s fn offset b) := by
  have hcond : ¬((!hostReach s fn) = true ∨ offset < 0x1000000 ∨ b = []) := by simp [hreach, hb, hoff]
  have hpart : (if s.ready then b.take ((pushPart s fn).2 - (offset - 0x1000000)) else []) = b := by
    rw [if_pos hready, List.take_of_length_le (by omega)]
  simp only [exec, execPushWrite, if_neg hcond, hpart, lt_irrefl, if_false]
  rfl

section afterPushWrite
variable {s : State} {fn offset : Nat} {b : List Byte}

theorem lt_of_mem_ringsHit (hfit : ringFirst s fn + ringsShown s fn ≤ 8192) :
    ∀ n ∈ ringsHit (pushHit s fn offset) b.length, n < 8192 := by
  intro n hn
  obtain ⟨i, -, h⟩ := mem_ringsHit.1 hn
  exact lt_of_lt_of_le (liveAt_lt h) hfit

theorem afterPushWrite_frame (hfit : ringFirst s fn + ringsShown s fn ≤ 8192) :
    { afterPushWrite s fn offset b with push := s.push, rings := s.rings, funcs := s.funcs } = s := by
  rw [afterPushWrite, logFirstHit_frame, tellRings_frame _ (lt_of_mem_ringsHit hfit)]

theorem afterPushWrite_push (hfit : ringFirst s fn + ringsShown s fn ≤ 8192) :
    (afterPushWrite s fn offset b).push = putSpared (pushHit s fn offset) ((pushPart s fn).1 + (offset - 0x1000000)) b s.push := by
  rw [afterPushWrite, logFirstHit_frame, tellRings_frame _ (lt_of_mem_ringsHit hfit)]

theorem getRing_afterPushWrite (m : Nat) :
    getRing (afterPushWrite s fn offset b) m =
      if m ∈ ringsHit (pushHit s fn offset) b.length then tellRing (getRing s m) else getRing s m := by
  rw [afterPushWrite, logFirstHit_frame]
  exact getRing_tellRings (List.nodup_dedup _) _ m

/-- The access error that a push write logs is that of its first byte in a live entry. -/
theorem getFunc_afterPushWrite {i : Nat} (hfit : ringFirst s fn + ringsShown s fn ≤ 8192) (hi : i < b.length)
    (hhit : (pushHit s fn offset i).isSome) (hfirst : ∀ j < i, pushHit s fn offset j = none) :
    getFunc (afterPushWrite s fn offset b) fn = getFunc (errAccess s fn 9 1 (offset + i)) fn := by
  rw [afterPushWrite, logFirstHit_of_first hi hhit hfirst, tellRings_frame _ (lt_of_mem_ringsHit hfit)]
  rfl

/-- A push write that meets no live entry leaves the rings and the access errors alone. -/
theorem afterPushWrite_of_none (h : ∀ i < b.length, pushHit s fn offset i = none) :
    (afterPushWrite s fn offset b).rings = s.rings ∧ (afterPushWrite s fn offset b).funcs = s.funcs := by
  have hl : ringsHit (pushHit s fn offset) b.length = [] := by
    refine List.eq_nil_iff_forall_not_mem.2 fun n hn => ?_
    obtain ⟨i, hi, hsome⟩ := mem_ringsHit.1 hn
    simp [h i hi] at hsome
  rw [afterPushWrite, logFirstHit_of_none h, hl]
  exact ⟨rfl, rfl⟩

end afterPushWrite

/-- Settles O33: the laws of `afterPushWrite`, one for each part of the state that it changes. -/
theorem pushWritesSpareLiveEntries : Obligations.PushWritesSpareLiveEntries := by
  unfold Obligations.PushWritesSpareLiveEntries
  intro fn offset b s hreach hoff hb hready a base hin hfit
  refine ⟨afterPushWrite s fn offset b, exec_pushWrite_in_part hreach hoff hb hready hin, afterPushWrite_frame hfit,
    ?bytes, ?kept, ?none, ?told⟩
  case bytes =>
    intro k
    have hbyte (hk : base + a ≤ k) : pushHit s fn offset (k - (base + a)) = liveAt s fn (k - base) :=
      congrArg (liveAt s fn) (by omega)
    rw [afterPushWrite_push hfit, smGet_putSpared, Nat.sub_sub]
    exact if_congr (and_congr_right fun hk => by rw [← hbyte hk]) rfl rfl
  case kept =>
    intro m
    rw [getRing_afterPushWrite]
    split <;> exact ⟨rfl, rfl, rfl, rfl⟩
  case none => exact afterPushWrite_of_none
  case told =>
    intro i n hi hn
    refine ⟨?_, fun hfirst => getFunc_afterPushWrite hfit hi (Option.isSome_of_eq_some hn) hfirst⟩
    rw [getRing_afterPushWrite, if_pos (mem_ringsHit.2 ⟨i, hi, hn⟩)]
    exact bit_setBit_self _ (by decide)

end Sys2Proof.Machine
end

section
/-! SUPPORT. The step (spec/95_what_each_step_holds.md): every command keeps the queue and the stores, and a nanosecond passes
on an empty queue; the statements about them. -/

namespace Sys2Proof.Machine

open Sys2Proof

/-- Every command, by its own lemma of Laws/Commands.lean. -/
theorem exec_okNext (c : Instr) (s : State) : OkNext s (exec c s) := by
  cases c with
  | submitPrompt ring p => exact keeps_execSubmitPrompt ring p (Keeps.refl s)
  | cancel ring p => exact keeps_execCancel ring p (Keeps.refl s)
  | pause ring p => exact keeps_execPause ring p (Keeps.refl s)
  | resume ring p => exact keeps_execResume ring p (Keeps.refl s)
  | setPriority ring p => exact keeps_execSetPriority ring p (Keeps.refl s)
  | queryRequest ring p hostOk => exact keeps_execQueryRequest ring p hostOk (Keeps.refl s)
  | partitionCreate ring p => exact keeps_execPartitionCreate ring p (Keeps.refl s)
  | partitionDestroy ring p => exact keeps_execPartitionDestroy ring p (Keeps.refl s)
  | tenantConfigure ring p => exact keeps_execTenantConfigure ring p (Keeps.refl s)
  | modelLoad ring p rd => exact keeps_execModelLoad ring p rd (Keeps.refl s)
  | modelUnload ring p => exact keeps_execModelUnload ring p (Keeps.refl s)
  | prefixPin ring p => exact keeps_execPrefixPin ring p (Keeps.refl s)
  | prefixUnpin ring p => exact keeps_execPrefixUnpin ring p (Keeps.refl s)
  | pourTargetAdd ring p => exact keeps_execPourTargetAdd ring p (Keeps.refl s)
  | pourTargetRemove ring p => exact keeps_execPourTargetRemove ring p (Keeps.refl s)
  | groupCreate ring p list => exact keeps_execGroupCreate ring p list (Keeps.refl s)
  | groupDestroy ring p => exact keeps_execGroupDestroy ring p (Keeps.refl s)
  | setWakeTolerance ring p => exact keeps_execSetWakeTolerance ring p (Keeps.refl s)
  | setPowerCap ring p => exact keeps_execSetPowerCap ring p (Keeps.refl s)
  | pairBind ring p partner => exact keeps_execPairBind ring p partner (Keeps.refl s)
  | pairUnbind ring p => exact keeps_execPairUnbind ring p (Keeps.refl s)
  | pairStatus ring p => exact keeps_execPairStatus ring p (Keeps.refl s)
  | telemetryRead ring p hostOk => exact keeps_execTelemetryRead ring p hostOk (Keeps.refl s)
  | logRead ring p hostOk => exact keeps_execLogRead ring p hostOk (Keeps.refl s)
  | selftest ring p pass => exact keeps_execSelftest ring p pass (Keeps.refl s)
  | firmwareStage ring p img => exact keeps_execFirmwareStage ring p img (Keeps.refl s)
  | firmwareActivate ring p newOk partnerOk => exact keeps_execFirmwareActivate ring p newOk partnerOk (Keeps.refl s)
  | nop ring p => exact keeps_execNop ring p (Keeps.refl s)
  | unknownOpcodeCommand ring opcode p => exact keeps_execUnknownOpcodeCommand ring opcode p (Keeps.refl s)
  | doorbellWrite fn offset be v => exact keeps_execDoorbellWrite fn offset be v (Keeps.refl s)
  | pushWrite fn offset bytes => exact keeps_execPushWrite fn offset bytes (Keeps.refl s)
  | pullFetchDone ring entries => exact keeps_execPullFetchDone ring entries (Keeps.refl s)
  | completionWrite ring hostOk => exact keeps_execCompletionWrite ring hostOk (Keeps.refl s)
  | interruptAgeExpiry ring => exact keeps_execInterruptAgeExpiry ring (Keeps.refl s)
  | ringEnable fn index v => exact keeps_execRingEnable fn index v (Keeps.refl s)
  | ringDisable fn index v => exact keeps_execRingDisable fn index v (Keeps.refl s)
  | pairedLowWrite fn offset v => exact keeps_execPairedLowWrite fn offset v (Keeps.refl s)
  | counterLowRead fn offset => exact keeps_execCounterLowRead fn offset (Keeps.refl s)
  | unmappedRead fn r => exact keeps_execUnmappedRead fn r (Keeps.refl s)
  | registerWrite fn offset be v => exact keeps_execRegisterWrite fn offset be v (Keeps.refl s)
  | bar4Access vf offset be write => exact keeps_execBar4Access vf offset be write (Keeps.refl s)
  | portUnfence port => exact keeps_execPortUnfence port (Keeps.refl s)
  | kettleOff => exact keeps_execKettleOff (Keeps.refl s)
  | nopInstruction t c w => exact keeps_execNopInstruction t c w (Keeps.refl s)
  | endI t c w => exact keeps_execEndI t c w (Keeps.refl s)
  | jmp t c w => exact keeps_execJmp t c w (Keeps.refl s)
  | br t c w => exact keeps_execBr t c w (Keeps.refl s)
  | loop t c w => exact keeps_execLoop t c w (Keeps.refl s)
  | sli t c w => exact keeps_execSli t c w (Keeps.refl s)
  | sadd t c w => exact keeps_execSadd t c w (Keeps.refl s)
  | ssub t c w => exact keeps_execSsub t c w (Keeps.refl s)
  | smul t c w => exact keeps_execSmul t c w (Keeps.refl s)
  | sand t c w => exact keeps_execSand t c w (Keeps.refl s)
  | sor t c w => exact keeps_execSor t c w (Keeps.refl s)
  | sxor t c w => exact keeps_execSxor t c w (Keeps.refl s)
  | sshl t c w => exact keeps_execSshl t c w (Keeps.refl s)
  | sshr t c w => exact keeps_execSshr t c w (Keeps.refl s)
  | sshrl t c w => exact keeps_execSshrl t c w (Keeps.refl s)
  | smin t c w => exact keeps_execSmin t c w (Keeps.refl s)
  | smax t c w => exact keeps_execSmax t c w (Keeps.refl s)
  | sld t c w => exact keeps_execSld t c w (Keeps.refl s)
  | sst t c w => exact keeps_execSst t c w (Keeps.refl s)
  | bset t c w => exact keeps_execBset t c w (Keeps.refl s)
  | mld t c w => exact keeps_execMld t c w (Keeps.refl s)
  | mst t c w => exact keeps_execMst t c w (Keeps.refl s)
  | mrng t c w => exact keeps_execMrng t c w (Keeps.refl s)
  | mvalid t c w => exact keeps_execMvalid t c w (Keeps.refl s)
  | mseg t c w => exact keeps_execMseg t c w (Keeps.refl s)
  | rmap t c w => exact keeps_execRmap t c w (Keeps.refl s)
  | frd t c w => exact keeps_execFrd t c w (Keeps.refl s)
  | tmma t c w => exact keeps_execTmma t c w (Keeps.refl s)
  | tmmaL t c w => exact keeps_execTmmaL t c w (Keeps.refl s)
  | tmmaF t c w => exact keeps_execTmmaF t c w (Keeps.refl s)
  | rescale t c w => exact keeps_execRescale t c w (Keeps.refl s)
  | lswap t c w => exact keeps_execLswap t c w (Keeps.refl s)
  | drain t c w => exact keeps_execDrain t c w (Keeps.refl s)
  | vmov t c w => exact keeps_execVmov t c w (Keeps.refl s)
  | vadd t c w => exact keeps_execVadd t c w (Keeps.refl s)
  | vsub t c w => exact keeps_execVsub t c w (Keeps.refl s)
  | vmul t c w => exact keeps_execVmul t c w (Keeps.refl s)
  | vfma t c w => exact keeps_execVfma t c w (Keeps.refl s)
  | vmin t c w => exact keeps_execVmin t c w (Keeps.refl s)
  | vmax t c w => exact keeps_execVmax t c w (Keeps.refl s)
  | vdiv t c w => exact keeps_execVdiv t c w (Keeps.refl s)
  | vsqrt t c w => exact keeps_execVsqrt t c w (Keeps.refl s)
  | vexp2 t c w => exact keeps_execVexp2 t c w (Keeps.refl s)
  | vrsum t c w => exact keeps_execVrsum t c w (Keeps.refl s)
  | vrmax t c w => exact keeps_execVrmax t c w (Keeps.refl s)
  | vcvt t c w => exact keeps_execVcvt t c w (Keeps.refl s)
  | srun t c w => exact keeps_execSrun t c w (Keeps.refl s)
  | sstop t c w => exact keeps_execSstop t c w (Keeps.refl s)
  | signal t c w => exact keeps_execSignal t c w (Keeps.refl s)
  | wait t c w => exact keeps_execWait t c w (Keeps.refl s)
  | fence t c w => exact keeps_execFence t c w (Keeps.refl s)
  | barrier t c w => exact keeps_execBarrier t c w (Keeps.refl s)
  | fset t c w => exact keeps_execFset t c w (Keeps.refl s)
  | tmmaIssueEnd t chk => exact keeps_execTmmaIssueEnd t chk (Keeps.refl s)
  | tileHangTimeout t => exact keeps_execTileHangTimeout t (Keeps.refl s)
  | drainStart t => exact keeps_execDrainStart t (Keeps.refl s)
  | drainEnd t chk => exact keeps_execDrainEnd t chk (Keeps.refl s)
  | rescaleStart t => exact keeps_execRescaleStart t (Keeps.refl s)
  | rescaleEnd t => exact keeps_execRescaleEnd t (Keeps.refl s)
  | leafSwap t => exact keeps_execLeafSwap t (Keeps.refl s)
  | vectorEnd t chk => exact keeps_execVectorEnd t chk (Keeps.refl s)
  | waitSatisfied t c => exact keeps_execWaitSatisfied t c (Keeps.refl s)
  | fenceComplete t c => exact keeps_execFenceComplete t c (Keeps.refl s)
  | barrierRelease p bar => exact keeps_execBarrierRelease p bar (Keeps.refl s)
  | signalArrive n => exact keeps_execSignalArrive n (Keeps.refl s)
  | tagClaim t n => exact keeps_execTagClaim t n (Keeps.refl s)
  | remoteWriteArrive n => exact keeps_execRemoteWriteArrive n (Keeps.refl s)
  | remoteReadReturn n => exact keeps_execRemoteReadReturn n (Keeps.refl s)
  | scrubTick t line => exact keeps_execScrubTick t line (Keeps.refl s)
  | waitLimitExpiry p => exact keeps_execWaitLimitExpiry p (Keeps.refl s)
  | powerLend t => exact keeps_execPowerLend t (Keeps.refl s)
  | streamXfer t h => exact keeps_execStreamXfer t h (Keeps.refl s)
  | streamReadLand t h r => exact keeps_execStreamReadLand t h r (Keeps.refl s)
  | streamDone t h => exact keeps_execStreamDone t h (Keeps.refl s)
  | mergeEntryTimeout t n => exact keeps_execMergeEntryTimeout t n (Keeps.refl s)
  | pageWalkDone t h => exact keeps_execPageWalkDone t h (Keeps.refl s)
  | compositionDone p => exact keeps_execCompositionDone p (Keeps.refl s)
  | tokenReadDone e tokens => exact keeps_execTokenReadDone e tokens (Keeps.refl s)
  | hsBlockReadDone e block => exact keeps_execHsBlockReadDone e block (Keeps.refl s)
  | steepRelease p => exact keeps_execSteepRelease p (Keeps.refl s)
  | newtSample e bad chk => exact keeps_execNewtSample e bad chk (Keeps.refl s)
  | headstartFill e => exact keeps_execHeadstartFill e (Keeps.refl s)
  | headstartFillTimeout p => exact keeps_execHeadstartFillTimeout p (Keeps.refl s)
  | draftLimitTick waitPermille => exact keeps_execDraftLimitTick waitPermille (Keeps.refl s)
  | newtHangTimeout n => exact keeps_execNewtHangTimeout n (Keeps.refl s)
  | pourRecordWrite p tgt input => exact keeps_execPourRecordWrite p tgt input (Keeps.refl s)
  | consumedPoll p tgt => exact keeps_execConsumedPoll p tgt (Keeps.refl s)
  | controlBlockRead p tgt block => exact keeps_execControlBlockRead p tgt block (Keeps.refl s)
  | commitAck p tgt => exact keeps_execCommitAck p tgt (Keeps.refl s)
  | resultWriteDone e ok => exact keeps_execResultWriteDone e ok (Keeps.refl s)
  | targetNak p tgt cause => exact keeps_execTargetNak p tgt cause (Keeps.refl s)
  | transportAckTimeout p tgt => exact keeps_execTransportAckTimeout p tgt (Keeps.refl s)
  | cnpReceived p tgt => exact keeps_execCnpReceived p tgt (Keeps.refl s)
  | pourPortFail port => exact keeps_execPourPortFail port (Keeps.refl s)
  | pourPortReturn port => exact keeps_execPourPortReturn port (Keeps.refl s)
  | helloTimer => exact keeps_execHelloTimer (Keeps.refl s)
  | hello port id peerPort epoch isSwitch => exact keeps_execHello port id peerPort epoch isSwitch (Keeps.refl s)
  | epochMessage epoch => exact keeps_execEpochMessage epoch (Keeps.refl s)
  | prepare epoch => exact keeps_execPrepare epoch (Keeps.refl s)
  | commit epoch modules switches routes => exact keeps_execCommit epoch modules switches routes (Keeps.refl s)
  | fabricLinkPacket port header payload => exact keeps_execFabricLinkPacket port header payload (Keeps.refl s)
  | linkRetransmitTimeout port vc => exact keeps_execLinkRetransmitTimeout port vc (Keeps.refl s)
  | sPortStateChange port up => exact keeps_execSPortStateChange port up (Keeps.refl s)
  | laneFailure port lane => exact keeps_execLaneFailure port lane (Keeps.refl s)
  | fabricRecordSend t base => exact keeps_execFabricRecordSend t base (Keeps.refl s)
  | fabricRecordDeliver t record => exact keeps_execFabricRecordDeliver t record (Keeps.refl s)
  | groupFormTimeout g => exact keeps_execGroupFormTimeout g (Keeps.refl s)
  | inPassingReduction g joined sums => exact keeps_execInPassingReduction g joined sums (Keeps.refl s)
  | lagExchangeTimer g totals => exact keeps_execLagExchangeTimer g totals (Keeps.refl s)
  | lockstepPageCount p rank free => exact keeps_execLockstepPageCount p rank free (Keeps.refl s)
  | lockstepRowMaps p rpt rows => exact keeps_execLockstepRowMaps p rpt rows (Keeps.refl s)
  | lockstepRelease p => exact keeps_execLockstepRelease p (Keeps.refl s)
  | lockstepAbort p charged rows => exact keeps_execLockstepAbort p charged rows (Keeps.refl s)
  | heartbeatTimer => exact keeps_execHeartbeatTimer (Keeps.refl s)
  | heartbeat port timebase echoSent echoArrived => exact keeps_execHeartbeat port timebase echoSent echoArrived (Keeps.refl s)
  | heartbeatMissed => exact keeps_execHeartbeatMissed (Keeps.refl s)
  | aliveInTimeout => exact keeps_execAliveInTimeout (Keeps.refl s)
  | mirrorDelta d => exact keeps_execMirrorDelta d (Keeps.refl s)
  | mirrorAck n fails => exact keeps_execMirrorAck n fails (Keeps.refl s)
  | mirrorPortFail port => exact keeps_execMirrorPortFail port (Keeps.refl s)
  | mirrorPortReturn port => exact keeps_execMirrorPortReturn port (Keeps.refl s)
  | resyncExchange partner => exact keeps_execResyncExchange partner (Keeps.refl s)
  | sleep ticks => exact keeps_execSleep ticks (Keeps.refl s)
  | sleepConfirm => exact keeps_execSleepConfirm (Keeps.refl s)
  | pairReauth port partner => exact keeps_execPairReauth port partner (Keeps.refl s)
  | pairBindTimeout => exact keeps_execPairBindTimeout (Keeps.refl s)
  | wireFaultClear => exact keeps_execWireFaultClear (Keeps.refl s)
  | moduleFault code => exact keeps_execModuleFault code (Keeps.refl s)
  | controlCoreFail => exact keeps_execControlCoreFail (Keeps.refl s)
  | packageLost pkg => exact keeps_execPackageLost pkg (Keeps.refl s)
  | patrolScrubTick stripe bad => exact keeps_execPatrolScrubTick stripe bad (Keeps.refl s)
  | caddyWayDisable w => exact keeps_execCaddyWayDisable w (Keeps.refl s)
  | powerCapTick inp => exact keeps_execPowerCapTick inp (Keeps.refl s)
  | dieHot => exact keeps_execDieHot (Keeps.refl s)
  | dieHotClearTimeout => exact keeps_execDieHotClearTimeout (Keeps.refl s)
  | pwrBrakeN low => exact keeps_execPwrBrakeN low (Keeps.refl s)
  | currentLimit => exact keeps_execCurrentLimit (Keeps.refl s)
  | currentLimitTimeout => exact keeps_execCurrentLimitTimeout (Keeps.refl s)
  | thermalSample x => exact keeps_execThermalSample x (Keeps.refl s)
  | vinOutOfWindow mv => exact keeps_execVinOutOfWindow mv (Keeps.refl s)
  | railFault => exact keeps_execRailFault (Keeps.refl s)
  | leak => exact keeps_execLeak (Keeps.refl s)
  | wakeNExternal => exact keeps_execWakeNExternal (Keeps.refl s)
  | refclkLoss => exact keeps_execRefclkLoss (Keeps.refl s)
  | alarmFire n => exact keeps_execAlarmFire n (Keeps.refl s)
  | stateDwellExpiry scope => exact keeps_execStateDwellExpiry scope (Keeps.refl s)
  | wakeEvent scope source => exact keeps_execWakeEvent scope source (Keeps.refl s)
  | domainSwitchClose => exact keeps_execDomainSwitchClose (Keeps.refl s)
  | pinTestTimer above2V bridged => exact keeps_execPinTestTimer above2V bridged (Keeps.refl s)
  | pinReadbackMismatch pin => exact keeps_execPinReadbackMismatch pin (Keeps.refl s)
  | smbusHeldLowTimeout pin => exact keeps_execSmbusHeldLowTimeout pin (Keeps.refl s)
  | powerOn x => exact keeps_execPowerOn x (Keeps.refl s)
  | startupTimeout => exact keeps_execStartupTimeout (Keeps.refl s)
  | resetN x => exact keeps_execResetN x (Keeps.refl s)
  | perstN kind => exact keeps_execPerstN kind (Keeps.refl s)
  | flr vf => exact keeps_execFlr vf (Keeps.refl s)
  | a4Exit x => exact keeps_execA4Exit x (Keeps.refl s)
  | firmwareQueueDispatch => exact keeps_execFirmwareQueueDispatch (Keeps.refl s)
  | deadlinePassed e => exact keeps_execDeadlinePassed e (Keeps.refl s)
  | illegalOpcode t c w => exact keeps_execIllegalOpcode t c w (Keeps.refl s)
  | rnrNak p tgt => exact keeps_execRnrNak p tgt (Keeps.refl s)
  | rnrTimerExpiry p tgt => exact keeps_execRnrTimerExpiry p tgt (Keeps.refl s)
  | combiningBufferTimeout stripe => exact keeps_execCombiningBufferTimeout stripe (Keeps.refl s)
  | trainingRetryTimer port x => exact keeps_execTrainingRetryTimer port x (Keeps.refl s)
  | vinBackInside mv => exact keeps_execVinBackInside mv (Keeps.refl s)
  | leakNHigh => exact keeps_execLeakNHigh (Keeps.refl s)
  | currentLimitRelease => exact keeps_execCurrentLimitRelease (Keeps.refl s)
  | pairAliveInEdge => exact keeps_execPairAliveInEdge (Keeps.refl s)
  | neighbourTable id isSwitch nbrs => exact keeps_execNeighbourTable id isSwitch nbrs (Keeps.refl s)
  | prepareConfirmation id epoch => exact keeps_execPrepareConfirmation id epoch (Keeps.refl s)
  | spdmRequest r => exact keeps_execSpdmRequest r (Keeps.refl s)
  | pldmRequest r => exact keeps_execPldmRequest r (Keeps.refl s)
  | pmeTurnOff => exact keeps_execPmeTurnOff (Keeps.refl s)
  | vfEnable vf => exact keeps_execVfEnable vf (Keeps.refl s)
  | sidebandHeldTimeout pin => exact keeps_execSidebandHeldTimeout pin (Keeps.refl s)

theorem step_cons {s : State} {c : Instr} {rest : List Instr} (h : s.pending = c :: rest) :
    step s = exec c { s with pending := rest } := by
  rw [step, h]

theorem step_nil {s : State} (h : s.pending = []) : step s = .next (tick s) := by
  rw [step, h]

/-- The queue is no store. -/
theorem StoresOk.of_pending {s : State} (h : StoresOk s) (l : List Instr) : StoresOk { s with pending := l } :=
  ⟨h.push, h.logLen, h.logOrder, h.logSeq⟩

/-! ## The nanosecond -/

theorem tick_unpowered {s : State} (h : powered s = false) : tick s = s := by simp [tick, h]

theorem resumeStart_of_none {s : State} (h : s.mod.waitStart = none) : resumeStart s = s := by simp [resumeStart, h]

/-- A nanosecond in which no start-up goes on reaches the clocks, the partitions, the newts and the tiles alone. -/
theorem tick_frame {s : State} (h : s.mod.waitStart = none) :
    { tick s with pwr := s.pwr, parts := s.parts, iod := s.iod, tiles := s.tiles } = s := by
  unfold tick
  rw [resumeStart_of_none (s := { s with pwr := tickKettle s.pwr }) h]
  split
  · rfl
  · dsimp only
    split
    · rfl
    · split <;> rfl

theorem tickKettle_clocks (w : Power) :
    (tickKettle w).timebase = w.timebase ∧ (tickKettle w).dev = w.dev ∧ (tickKettle w).captured = w.captured := by
  unfold tickKettle
  dsimp only
  split <;> exact ⟨rfl, rfl, rfl⟩

/-- TIMEBASE counts every nanosecond while its clock runs (R403, R406). -/
theorem tick_timebase {s : State} (h : s.mod.waitStart = none) (hp : powered s = true) (hd : s.pwr.dev < 4)
    (hc : s.pwr.captured = none) : (tick s).pwr.timebase = s.pwr.timebase + 1 := by
  obtain ⟨htime, hdev, hcapt⟩ := tickKettle_clocks s.pwr
  unfold tick
  rw [if_neg (by simp [hp]), resumeStart_of_none (s := { s with pwr := tickKettle s.pwr }) h]
  dsimp only
  rw [if_neg (by simp [hdev, hcapt, hc, hd]), htime]
  split <;> rfl

/-! ## The statements -/

/-- Settles O4: a command keeps the stores by its own lemma, an empty queue by that of the nanosecond. -/
theorem everyStepKeepsTheStores : Obligations.EveryStepKeepsTheStores := by
  unfold Obligations.EveryStepKeepsTheStores
  intro s t hs hstep
  cases hp : s.pending with
  | nil =>
    rw [step_nil hp] at hstep
    injection hstep with ht
    exact ht ▸ (keeps_tick (Keeps.refl s)).stores hs
  | cons c rest =>
    rw [step_cons hp] at hstep
    exact (exec_okNext c _ t hstep).stores (hs.of_pending rest)

/-- Settles O3, by the lemma of each command. -/
theorem everyCommandKeepsTheQueue : Obligations.EveryCommandKeepsTheQueue :=
  fun c s t h => (exec_okNext c s t h).pending

/-- Settles O1: it is what `step` does with a queue that is not empty. -/
theorem stepRunsTheFrontCommand : Obligations.StepRunsTheFrontCommand :=
  fun _ _ _ h => step_cons h

/-- Settles O2, by the frame of the nanosecond and the course of TIMEBASE. -/
theorem emptyQueueIsATick : Obligations.EmptyQueueIsATick := by
  unfold Obligations.EmptyQueueIsATick
  intro s hp
  refine ⟨tick s, step_nil hp, (keeps_tick (Keeps.refl s)).pending.trans hp, fun hw => ?_⟩
  have hf := tick_frame hw
  exact ⟨(congrArg State.out hf :), (congrArg State.push hf :), (congrArg State.table hf :), (congrArg State.log hf :), (congrArg State.rings hf :),
    tick_timebase hw, tick_unpowered⟩

/-- Settles O5: push memory, the fault log and the queue are empty after reset. -/
theorem resetHasTheStores : Obligations.ResetHasTheStores :=
  ⟨⟨reset_push_wf, Nat.zero_le _, .nil, fun _ h => absurd h List.not_mem_nil⟩, rfl⟩

end Sys2Proof.Machine
end

section
/-! SUPPORT. Bit fields of a word (R5): what `setBits` and `setBit` write and leave. -/

namespace Sys2Proof.Machine

open Sys2Proof

section fields
variable {w : Nat} (x : BitVec w)

theorem getLsbD_setBits (hi lo v i : Nat) :
    (setBits x hi lo v).getLsbD i =
      if lo ≤ i ∧ i ≤ hi then decide (i < w) && v.testBit (i - lo) else x.getLsbD i := by
  simp only [setBits, BitVec.getLsbD_or, BitVec.getLsbD_and, BitVec.getLsbD_not, BitVec.getLsbD_ofNat, Nat.testBit_shiftLeft,
    Nat.testBit_two_pow_sub_one, Nat.testBit_mod_two_pow]
  by_cases hw : i < w
  · by_cases hlo : lo ≤ i
    · by_cases hhi : i ≤ hi
      · have hin : i - lo < hi + 1 - lo := by omega
        simp [hw, hlo, hhi, hin]
      · have hout : ¬ i - lo < hi + 1 - lo := by omega
        simp [hw, hhi, hout]
    · simp [hw, hlo]
  · simp [hw, BitVec.getLsbD_of_ge x i (by omega)]

theorem testBit_bits (hi lo i : Nat) : (bits x hi lo).testBit i = (decide (i < hi + 1 - lo) && x.getLsbD (lo + i)) := by
  rw [bits, Nat.testBit_mod_two_pow, Nat.testBit_shiftRight]
  rfl

theorem bits_lt (hi lo : Nat) : bits x hi lo < 2 ^ (hi + 1 - lo) := Nat.mod_lt _ (Nat.two_pow_pos _)

theorem bits_setBits_self {hi lo : Nat} (hhi : hi < w) (v : Nat) : bits (setBits x hi lo v) hi lo = v % 2 ^ (hi + 1 - lo) := by
  apply Nat.eq_of_testBit_eq
  intro i
  rw [testBit_bits, getLsbD_setBits, Nat.testBit_mod_two_pow]
  by_cases h : i < hi + 1 - lo
  · rw [if_pos (by omega), Nat.add_sub_cancel_left]
    have hi' : lo + i < w := by omega
    simp [hi']
  · simp [h]

/-- A field apart from the one written reads as before. -/
theorem bits_setBits_of_disjoint {hi lo hi' lo' : Nat} (h : hi < lo' ∨ hi' < lo) (v : Nat) : bits (setBits x hi' lo' v) hi lo = bits x hi lo := by
  apply Nat.eq_of_testBit_eq
  intro i
  rw [testBit_bits, testBit_bits, getLsbD_setBits]
  by_cases hi : i < hi + 1 - lo
  · rw [if_neg (by omega)]
  · simp [hi]

theorem bit_setBits_of_disjoint {i hi lo : Nat} (h : i < lo ∨ hi < i) (v : Nat) : bit (setBits x hi lo v) i = bit x i := by
  rw [bit, getLsbD_setBits, if_neg (by omega), bit]

theorem bit_setBit {i j : Nat} (b : Bool) : bit (setBit x j b) i = if i = j then decide (i < w) && b else bit x i := by
  rw [bit, setBit, getLsbD_setBits]
  by_cases h : i = j
  · subst h
    cases b <;> simp
  · rw [if_neg (by omega), if_neg h, bit]

end fields

end Sys2Proof.Machine
end

section
/-! SUPPORT. The scalar and register class (R147): what an accepted instruction writes and leaves, and the statements about
arithmetic, bounds, flags, masks, row maps and scratchpad accesses. -/

namespace Sys2Proof.Machine

open Sys2Proof

/-! ## Register writes of an accepted context -/

section registers
variable (k : Ctx)

theorem readS_writeS_accept (i : Nat) (v : Word64) (r : Nat) :
    readS (writeS (acceptCtx k) i v) r = if r = i ∧ r ≠ 0 then v else readS k r := by
  rw [readS_writeS]
  exact if_congr (and_congr_right fun h => by rw [h]) rfl rfl

theorem readB_writeB_accept (i : Nat) (v : Word32) (r : Nat) :
    readB (writeB (acceptCtx k) i v) r = if r = i ∧ r ≠ 0 then v else readB k r := by
  rw [readB_writeB]
  exact if_congr (and_congr_right fun h => by rw [h]) rfl rfl

theorem readM_writeM_accept (i : Nat) (v : BitVec 512) (r : Nat) :
    readM (writeM (acceptCtx k) i v) r = if r = i ∧ r ≠ 0 then v else readM k r := by
  rw [readM_writeM]
  exact if_congr (and_congr_right fun h => by rw [h]) rfl rfl

end registers

/-- The instruction wrote `v` to s[i] and went on. -/
structure WroteS (k k' : Ctx) (i : Nat) (v : Word64) : Prop where
  passed : Passed k k'
  b : SameB k k'
  m : SameM k k'
  s : ∀ r, readS k' r = if r = i ∧ r ≠ 0 then v else readS k r

theorem wroteS_accept (k : Ctx) (i : Nat) (v : Word64) : WroteS k (writeS (acceptCtx k) i v) i v :=
  ⟨(passed_acceptCtx k).writeS i v, readB_writeS _ i v, readM_writeS _ i v, readS_writeS_accept k i v⟩

/-- The instruction wrote `v` to b[i] and went on. -/
structure WroteB (k k' : Ctx) (i : Nat) (v : Word32) : Prop where
  passed : Passed k k'
  s : SameS k k'
  m : SameM k k'
  b : ∀ r, readB k' r = if r = i ∧ r ≠ 0 then v else readB k r

theorem wroteB_accept (k : Ctx) (i : Nat) (v : Word32) : WroteB k (writeB (acceptCtx k) i v) i v :=
  ⟨(passed_acceptCtx k).writeB i v, readS_writeB _ i v, readM_writeB _ i v, readB_writeB_accept k i v⟩

/-- The instruction wrote `v` to m[i] and went on. -/
structure WroteM (k k' : Ctx) (i : Nat) (v : BitVec 512) : Prop where
  passed : Passed k k'
  s : SameS k k'
  b : SameB k k'
  m : ∀ r, readM k' r = if r = i ∧ r ≠ 0 then v else readM k r

theorem wroteM_accept (k : Ctx) (i : Nat) (v : BitVec 512) : WroteM k (writeM (acceptCtx k) i v) i v :=
  ⟨(passed_acceptCtx k).writeM i v, readS_writeM _ i v, readB_writeM _ i v, readM_writeM_accept k i v⟩

section accept
variable {s : State} {t c op : Nat} {w : BitVec 120} {p : Nat} {part : Part} {g : Tile → Tile}
  (hctx : ∀ y, (g y).ctx = y.ctx) (hlend : ∀ y, (g y).lending = y.lending)
include hctx hlend

theorem accept_wroteS (i : Nat) (v : Word64) :
    let s' := (issOf s t c op w p part).accept (fun k => writeS k i v) g
    OnlyTile s s' t c ∧ WroteS (ctxOf s t c) (ctxOf s' t c) i v :=
  ⟨onlyTile_accept _ g hctx hlend, (ctxOf_accept_self _ g hctx : ctxOf _ t c = _) ▸ wroteS_accept _ i v⟩

theorem accept_wroteB (i : Nat) (v : Word32) :
    let s' := (issOf s t c op w p part).accept (fun k => writeB k i v) g
    OnlyTile s s' t c ∧ WroteB (ctxOf s t c) (ctxOf s' t c) i v :=
  ⟨onlyTile_accept _ g hctx hlend, (ctxOf_accept_self _ g hctx : ctxOf _ t c = _) ▸ wroteB_accept _ i v⟩

theorem accept_wroteM (i : Nat) (v : BitVec 512) :
    let s' := (issOf s t c op w p part).accept (fun k => writeM k i v) g
    OnlyTile s s' t c ∧ WroteM (ctxOf s t c) (ctxOf s' t c) i v :=
  ⟨onlyTile_accept _ g hctx hlend, (ctxOf_accept_self _ g hctx : ctxOf _ t c = _) ▸ wroteM_accept _ i v⟩

theorem accept_wentOn : let s' := (issOf s t c op w p part).accept id g
    OnlyTile s s' t c ∧ WentOn (ctxOf s t c) (ctxOf s' t c) :=
  ⟨onlyTile_accept _ g hctx hlend, (ctxOf_accept_self _ g hctx : ctxOf _ t c = _) ▸ wentOn_acceptCtx _⟩

end accept

/-! ## Arithmetic of R147 -/

section arithmetic
variable {n : Nat} (a b : BitVec n)

theorem ofNat_add_toNat : BitVec.ofNat n (a.toNat + b.toNat) = a + b := by simp [BitVec.ofNat_add]
theorem ofNat_mul_toNat : BitVec.ofNat n (a.toNat * b.toNat) = a * b := by simp [BitVec.ofNat_mul]
theorem ofInt_sub_toInt : BitVec.ofInt n (a.toInt - b.toInt) = a - b := by
  apply BitVec.eq_of_toInt_eq
  rw [BitVec.toInt_ofInt, BitVec.toInt_sub]
theorem ofNat_shiftLeft (j : Nat) : BitVec.ofNat n (a.toNat * 2 ^ j) = a <<< j := by
  apply BitVec.eq_of_toNat_eq
  rw [BitVec.toNat_ofNat, BitVec.toNat_shiftLeft, Nat.shiftLeft_eq]
theorem ofNat_shiftRight (j : Nat) : BitVec.ofNat n (a.toNat / 2 ^ j) = a >>> j := by
  apply BitVec.eq_of_toNat_eq
  rw [BitVec.toNat_ofNat, BitVec.toNat_ushiftRight, Nat.shiftRight_eq_div_pow, Nat.mod_eq_of_lt (Nat.lt_of_le_of_lt (Nat.div_le_self _ _) a.isLt)]
theorem ofInt_sshiftRight (j : Nat) : BitVec.ofInt n (a.toInt / 2 ^ j) = a.sshiftRight j := by
  rw [BitVec.sshiftRight, Int.shiftRight_eq_div_pow, Nat.cast_pow, Nat.cast_ofNat]
theorem ofInt_min_toInt : BitVec.ofInt n (min a.toInt b.toInt) = if a.toInt ≤ b.toInt then a else b := by
  rw [min_def]
  split <;> exact BitVec.ofInt_toInt
theorem ofInt_max_toInt : BitVec.ofInt n (max a.toInt b.toInt) = if a.toInt ≤ b.toInt then b else a := by
  rw [max_def]
  split <;> exact BitVec.ofInt_toInt

end arithmetic

/-- Each two-operand instruction is `scalarOp` of its row's value. -/
theorem exec_scalarRows {t : Fin 64} {c : Fin 4} {w : BitVec 120} (s : State) : ∀ q ∈ scalarRows t c w,
    exec q.1 s = scalarOp s t c q.2.1 w (fun i => q.2.2 i.ra i.rb i.imm) := by
  simp only [scalarRows, List.forall_mem_cons, List.not_mem_nil, false_imp_iff, implies_true, and_true, ofNat_add_toNat, ofNat_mul_toNat,
    ofInt_sub_toInt, ofNat_shiftLeft, ofNat_shiftRight, ofInt_sshiftRight, ofInt_min_toInt, ofInt_max_toInt]
  refine ⟨rfl, rfl, rfl, rfl, rfl, rfl, rfl, rfl, rfl, rfl, ?_, ?_⟩ <;> simp only [exec, execSmin, execSmax, sle, decide_eq_true_eq]

theorem scalarOp_atHead {t : Fin 64} {c : Fin 4} {op : Nat} {w : BitVec 120} {s : State} {p : Nat} {part : Part}
    (h : AtHead s t c op w [(63, 24)] p part) (f : Iss → Word64) :
    scalarOp s t c op w f =
      .next ((issOf s t c op w p part).accept (fun k => writeS k (issOf s t c op w p part).rd (f (issOf s t c op w p part))) id) :=
  issue_go h noRows _ rfl

/-- Settles O6: every row is `scalarOp` of its value, and an accepted `scalarOp` writes that value to s[D]. -/
theorem scalarArithmetic : Obligations.ScalarArithmetic := by
  unfold Obligations.ScalarArithmetic
  intro t c w s p part q hq hhead v k b
  obtain ⟨honly, hwrote⟩ := accept_wroteS (s := s) (t := t) (c := c) (op := q.2.1) (w := w) (p := p) (part := part) (g := id) (fun _ => rfl) (fun _ => rfl)
    (bits v 12 8) (q.2.2 (readS k (bits v 17 13)) b (v.extractLsb' 64 64))
  exact ⟨_, (exec_scalarRows s q hq).trans (scalarOp_atHead hhead _), honly, sameUnits_accept _, hwrote.passed, hwrote.b, hwrote.m, hwrote.s⟩

/-! ## What an accepted instruction of the class answers -/

section exec
variable {s : State} {t : Fin 64} {c : Fin 4} {w : BitVec 120} {p : Nat} {part : Part}

theorem exec_bset (h : AtHead s t c 0x2E w [(63, 24)] p part) :
    let v := wordOf w 0x2E
    exec (.bset t c w) s = .next ((issOf s t c 0x2E w p part).accept
      (fun k => writeB k (bits v 11 8) (BitVec.ofNat 32 (min (max ((readS (ctxOf s t c) (bits v 17 13)).toInt + (v.extractLsb' 64 64).toInt) 0) 0xFFFFFFFF).toNat)) id) := by
  show execBset t c w s = _
  exact issue_go h noRows _ rfl

theorem exec_frd (h : AtHead s t c 0x33 w [(63, 24)] p part) :
    let v := wordOf w 0x33
    exec (.frd t c w) s = .next ((issOf s t c 0x33 w p part).accept
      (fun k => writeS k (bits v 12 8) ((getFlag (getTile s t) ((v.extractLsb' 64 64).toNat % 256)).setWidth 64)) id) := by
  show execFrd t c w s = _
  exact scalarOp_atHead h _

theorem exec_mrng (h : AtHead s t c 0x31 w [(63, 24)] p part) :
    let v := wordOf w 0x31
    let k := ctxOf s t c
    let b := if v.getLsbD 23 then v.extractLsb' 64 64 else readS k (bits v 22 18)
    exec (.mrng t c w) s = .next ((issOf s t c 0x31 w p part).accept
      (fun k' => writeM k' (bits v 10 8) (maskOf (fun n => decide ((readS k (bits v 17 13)).toInt ≤ n) && decide ((n : Int) < b.toInt)))) id) := by
  show execMrng t c w s = _
  exact issue_go h noRows _ rfl

theorem mapCheck_go {i : Iss} {l : List (Nat × Nat)} (h : poisoned i.x l = none) : mapCheck i l = .go := by simp [mapCheck, h]

theorem exec_rmap (h : AtHead s t c 0x32 w [(63, 24)] p part) (hclean : poisoned (getTile s t) (rmapRanges (issOf s t c 0x32 w p part)) = none) :
    let v := wordOf w 0x32
    exec (.rmap t c w) s = .next ((issOf s t c 0x32 w p part).accept
      (fun k => writeS k (bits v 12 8) (rowWord (getTile s t) part (readS (ctxOf s t c) (bits v 17 13)).toNat))
      (fun x => correctReads x (rmapRanges (issOf s t c 0x32 w p part)))) := by
  show execRmap t c w s = _
  exact issue_go h noRows _ (mapCheck_go hclean)

theorem exec_sld (h : AtHead s t c 0x2C w [(63, 24)] p part) :
    let v := wordOf w 0x2C
    let i := issOf s t c 0x2C w p part
    let a := (readS (ctxOf s t c) (bits v 17 13) + v.extractLsb' 64 64).toNat
    wordCheck i a 8 8 false = .go →
    exec (.sld t c w) s =
      .next (i.accept (fun k => writeS k (bits v 12 8) (readLE (getTile s t).spad (wordAddr i a 8 false) 8 64)) (wordRead i a 8)) := by
  intro v i a hcheck
  show execSld t c w s = _
  exact issue_go h noRows _ hcheck

theorem exec_mld (h : AtHead s t c 0x2F w [(63, 24)] p part) :
    let v := wordOf w 0x2F
    let i := issOf s t c 0x2F w p part
    let a := (readS (ctxOf s t c) (bits v 17 13)).toNat
    wordCheck i a 64 1 false = .go →
    exec (.mld t c w) s =
      .next (i.accept (fun k => writeM k (bits v 10 8) (readLE (getTile s t).spad (wordAddr i a 64 false) 64 512)) (wordRead i a 64)) := by
  intro v i a hcheck
  show execMld t c w s = _
  exact issue_go h noRows _ hcheck

theorem exec_sst (h : AtHead s t c 0x2D w [(63, 24)] p part) :
    let v := wordOf w 0x2D
    let i := issOf s t c 0x2D w p part
    let a := (readS (ctxOf s t c) (bits v 17 13) + v.extractLsb' 64 64).toNat
    wordCheck i a 8 8 true = .go →
    exec (.sst t c w) s = .next (i.accept id (wordWrite i a (natToBytes 8 (readS (ctxOf s t c) (bits v 12 8)).toNat))) := by
  intro v i a hcheck
  show execSst t c w s = _
  exact issue_go h noRows _ hcheck

theorem exec_mst (h : AtHead s t c 0x30 w [(63, 24)] p part) :
    let v := wordOf w 0x30
    let i := issOf s t c 0x30 w p part
    let a := (readS (ctxOf s t c) (bits v 17 13)).toNat
    wordCheck i a 64 1 true = .go →
    exec (.mst t c w) s = .next (i.accept id (wordWrite i a (natToBytes 64 (readM (ctxOf s t c) (bits v 10 8)).toNat))) := by
  intro v i a hcheck
  show execMst t c w s = _
  exact issue_go h noRows _ hcheck

end exec

/-! ## Bounds, flags, masks and row maps -/

theorem toNat_clamp (z : Int) : ((BitVec.ofNat 32 (min (max z 0) 0xFFFFFFFF).toNat).toNat : Int) = min (max z 0) (2 ^ 32 - 1) := by
  rw [BitVec.toNat_ofNat]
  omega

theorem bits_imm_low (v : BitVec 128) : (v.extractLsb' 64 64).toNat % 256 = bits v 71 64 := by
  simp [bits, Nat.shiftRight_eq_div_pow]

section maps
variable {s : State} {t : Fin 64} {c : Fin 4} {op : Nat} {w : BitVec 120} {p : Nat} {part : Part}

/-- A read of the scratchpad's words leaves the tile as it was but for their single-bit errors. -/
theorem correctReads_accept_frame (f : Ctx → Ctx) (l : List (Nat × Nat)) :
    { getTile ((issOf s t c op w p part).accept f (fun x => correctReads x l)) t with
      ctx := (getTile s t).ctx, lending := (getTile s t).lending, oneBit := (getTile s t).oneBit, spadStatus := (getTile s t).spadStatus } = getTile s t := by
  rw [getTile_accept, if_pos rfl]
  rfl

/-- MVALID and MSEG, by the test they put to a row's entry. -/
theorem rowMask_spec (h : AtHead s t c op w [(63, 24)] p part) (hclean : poisoned (getTile s t) (mapRanges (issOf s t c op w p part)) = none)
    (f : Word64 → Bool) :
    let v := wordOf w op
    let k := ctxOf s t c
    let x := getTile s t
    let rpt := (part.running.map (·.rpt)).getD 0
    let row := fun (n : Nat) => (readS k (bits v 17 13)).toInt + n
    ∃ s', issue s t c op w scalarRsv (fun i => mapCheck i (mapRanges i)) noRows
        (fun i => i.accept (fun k => writeM k (i.bits 10 8) (maskOf (rowTest i f))) (fun x => correctReads x (mapRanges i))) = .next s' ∧
      OnlyTile s s' t c ∧ { getTile s' t with ctx := x.ctx, lending := x.lending, oneBit := x.oneBit, spadStatus := x.spadStatus } = x ∧
      Passed k (ctxOf s' t c) ∧ SameS k (ctxOf s' t c) ∧ SameB k (ctxOf s' t c) ∧
      ∀ r n, n < 512 → (readM (ctxOf s' t c) r).getLsbD n =
        if r = bits v 10 8 ∧ r ≠ 0 then decide (0 ≤ row n ∧ row n < rpt) && f (rowWord x part (row n).toNat) else (readM k r).getLsbD n := by
  intro v k x rpt row
  have hissue := issue_go h (check := fun i => mapCheck i (mapRanges i)) noRows (fun i => i.accept (fun k => writeM k (i.bits 10 8) (maskOf (rowTest i f))) (fun x => correctReads x (mapRanges i)))
    (mapCheck_go hclean)
  obtain ⟨honly, hwrote⟩ := accept_wroteM (s := s) (t := t) (c := c) (op := op) (w := w) (p := p) (part := part)
    (g := fun x => correctReads x (mapRanges (issOf s t c op w p part))) (fun _ => rfl) (fun _ => rfl) (bits v 10 8) (maskOf (rowTest (issOf s t c op w p part) f))
  refine ⟨_, hissue, honly, correctReads_accept_frame _ _, hwrote.passed, hwrote.s, hwrote.b, fun r n hn => ?_⟩
  have htest : rowTest (issOf s t c op w p part) f n = (decide (0 ≤ row n ∧ row n < rpt) && f (rowWord x part (row n).toNat)) := by
    rw [Bool.decide_and]; rfl
  refine (congrArg (·.getLsbD n) (hwrote.m r)).trans ?_
  split
  · exact (maskOf_get _ _ hn).trans htest
  · rfl

end maps

/-- Settles O7, row by row: each instruction writes one register of an accepted context. -/
theorem boundsFlagRangeAndRowMapInstructions : Obligations.BoundsFlagRangeAndRowMapInstructions := by
  unfold Obligations.BoundsFlagRangeAndRowMapInstructions
  refine ⟨fun t c w s p part => ⟨?bset, ?frd, ?mrng⟩, fun t c w s p part => ?maps⟩
  case bset =>
    intro h v k sum
    obtain ⟨honly, hwrote⟩ := accept_wroteB (s := s) (t := t) (c := c) (op := 0x2E) (w := w) (p := p) (part := part) (g := id) (fun _ => rfl) (fun _ => rfl)
      (bits v 11 8) (BitVec.ofNat 32 (min (max sum 0) 0xFFFFFFFF).toNat)
    refine ⟨_, exec_bset h, honly, sameUnits_accept _, hwrote.passed, hwrote.s, hwrote.m, fun r => ?_⟩
    rw [hwrote.b]
    split
    · exact toNat_clamp sum
    · rfl
  case frd =>
    intro h v k
    obtain ⟨honly, hwrote⟩ := accept_wroteS (s := s) (t := t) (c := c) (op := 0x33) (w := w) (p := p) (part := part) (g := id) (fun _ => rfl) (fun _ => rfl)
      (bits v 12 8) ((getFlag (getTile s t) ((v.extractLsb' 64 64).toNat % 256)).setWidth 64)
    refine ⟨_, exec_frd h, honly, sameUnits_accept _, hwrote.passed, hwrote.b, hwrote.m, fun r => ?_⟩
    rw [hwrote.s, bits_imm_low]
    split
    · exact BitVec.toNat_setWidth_of_le (by decide)
    · rfl
  case mrng =>
    intro h v k b
    obtain ⟨honly, hwrote⟩ := accept_wroteM (s := s) (t := t) (c := c) (op := 0x31) (w := w) (p := p) (part := part) (g := id) (fun _ => rfl) (fun _ => rfl)
      (bits v 10 8) (maskOf (fun n => decide ((readS k (bits v 17 13)).toInt ≤ n) && decide ((n : Int) < b.toInt)))
    refine ⟨_, exec_mrng h, honly, sameUnits_accept _, hwrote.passed, hwrote.s, hwrote.b, fun r n hn => ?_⟩
    rw [hwrote.m]
    split
    · rw [maskOf_get _ _ hn, Bool.decide_and]
    · rfl
  case maps =>
    refine ⟨?_, fun h hclean => ?rmap⟩
    · simp only [List.forall_mem_cons, List.not_mem_nil, false_imp_iff, implies_true, and_true]
      exact ⟨fun h hclean => rowMask_spec h hclean rowValidBit, fun h hclean => rowMask_spec h hclean (fun e => rowValidBit e && rowSegStart e)⟩
    case rmap =>
      intro v k
      obtain ⟨honly, hwrote⟩ := accept_wroteS (s := s) (t := t) (c := c) (op := 0x32) (w := w) (p := p) (part := part)
        (g := fun x => correctReads x (rmapRanges (issOf s t c 0x32 w p part))) (fun _ => rfl) (fun _ => rfl)
        (bits v 12 8) (rowWord (getTile s t) part (readS k (bits v 17 13)).toNat)
      exact ⟨_, exec_rmap h hclean, honly, correctReads_accept_frame _ _, hwrote.passed, hwrote.b, hwrote.m, hwrote.s⟩

/-! ## Scratchpad accesses -/

theorem headClaims_frame (x : Tile) (c : Nat) (l : List Opnd) :
    { headClaims x c l with tags := x.tags, circs := x.circs, claims := x.claims, nextOp := x.nextOp } = x := by
  have h := (claimsOnly_makeClaims l (headOp x c) c false x).trans (claimsOnly_retryClaims _ (headOp x c))
  exact congrArg (fun y : Tile => { y with nextOp := x.nextOp }) h

/-- What a scratchpad read leaves of its tile (R161, R167, R173). -/
theorem wordRead_frame (i : Iss) (a n : Nat) (x : Tile) :
    { wordRead i a n x with oneBit := x.oneBit, spadStatus := x.spadStatus, tags := x.tags, circs := x.circs, claims := x.claims,
                            flags := x.flags, tracks := x.tracks, nextOp := x.nextOp } = x := by
  have hdone := completesOnly_completeOp (headClaims x i.c [wordOpnd a n false]) (headOp x i.c)
  have hhead := headClaims_frame x i.c [wordOpnd a n false]
  unfold CompletesOnly at hdone
  unfold wordRead
  generalize completeOp _ _ = z at hdone ⊢
  generalize headClaims _ _ _ = y at hdone hhead
  rw [← hhead, ← hdone]
  rfl

/-- What a scratchpad write leaves of its tile (R161, R167, R173). -/
theorem wordWrite_frame (i : Iss) (a : Nat) (l : List Byte) (x : Tile) :
    { wordWrite i a l x with spad := x.spad, poison := x.poison, oneBit := x.oneBit, twoBit := x.twoBit, tags := x.tags, circs := x.circs,
                             claims := x.claims, flags := x.flags, tracks := x.tracks, nextOp := x.nextOp } = x := by
  have hdone := completesOnly_completeOp (headClaims x i.c [wordOpnd a l.length true]) (headOp x i.c)
  have hhead := headClaims_frame x i.c [wordOpnd a l.length true]
  unfold CompletesOnly at hdone
  unfold wordWrite
  generalize completeOp _ _ = z at hdone ⊢
  generalize headClaims _ _ _ = y at hdone hhead
  rw [← hhead, ← hdone]
  rfl

theorem wordWrite_spad (i : Iss) (a : Nat) (l : List Byte) (x : Tile) :
    (wordWrite i a l x).spad = writeBytes x.spad (wordAddr i a l.length true) l := by
  have hdone := completesOnly_completeOp (headClaims x i.c [wordOpnd a l.length true]) (headOp x i.c)
  have hspad : (completeOp (headClaims x i.c [wordOpnd a l.length true]) (headOp x i.c)).spad = x.spad :=
    (congrArg Tile.spad hdone : _).trans (congrArg Tile.spad (headClaims_frame x i.c [wordOpnd a l.length true]) : _)
  rw [← hspad]
  rfl

theorem toNat_readLE (m : SMap 8) (a n w : Nat) (h : 8 * n ≤ w) :
    (readLE m a n w).toNat = ((List.range n).map (fun j => (smGet m (a + j)).toNat * 256 ^ j)).sum := by
  have hlt := bytesToNat_lt (readBytes m a n)
  rw [readBytes_length, show (256 : Nat) = 2 ^ 8 from rfl, ← pow_mul] at hlt
  rw [readLE, BitVec.toNat_ofNat, Nat.mod_eq_of_lt (hlt.trans_le (Nat.pow_le_pow_right (by omega) h)), bytesToNat_readBytes]

section accesses
variable {s : State} {t : Fin 64} {c : Fin 4} {op : Nat} {w : BitVec 120} {p : Nat} {part : Part}

/-- The bytes of the scratchpad after an accepted write of the number `v` in `n` bytes. -/
theorem smGet_wordWrite_natToBytes (i : Iss) (a n v : Nat) (x : Tile) (b : Nat) :
    (smGet (wordWrite i a (natToBytes n v) x).spad b).toNat =
      if wordAddr i a n true ≤ b ∧ b < wordAddr i a n true + n then v / 256 ^ (b - wordAddr i a n true) % 256 else (smGet x.spad b).toNat := by
  rw [wordWrite_spad, smGet_writeBytes, natToBytes_length]
  split
  · next h => exact natToBytes_get n v _ (by omega)
  · rfl

/-- An accepted scratchpad read that writes `v` to s[i], or to m[i]: the frame of the tile. -/
theorem wordRead_accept_frame (f : Ctx → Ctx) (a n : Nat) :
    let x := getTile s t
    { getTile ((issOf s t c op w p part).accept f (wordRead (issOf s t c op w p part) a n)) t with
      ctx := x.ctx, lending := x.lending, oneBit := x.oneBit, spadStatus := x.spadStatus, tags := x.tags, circs := x.circs, claims := x.claims,
      flags := x.flags, tracks := x.tracks, nextOp := x.nextOp } = x := by
  intro x
  rw [getTile_accept, if_pos rfl]
  have h := wordRead_frame (issOf s t c op w p part) a n (modCtx { x with lending := false } c (fun k => f (acceptCtx k)))
  exact congrArg (fun y : Tile => { y with ctx := x.ctx, lending := x.lending }) h

theorem wordRead_ctx (i : Iss) (a n : Nat) (x : Tile) : (wordRead i a n x).ctx = x.ctx := (congrArg Tile.ctx (wordRead_frame i a n x) :)
theorem wordRead_lending (i : Iss) (a n : Nat) (x : Tile) : (wordRead i a n x).lending = x.lending := (congrArg Tile.lending (wordRead_frame i a n x) :)
theorem wordWrite_ctx (i : Iss) (a : Nat) (l : List Byte) (x : Tile) : (wordWrite i a l x).ctx = x.ctx := (congrArg Tile.ctx (wordWrite_frame i a l x) :)
theorem wordWrite_lending (i : Iss) (a : Nat) (l : List Byte) (x : Tile) : (wordWrite i a l x).lending = x.lending :=
  (congrArg Tile.lending (wordWrite_frame i a l x) :)

theorem wordWrite_accept_frame (a : Nat) (l : List Byte) :
    let x := getTile s t
    { getTile ((issOf s t c op w p part).accept id (wordWrite (issOf s t c op w p part) a l)) t with
      ctx := x.ctx, lending := x.lending, spad := x.spad, poison := x.poison, oneBit := x.oneBit, twoBit := x.twoBit, tags := x.tags, circs := x.circs,
      claims := x.claims, flags := x.flags, tracks := x.tracks, nextOp := x.nextOp } = x := by
  intro x
  rw [getTile_accept, if_pos rfl]
  have h := wordWrite_frame (issOf s t c op w p part) a l (modCtx { x with lending := false } c (fun k => id (acceptCtx k)))
  exact congrArg (fun y : Tile => { y with ctx := x.ctx, lending := x.lending }) h

/-- The bytes after an accepted SST or MST. -/
theorem smGet_accept_wordWrite (a n v b : Nat) :
    let i := issOf s t c op w p part
    (smGet (getTile (i.accept id (wordWrite i a (natToBytes n v))) t).spad b).toNat =
      if wordAddr i a n true ≤ b ∧ b < wordAddr i a n true + n then v / 256 ^ (b - wordAddr i a n true) % 256 else (smGet (getTile s t).spad b).toNat := by
  intro i
  rw [getTile_accept, if_pos rfl]
  exact smGet_wordWrite_natToBytes i a n v _ b

end accesses

/-- Settles O8: a read writes one register from the bytes at its claimed address, a write puts the register's bytes there. -/
theorem scratchpadAccesses : Obligations.ScratchpadAccesses := by
  unfold Obligations.ScratchpadAccesses
  refine ⟨fun t c w s p part => ⟨?sld, ?mld⟩, fun t c w s p part => ⟨?sst, ?mst⟩⟩
  case sld =>
    intro h v i k a hcheck
    obtain ⟨honly, hwrote⟩ := accept_wroteS (s := s) (t := t) (c := c) (op := 0x2C) (w := w) (p := p) (part := part) (wordRead_ctx i a 8) (wordRead_lending i a 8)
      (bits v 12 8) (readLE (getTile s t).spad (wordAddr i a 8 false) 8 64)
    refine ⟨_, exec_sld h hcheck, honly, wordRead_accept_frame _ _ _, hwrote.passed, hwrote.b, hwrote.m, fun r => ?_⟩
    rw [hwrote.s]
    split
    · exact toNat_readLE _ _ _ _ (by decide)
    · rfl
  case mld =>
    intro h v i k a hcheck
    obtain ⟨honly, hwrote⟩ := accept_wroteM (s := s) (t := t) (c := c) (op := 0x2F) (w := w) (p := p) (part := part) (wordRead_ctx i a 64) (wordRead_lending i a 64)
      (bits v 10 8) (readLE (getTile s t).spad (wordAddr i a 64 false) 64 512)
    refine ⟨_, exec_mld h hcheck, honly, wordRead_accept_frame _ _ _, hwrote.passed, hwrote.s, hwrote.b, fun r => ?_⟩
    rw [hwrote.m]
    split
    · exact toNat_readLE _ _ _ _ (by decide)
    · rfl
  case sst =>
    intro h v i k a hcheck
    obtain ⟨honly, hwent⟩ := accept_wentOn (s := s) (t := t) (c := c) (op := 0x2D) (w := w) (p := p) (part := part)
      (wordWrite_ctx i a (natToBytes 8 (readS k (bits v 12 8)).toNat)) (wordWrite_lending i a _)
    exact ⟨_, exec_sst h hcheck, honly, wordWrite_accept_frame _ _, hwent, fun b => smGet_accept_wordWrite _ _ _ b⟩
  case mst =>
    intro h v i k a hcheck
    obtain ⟨honly, hwent⟩ := accept_wentOn (s := s) (t := t) (c := c) (op := 0x30) (w := w) (p := p) (part := part)
      (wordWrite_ctx i a (natToBytes 64 (readM k (bits v 10 8)).toNat)) (wordWrite_lending i a _)
    exact ⟨_, exec_mst h hcheck, honly, wordWrite_accept_frame _ _, hwent, fun b => smGet_accept_wordWrite _ _ _ b⟩

end Sys2Proof.Machine
end

section
/-! SUPPORT. The control class (R148, R149): jumps, loops and the end of a task, and the statement about them. -/

namespace Sys2Proof.Machine

open Sys2Proof

section accept
variable {s : State} {t c op : Nat} {w : BitVec 120} {p : Nat} {part : Part}

/-- An accepted instruction that changes its context alone. -/
theorem accept_ctx (f : Ctx → Ctx) :
    let s' := (issOf s t c op w p part).accept f id
    OnlyTile s s' t c ∧ SameUnits (getTile s t) (getTile s' t) ∧ ctxOf s' t c = f (acceptCtx (ctxOf s t c)) :=
  ⟨onlyTile_accept f id (fun _ => rfl) (fun _ => rfl), sameUnits_accept f, ctxOf_accept_self f id (fun _ => rfl)⟩

/-- A context that the instruction did not come from is as before. -/
theorem ctxOf_of_onlyTile {s' : State} (h : OnlyTile s s' t c) {u d : Nat} (hne : u ≠ t ∨ d ≠ c) : ctxOf s' u d = ctxOf s u d := by
  by_cases hu : u = t
  · subst hu
    exact h.ctxs d (hne.resolve_left fun hn => hn rfl)
  · rw [ctxOf, h.others u hu, ctxOf]

end accept

/-! ## Jumps -/

theorem leaveLoops_eq_dropWhile (target : Nat) (l : List LoopFrame) :
    leaveLoops target l = l.dropWhile (fun f => !(decide (f.first ≤ target) && decide (target < f.after))) := by
  induction l with
  | nil => rfl
  | cons f r ih =>
    rw [leaveLoops, List.dropWhile_cons]
    by_cases h : f.first ≤ target ∧ target < f.after
    · simp [h]
    · rw [if_neg h, ih, if_pos (by simp; omega)]

theorem jumped_jumpCtx (k : Ctx) (target : Nat) : Jumped k (jumpCtx k target) target :=
  ⟨rfl, ⟨rfl, rfl⟩, rfl, rfl, leaveLoops_eq_dropWhile target k.loops, fun _ => rfl, fun _ => rfl, fun _ => rfl⟩

theorem targetCheck_go {i : Iss} {a : Int} {target : Nat} (ha : (target : Int) = a) (h : fetchOk i.x target = true) : targetCheck i a = .go := by
  subst ha
  have hneg : ¬ (target : Int) < 0 := by omega
  simp [targetCheck, excIf, h, hneg]

/-- COND of BR by its place in the table of R148. -/
theorem brHolds_of_getElem? {n : Nat} {a b : Word64} {taken : Bool}
    (h : [decide (a = b), decide (a ≠ b), decide (a.toInt < b.toInt), decide (b.toInt ≤ a.toInt), decide (a.toNat < b.toNat), decide (b.toNat ≤ a.toNat)][n]? = some taken) :
    n ≤ 5 ∧ brHolds n a b = taken := by
  obtain ⟨hn, h⟩ := List.getElem?_eq_some_iff.1 h
  simp only [List.length_cons, List.length_nil] at hn
  refine ⟨by omega, ?_⟩
  subst h
  interval_cases n <;> rfl

/-! ## What an accepted instruction of the class answers -/

section exec
variable {s : State} {t : Fin 64} {c : Fin 4} {w : BitVec 120} {p : Nat} {part : Part}

theorem exec_nopInstruction (h : AtHead s t c 0x00 w [(127, 8)] p part) :
    exec (.nopInstruction t c w) s = .next ((issOf s t c 0x00 w p part).accept id id) := by
  show execNopInstruction t c w s = _
  exact issue_go h noRows _ rfl

theorem exec_jmp (h : AtHead s t c 0x02 w [(127, 32)] p part) {target : Nat}
    (htarget : (target : Int) = (ctxOf s t c).pc + 16 * (BitVec.ofNat 24 (bits (wordOf w 0x02) 31 8)).toInt) (hfetch : fetchOk (getTile s t) target = true) :
    exec (.jmp t c w) s = .next ((issOf s t c 0x02 w p part).accept (fun _ => jumpCtx (ctxOf s t c) target) id) := by
  show execJmp t c w s = _
  have hjump : jumpTarget (issOf s t c 0x02 w p part) (signed 24 ((issOf s t c 0x02 w p part).bits 31 8)) = target := htarget.symm
  rw [execJmp, issue_go h _ _ (targetCheck_go hjump.symm hfetch), hjump]
  rfl

theorem brCheck_go {i : Iss} (hcond : i.bits 20 18 ≤ 5) (v : Verdict) : firstOf [illegalIf (decide (5 < i.bits 20 18)) 0 20 18, v] = firstOf [v] := by
  have hgo : illegalIf (decide (5 < i.bits 20 18)) 0 20 18 = .go := by simp [illegalIf, Nat.not_lt.2 hcond]
  rw [hgo]
  rfl

theorem exec_br_notTaken (h : AtHead s t c 0x03 w [(31, 21), (127, 64)] p part) (hcond : (issOf s t c 0x03 w p part).bits 20 18 ≤ 5)
    (htaken : brTaken (issOf s t c 0x03 w p part) = false) : exec (.br t c w) s = .next ((issOf s t c 0x03 w p part).accept id id) := by
  show execBr t c w s = _
  rw [execBr, issue_go h, htaken]
  · rfl
  · rw [brCheck_go hcond, htaken]
    rfl

theorem exec_br_taken (h : AtHead s t c 0x03 w [(31, 21), (127, 64)] p part) (hcond : (issOf s t c 0x03 w p part).bits 20 18 ≤ 5)
    (htaken : brTaken (issOf s t c 0x03 w p part) = true) {target : Nat}
    (htarget : (target : Int) = (ctxOf s t c).pc + 16 * (BitVec.ofNat 32 (bits (wordOf w 0x03) 63 32)).toInt) (hfetch : fetchOk (getTile s t) target = true) :
    exec (.br t c w) s = .next ((issOf s t c 0x03 w p part).accept (fun _ => jumpCtx (ctxOf s t c) target) id) := by
  show execBr t c w s = _
  have hjump : brTarget (issOf s t c 0x03 w p part) = target := htarget.symm
  rw [execBr, issue_go h, if_pos htaken, hjump]
  · rfl
  · rw [brCheck_go hcond, if_pos htaken, targetCheck_go hjump.symm hfetch]
    rfl

theorem loopCtx_of_ne_zero {i : Iss} (h : (i.reg (i.bits 12 8)).toNat ≠ 0) :
    loopCtx i = { i.k with
      st := .running, cause := 0, object := 0, pc := i.k.pc + 16,
      loops := { first := i.k.pc + 16, after := loopAfter i, left := (i.reg (i.bits 12 8)).toNat } :: i.k.loops } := if_neg h

theorem loopCtx_of_eq_zero {i : Iss} (h : (i.reg (i.bits 12 8)).toNat = 0) :
    loopCtx i = { i.k with
      st := .running, cause := 0, object := 0, pc := (nextPc (loopAfter i) i.k.loops).1, loops := (nextPc (loopAfter i) i.k.loops).2 } := if_pos h

theorem exec_loop (h : AtHead s t c 0x04 w [(15, 13), (127, 32)] p part) (hbody : bits (wordOf w 0x04) 31 16 ≠ 0)
    (hroom : (ctxOf s t c).loops.length < 4 ∨ (readS (ctxOf s t c) (bits (wordOf w 0x04) 12 8)).toNat = 0) :
    exec (.loop t c w) s = .next ((issOf s t c 0x04 w p part).accept (fun _ => loopCtx (issOf s t c 0x04 w p part)) id) := by
  show execLoop t c w s = _
  refine issue_go h noRows _ ?_
  have hlegal : illegalIf (decide ((issOf s t c 0x04 w p part).bits 31 16 = 0)) 0 31 16 = .go := by
    rw [illegalIf, if_neg]
    exact fun hz => hbody (of_decide_eq_true hz)
  have hdeep : (decide (4 ≤ (ctxOf s t c).loops.length) && decide ((readS (ctxOf s t c) (bits (wordOf w 0x04) 12 8)).toNat ≠ 0)) = false := by
    rcases hroom with h4 | h0
    · simp [h4]
    · simp [h0]
  show firstOf [_, excIf (_ && _) 0x0A 5 _] = _
  rw [hlegal]
  exact congrArg (fun b => firstOf [.go, excIf b 0x0A 5 (ctxOf s t c).pc]) hdeep

theorem openSlots_eq_zero {x : Tile} (h : ∀ i < 4, (getSlot x i).st ≠ .free → (getSlot x i).owner ≠ c) : openSlots x c = 0 := by
  rw [openSlots, List.sum_eq_zero_iff]
  intro n hn
  obtain ⟨i, hi, rfl⟩ := List.mem_map.1 hn
  exact if_neg fun hopen => h i (List.mem_range.1 hi) hopen.1 hopen.2

/-- The state once END is accepted. -/
def endedState (i : Iss) : State := i.accept (fun k => { k with st := .ended, loops := [], atEnd := false }) id

theorem exec_endI (h : AtHead s t c 0x01 w [(127, 8)] p part) (hdone : earlierDone (getTile s t) c = true) (hopen : openSlots (getTile s t) c = 0)
    (hgoes : part.phase = .none ∨ allEnded (endedState (issOf s t c 0x01 w p part)) part = false) :
    exec (.endI t c w) s = .next (endedState (issOf s t c 0x01 w p part)) := by
  show execEndI t c w s = _
  rw [execEndI, issue_go h]
  · refine congrArg Host.Outcome.next (if_neg fun hlast => ?_)
    rcases hgoes with hnone | hsome
    · exact hlast.1 hnone
    · exact absurd (hsome.symm.trans hlast.2) (by decide)
  · show (if (!earlierDone (getTile s t) c) = true then Verdict.stay else if openSlots (getTile s t) c ≠ 0 then _ else Verdict.go) = .go
    rw [hdone, hopen]
    rfl

end exec

/-- A steep goes on while some context of the partition has not ended (R221). -/
theorem allEnded_eq_false {s : State} {part : Part} {u d : Nat} (hu : u ∈ maskTiles part.tileMask) (hd : d < 4) (hended : (ctxOf s u d).st ≠ .ended)
    (hidle : (ctxOf s u d).st ≠ .idle) : allEnded s part = false := by
  refine Bool.eq_false_iff.2 fun hall => ?_
  have h := List.all_eq_true.1 (List.all_eq_true.1 hall u hu) d (List.mem_range.2 hd)
  have hor : (ctxOf s u d).st = .ended ∨ (ctxOf s u d).st = .idle := by simpa [ctxOf] using h
  exact hor.elim hended hidle

/-- Settles O9, instruction by instruction: each changes its own context alone. -/
theorem controlInstructions : Obligations.ControlInstructions := by
  unfold Obligations.ControlInstructions
  refine ⟨fun t c w s p part => ⟨fun h => ?nop, fun h target htarget hfetch => ?jmp, fun h => ?br⟩, fun t c w s p part => ⟨fun h hbody => ⟨fun hn hlen => ?loop, fun hn => ?skip⟩, fun h hdone hslots hgoes => ?fin⟩⟩
  case nop =>
    obtain ⟨honly, hunits, hctx⟩ := accept_ctx (s := s) (t := t) (c := c) (op := 0x00) (w := w) (p := p) (part := part) id
    exact ⟨_, exec_nopInstruction h, honly, hunits, hctx ▸ wentOn_acceptCtx _⟩
  case jmp =>
    obtain ⟨honly, hunits, hctx⟩ := accept_ctx (s := s) (t := t) (c := c) (op := 0x02) (w := w) (p := p) (part := part) (fun _ => jumpCtx (ctxOf s t c) target)
    exact ⟨_, exec_jmp h htarget hfetch, honly, hunits, by rw [hctx]; exact jumped_jumpCtx _ _⟩
  case br =>
    intro v a b holds taken htaken
    obtain ⟨hcond, hbr⟩ := brHolds_of_getElem? htaken
    refine ⟨fun hf => ?_, fun ht target htarget hfetch => ?_⟩
    · obtain ⟨honly, hunits, hctx⟩ := accept_ctx (s := s) (t := t) (c := c) (op := 0x03) (w := w) (p := p) (part := part) id
      exact ⟨_, exec_br_notTaken h hcond (hbr.trans hf), honly, hunits, hctx ▸ wentOn_acceptCtx _⟩
    · obtain ⟨honly, hunits, hctx⟩ := accept_ctx (s := s) (t := t) (c := c) (op := 0x03) (w := w) (p := p) (part := part) (fun _ => jumpCtx (ctxOf s t c) target)
      exact ⟨_, exec_br_taken h hcond (hbr.trans ht) htarget hfetch, honly, hunits, by rw [hctx]; exact jumped_jumpCtx _ _⟩
  case loop =>
    obtain ⟨honly, hunits, hctx⟩ := accept_ctx (s := s) (t := t) (c := c) (op := 0x04) (w := w) (p := p) (part := part) (fun _ => loopCtx (issOf s t c 0x04 w p part))
    have hloop := hctx.trans (loopCtx_of_ne_zero (Nat.pos_iff_ne_zero.1 hn))
    exact ⟨_, exec_loop h hbody (.inl hlen), honly, hunits, by rw [hloop]; exact ⟨rfl, rfl, rfl, fun _ => rfl, fun _ => rfl, fun _ => rfl⟩⟩
  case skip =>
    obtain ⟨honly, hunits, hctx⟩ := accept_ctx (s := s) (t := t) (c := c) (op := 0x04) (w := w) (p := p) (part := part) (fun _ => loopCtx (issOf s t c 0x04 w p part))
    have hloop := hctx.trans (loopCtx_of_eq_zero hn)
    exact ⟨_, exec_loop h hbody (.inr hn), honly, hunits, by rw [hloop]; exact ⟨rfl, rfl, fun _ => rfl, fun _ => rfl, fun _ => rfl⟩⟩
  case fin =>
    obtain ⟨honly, hunits, hctx⟩ := accept_ctx (s := s) (t := t) (c := c) (op := 0x01) (w := w) (p := p) (part := part) (fun k => { k with st := .ended, loops := [], atEnd := false })
    change ctxOf (endedState (issOf s t c 0x01 w p part)) t c = _ at hctx
    refine ⟨_, exec_endI h hdone (openSlots_eq_zero hslots) (hgoes.imp_right ?_), honly, hunits, by rw [hctx], by rw [hctx]; exact ⟨fun _ => rfl, fun _ => rfl, fun _ => rfl⟩⟩
    rintro ⟨u, hu, d, hd, hne, hended, hidle⟩
    have hsame : ctxOf (endedState (issOf s t c 0x01 w p part)) u d = ctxOf s u d := ctxOf_of_onlyTile honly hne
    exact allEnded_eq_false hu hd (hsame ▸ hended) (hsame ▸ hidle)

end Sys2Proof.Machine
end

section
/-! SUPPORT. The sync class and the events that complete its waits (R145, R146, R208-R225), the timeouts of a tile and the scrubber, and the
statements about them. -/

namespace Sys2Proof.Machine

open Sys2Proof

/-! ## Held heads -/

/-- From `s` to `s'` only context `c` of tile `t` differs. -/
structure OnlyCtx (s s' : State) (t c : Nat) : Prop where
  rest : { s' with tiles := s.tiles } = s
  others : ∀ u, u ≠ t → getTile s' u = getTile s u
  tile : { getTile s' t with ctx := (getTile s t).ctx } = getTile s t
  ctxs : ∀ d, d ≠ c → ctxOf s' t d = ctxOf s t d

theorem onlyCtx_modCtx (s : State) (t c : Nat) (f : Ctx → Ctx) : OnlyCtx s (modTile s t (fun x => modCtx x c f)) t c where
  rest := rfl
  others := fun u hu => by rw [getTile_modTile, if_neg hu]
  tile := by rw [getTile_modTile, if_pos rfl]; rfl
  ctxs := fun d hd => by rw [ctxOf, getTile_modTile, if_pos rfl, getCtx_modCtx, if_neg hd, ctxOf]

theorem ctxOf_modCtx_self (s : State) (t c : Nat) (f : Ctx → Ctx) : ctxOf (modTile s t (fun x => modCtx x c f)) t c = f (ctxOf s t c) := by
  rw [ctxOf, getTile_modTile, if_pos rfl, getCtx_modCtx, if_pos rfl, ctxOf]

theorem waits_holdCtx (s : State) (k : Ctx) (cause object : Nat) (h : Held) :
    Waits s k { holdCtx (now s) k cause object with held := some h } cause object h :=
  ⟨rfl, ⟨rfl, rfl⟩, rfl, ⟨rfl, rfl⟩, fun hst => if_neg hst, fun _ => rfl, fun _ => rfl, fun _ => rfl⟩

/-- The state in which the head of context `c` is held on `h`. -/
def heldOn (s : State) (t c cause object : Nat) (h : Held) : State :=
  modTile s t (fun x => modCtx x c (fun k => { holdCtx (now s) k cause object with held := some h }))

theorem onlyCtx_heldOn (s : State) (t c cause object : Nat) (h : Held) : OnlyCtx s (heldOn s t c cause object h) t c := onlyCtx_modCtx s t c _

theorem waits_heldOn (s : State) (t c cause object : Nat) (h : Held) :
    Waits s (ctxOf s t c) (ctxOf (heldOn s t c cause object h) t c) cause object h := by
  rw [heldOn, ctxOf_modCtx_self]
  exact waits_holdCtx s _ cause object h

/-! ## WAIT and its flag -/

theorem condHolds_of_getElem? {n : Nat} {flag value : Word32} {b : Bool}
    (h : [decide (value.toNat ≤ flag.toNat), decide (flag = value), decide (flag ≠ value)][n]? = some b) : n < 3 ∧ condHolds n flag value = b := by
  obtain ⟨hn, h⟩ := List.getElem?_eq_some_iff.1 h
  simp only [List.length_cons, List.length_nil] at hn
  refine ⟨hn, ?_⟩
  subst h
  interval_cases n <;> rfl

theorem condHolds_iff {cond : Nat} (h : cond < 3) (flag value : Word32) :
    condHolds cond flag value = true ↔ if cond = 0 then value.toNat ≤ flag.toNat else if cond = 1 then flag = value else flag ≠ value := by
  interval_cases cond
  · exact decide_eq_true_iff
  · exact decide_eq_true_iff
  · exact decide_eq_true_iff

/-- A WAIT of a lower context that would consume now is served first (R146). -/
theorem lowerConsumer_eq_false_iff (s : State) (t c f : Nat) : lowerConsumer (getTile s t) c f = false ↔
    ∀ d < c, ∀ u : Word32, (ctxOf s t d).held = some (.wait f 0 true u) → (getFlag (getTile s t) f).toNat < u.toNat := by
  rw [lowerConsumer, List.any_eq_false]
  refine forall_congr' fun d => imp_congr List.mem_range ⟨fun h u hu => ?_, fun h => ?_⟩
  · simp only [show (getCtx (getTile s t) d).held = some (.wait f 0 true u) from hu] at h
    simpa [condHolds, BitVec.le_def] using h
  · split
    · next g cond consume v hheld =>
      simp only [Bool.and_eq_true, decide_eq_true_eq]
      rintro ⟨⟨⟨rfl, rfl⟩, rfl⟩, hv⟩
      exact absurd (of_decide_eq_true hv) (by rw [BitVec.le_def, Nat.not_le]; exact h v hheld)
    · simp

theorem getFlag_consumeFlag (x : Tile) (f cond : Nat) (consume : Bool) (v : Word32) (g : Nat) :
    getFlag (consumeFlag x f cond consume v) g = if g = f ∧ consume = true ∧ cond = 0 then getFlag x f - v else getFlag x g := by
  unfold consumeFlag
  by_cases h : consume = true ∧ cond = 0
  · rw [if_pos h, getFlag_setFlag]
    simp only [h, and_true]
  · rw [if_neg h, if_neg fun hg => h hg.2]

theorem consumeFlag_frame (x : Tile) (f cond : Nat) (consume : Bool) (v : Word32) :
    { consumeFlag x f cond consume v with flags := x.flags } = x := by
  unfold consumeFlag
  split <;> rfl

theorem consumeFlag_ctx (x : Tile) (f cond : Nat) (consume : Bool) (v : Word32) : (consumeFlag x f cond consume v).ctx = x.ctx :=
  (congrArg Tile.ctx (consumeFlag_frame x f cond consume v) :)
theorem consumeFlag_lending (x : Tile) (f cond : Nat) (consume : Bool) (v : Word32) : (consumeFlag x f cond consume v).lending = x.lending :=
  (congrArg Tile.lending (consumeFlag_frame x f cond consume v) :)

section wait
variable {s : State} {t : Fin 64} {c : Fin 4} {w : BitVec 120} {p : Nat} {part : Part}

/-- The state once a WAIT goes on: it may take VALUE from its flag (R145). -/
def waitedState (i : Iss) : State := i.accept id (fun x => consumeFlag x (i.bits 15 8) (i.bits 17 16) (i.bit 18) (waitValue i))

theorem exec_wait (h : AtHead s t c 0xC1 w [(31, 25), (127, 64)] p part) (hcond : bits (wordOf w 0xC1) 17 16 < 3) :
    let i := issOf s t c 0xC1 w p part
    exec (.wait t c w) s = .next
      (if condHolds (i.bits 17 16) (getFlag (getTile s t) (i.bits 15 8)) (waitValue i) = true ∧
          ¬(i.bit 18 = true ∧ i.bits 17 16 = 0 ∧ lowerConsumer (getTile s t) c (i.bits 15 8) = true) then waitedState i
        else heldOn s t c 1 (i.bits 15 8) (.wait (i.bits 15 8) (i.bits 17 16) (i.bit 18) (waitValue i))) := by
  intro i
  show execWait t c w s = _
  have hlegal : illegalIf (decide ((issOf s t c 0xC1 w p part).bits 17 16 = 3)) 0 17 16 = .go := by
    rw [illegalIf, if_neg]
    exact fun h3 => Nat.ne_of_lt hcond (of_decide_eq_true h3)
  exact issue_go h noRows _ hlegal

theorem waitedState_spec (i : Iss) (hi : i = issOf s t c 0xC1 w p part) :
    OnlyTile s (waitedState i) t c ∧ WentOn (ctxOf s t c) (ctxOf (waitedState i) t c) ∧
      { getTile (waitedState i) t with ctx := (getTile s t).ctx, lending := (getTile s t).lending, flags := (getTile s t).flags } = getTile s t ∧
      ∀ g, getFlag (getTile (waitedState i) t) g =
        if g = i.bits 15 8 ∧ i.bit 18 = true ∧ i.bits 17 16 = 0 then getFlag (getTile s t) (i.bits 15 8) - waitValue i else getFlag (getTile s t) g := by
  subst hi
  obtain ⟨honly, hwent⟩ := accept_wentOn (s := s) (t := t) (c := c) (op := 0xC1) (w := w) (p := p) (part := part)
    (fun y => consumeFlag_ctx y (bits (wordOf w 0xC1) 15 8) (bits (wordOf w 0xC1) 17 16) ((wordOf w 0xC1).getLsbD 18) (waitValue (issOf s t c 0xC1 w p part)))
    (fun y => consumeFlag_lending y _ _ _ _)
  refine ⟨honly, hwent, ?_, fun g => ?_⟩
  · rw [waitedState, getTile_accept, if_pos rfl]
    exact congrArg (fun y : Tile => { y with ctx := (getTile s t).ctx, lending := (getTile s t).lending })
      (consumeFlag_frame (modCtx { getTile s t with lending := false } c (fun k => id (acceptCtx k))) _ _ _ _)
  · rw [waitedState, getTile_accept, if_pos rfl, getFlag_consumeFlag]
    rfl

end wait

/-! ## FENCE, BARRIER, SIGNAL and FSET -/

section posts
variable {s : State} {t : Fin 64} {c : Fin 4} {w : BitVec 120} {p : Nat} {part : Part}

theorem exec_fence (h : AtHead s t c 0xC2 w [(127, 10)] p part) (hscope : bits (wordOf w 0xC2) 9 8 < 3) :
    exec (.fence t c w) s = .next (if fenceDone s t c (bits (wordOf w 0xC2) 9 8) = true then (issOf s t c 0xC2 w p part).accept id id
      else heldOn s t c 2 0 (.fence (bits (wordOf w 0xC2) 9 8))) := by
  show execFence t c w s = _
  have hlegal : illegalIf (decide ((issOf s t c 0xC2 w p part).bits 9 8 = 3)) 0 9 8 = .go := by
    rw [illegalIf, if_neg]
    exact fun h3 => Nat.ne_of_lt hscope (of_decide_eq_true h3)
  exact issue_go h noRows _ hlegal

theorem exec_barrier (h : AtHead s t c 0xC3 w [(127, 12)] p part) (hmask : (barrierMask part (bits (wordOf w 0xC3) 11 8)).getLsbD c = true) :
    exec (.barrier t c w) s = .next (if fenceDone s t c 2 = true then arriveBarrier s p t c (bits (wordOf w 0xC3) 11 8)
      else heldOn s t c 2 0 (.barrier (bits (wordOf w 0xC3) 11 8))) := by
  show execBarrier t c w s = _
  exact issue_go h noRows _ (if_pos hmask)

theorem arriveBarrier_eq {s : State} {part : Part} (hpart : getPart? s p = some part) (t c num : Nat) :
    arriveBarrier s p t c num =
      setPart (heldOn s t c 3 num (.barrier num)) p { part with arrived := tabInsert num (tabGetD part.arrived num [] ++ [(t, c)]) part.arrived } := by
  show modPart (heldOn s t c 3 num (.barrier num)) p _ = _
  rw [modPart, show getPart? (heldOn s t c 3 num (.barrier num)) p = some part from hpart]
  rfl

theorem exec_signal (h : AtHead s t c 0xC0 w [(31, 31), (127, 64)] p part) (hop : bits (wordOf w 0xC0) 30 29 < 2) (hflag : bits (wordOf w 0xC0) 15 8 ≠ 255)
    (htarget : if (wordOf w 0xC0).getLsbD 16 then sigTarget (issOf s t c 0xC0 w p part) < 8
      else (tileOfIndex part (sigTarget (issOf s t c 0xC0 w p part))).isSome) :
    exec (.signal t c w) s = .next { (issOf s t c 0xC0 w p part).accept id (fun x => tileCtr x 0xC0 1) with
      sigs := s.sigs ++ [sigOf (issOf s t c 0xC0 w p part)] } := by
  show execSignal t c w s = _
  have hlegal : illegalIf (decide (1 < (issOf s t c 0xC0 w p part).bits 30 29)) 0 30 29 = .go := by
    rw [illegalIf, if_neg]
    exact fun h1 => Nat.not_lt.2 (Nat.le_of_lt_succ hop) (of_decide_eq_true h1)
  refine issue_go h noRows _ ?_
  rw [sigCheck, hlegal, if_neg (show ¬(issOf s t c 0xC0 w p part).bits 15 8 = 255 from hflag)]
  by_cases hnewt : (wordOf w 0xC0).getLsbD 16 = true
  · rw [if_pos hnewt] at htarget
    rw [if_pos (show (issOf s t c 0xC0 w p part).bit 16 = true from hnewt), if_neg (by omega)]
    rfl
  · rw [if_neg hnewt] at htarget
    rw [if_neg (show ¬(issOf s t c 0xC0 w p part).bit 16 = true from hnewt)]
    have hsome : (tileOfIndex (issOf s t c 0xC0 w p part).part (sigTarget (issOf s t c 0xC0 w p part))).isNone = false := by
      rw [Option.isNone_eq_false_iff]; exact htarget
    rw [hsome]
    rfl

theorem smGet_tileCtr (x : Tile) (off n o : Nat) :
    smGet (tileCtr x off n).ctrs o = if o = off then smGet x.ctrs o + BitVec.ofNat 64 n else smGet x.ctrs o := by
  rw [tileCtr, smGet_smSet]
  split
  · next h => rw [h]
  · rfl

theorem exec_fset (h : AtHead s t c 0xC4 w [(31, 16), (127, 64)] p part) (hflag : bits (wordOf w 0xC4) 15 8 ≠ 255)
    (hclear : ∀ g ∈ s.sigs, g.src = .ctx t c → g.flag ≠ bits (wordOf w 0xC4) 15 8) :
    exec (.fset t c w) s = .next ((issOf s t c 0xC4 w p part).accept id
      (fun x => setFlag x (bits (wordOf w 0xC4) 15 8) (BitVec.ofNat 32 (bits (wordOf w 0xC4) 63 32)))) := by
  show execFset t c w s = _
  rw [execFset, issue_go h _ _ (if_neg hflag), if_neg]
  · rfl
  · rw [Bool.not_eq_true, List.any_eq_false]
    intro g hg
    have := hclear g hg
    simp only [Bool.and_eq_true, decide_eq_true_eq]
    rintro ⟨⟨⟨hsrc, -⟩, -⟩, hf⟩
    exact this hsrc hf

end posts

/-- Settles O11: a WAIT and a FENCE go on or are held, a BARRIER is held or arrives, a SIGNAL and an FSET go on. -/
theorem syncInstructions : Obligations.SyncInstructions := by
  unfold Obligations.SyncInstructions
  refine ⟨fun t c w s p part h => ?wait, fun t c w s p part => ⟨fun h hscope => ⟨fun hdone => ?fence, fun hdone => ?fenceHeld⟩, ?barrier⟩,
    fun t c w s p part => ⟨fun h => ?signal, ?fset⟩⟩
  case wait =>
    intro v x k f value holds consumes turn b hb
    obtain ⟨hcond, hholds⟩ := condHolds_of_getElem? hb
    have hturn : (turn ↔ ¬(v.getLsbD 18 = true ∧ bits v 17 16 = 0 ∧ lowerConsumer x c f = true)) := by
      rw [← and_assoc, not_and, Bool.not_eq_true, lowerConsumer_eq_false_iff]
    refine ⟨fun hbt ht => ?_, fun hnot => ?_⟩
    · refine ⟨_, (exec_wait h hcond).trans (congrArg _ (if_pos ⟨hholds.trans hbt, hturn.1 ht⟩)), ?_⟩
      exact waitedState_spec _ rfl
    · refine ⟨_, (exec_wait h hcond).trans (congrArg _ (if_neg fun hgo => ?_)), ?_⟩
      · exact hnot.elim (fun hbf => absurd (hgo.1.symm.trans (hholds.trans hbf)) (by decide)) (fun hnt => hnt (hturn.2 hgo.2))
      · obtain ⟨hrest, hothers, htile, hctxs⟩ := onlyCtx_heldOn s t c 1 f (.wait f (bits v 17 16) (v.getLsbD 18) value)
        exact ⟨hrest, hothers, htile, hctxs, waits_heldOn s t c 1 f _⟩
  case fence =>
    obtain ⟨honly, hunits, hctx⟩ := accept_ctx (s := s) (t := t) (c := c) (op := 0xC2) (w := w) (p := p) (part := part) id
    exact ⟨_, (exec_fence h hscope).trans (congrArg _ (if_pos hdone)), honly, hunits, hctx ▸ wentOn_acceptCtx _⟩
  case fenceHeld =>
    obtain ⟨hrest, hothers, htile, hctxs⟩ := onlyCtx_heldOn s t c 2 0 (.fence (bits (wordOf w 0xC2) 9 8))
    exact ⟨_, (exec_fence h hscope).trans (congrArg _ (if_neg (by rw [hdone]; decide))), hrest, ⟨hothers, htile, hctxs⟩, waits_heldOn s t c 2 0 _⟩
  case barrier =>
    intro h num hmask
    refine ⟨fun hdone => ?_, fun hdone => ?_⟩
    · obtain ⟨hrest, hothers, htile, hctxs⟩ := onlyCtx_heldOn s t c 2 0 (.barrier num)
      exact ⟨_, (exec_barrier h hmask).trans (congrArg _ (if_neg (by rw [hdone]; decide))), hrest, ⟨hothers, htile, hctxs⟩, waits_heldOn s t c 2 0 _⟩
    · obtain ⟨hrest, hothers, htile, hctxs⟩ := onlyCtx_heldOn s t c 3 num (.barrier num)
      refine ⟨_, (exec_barrier h hmask).trans (congrArg _ ((if_pos hdone).trans (arriveBarrier_eq h.partOf t c num))), rfl, ⟨hothers, htile, hctxs⟩, waits_heldOn s t c 3 num _, ?_, fun q hq => ?_⟩
      · rw [getPart_setPart, if_pos rfl]
      · rw [getPart_setPart, if_neg hq]
        rfl
  case signal =>
    intro v tg hop hflag dst hdst
    obtain ⟨honly, hwent⟩ := accept_wentOn (s := s) (t := t) (c := c) (op := 0xC0) (w := w) (p := p) (part := part) (g := fun x => tileCtr x 0xC0 1) (fun _ => rfl) (fun _ => rfl)
    have htg : sigTarget (issOf s t c 0xC0 w p part) = tg := rfl
    have htarget : if v.getLsbD 16 then sigTarget (issOf s t c 0xC0 w p part) < 8 else (tileOfIndex part (sigTarget (issOf s t c 0xC0 w p part))).isSome := by
      rw [htg]
      split
      · next hnewt => rw [if_pos hnewt] at hdst; exact hdst.1
      · next hnewt => rw [if_neg hnewt] at hdst; rw [hdst]; rfl
    have hd : (if v.getLsbD 16 then newtFor s tg else (tileOfIndex part tg).getD 0) = dst := by
      split
      · next hnewt => rw [if_pos hnewt] at hdst; exact hdst.2.symm
      · next hnewt => rw [if_neg hnewt] at hdst; rw [hdst]; rfl
    have htile := getTile_accept (s := s) (t := t) (c := c) (op := 0xC0) (w := w) (p := p) (part := part) id (fun x => tileCtr x 0xC0 1) t
    rw [if_pos rfl] at htile
    refine ⟨_, exec_signal h hop hflag htarget, honly, hwent, ?_, fun o => ?_, by rw [← hd]; rfl⟩
    · exact (congrArg (fun y : Tile => { y with ctx := (getTile s t).ctx, lending := (getTile s t).lending, ctrs := (getTile s t).ctrs }) htile :)
    · exact (congrArg (fun y : Tile => smGet y.ctrs o) htile :).trans (smGet_tileCtr _ _ _ _)
  case fset =>
    intro h v hflag hclear
    obtain ⟨honly, hwent⟩ := accept_wentOn (s := s) (t := t) (c := c) (op := 0xC4) (w := w) (p := p) (part := part)
      (g := fun x => setFlag x (bits v 15 8) (BitVec.ofNat 32 (bits v 63 32))) (fun _ => rfl) (fun _ => rfl)
    have htile := getTile_accept (s := s) (t := t) (c := c) (op := 0xC4) (w := w) (p := p) (part := part) id (fun x => setFlag x (bits v 15 8) (BitVec.ofNat 32 (bits v 63 32))) t
    rw [if_pos rfl] at htile
    refine ⟨_, exec_fset h hflag hclear, honly, hwent, ?_, fun g => ?_⟩
    · rw [htile]; rfl
    · rw [htile]; exact getFlag_setFlag _ _ _ _

end Sys2Proof.Machine
end

section
/-! SUPPORT. Held heads that go on, barriers that release (R146, R208, R215-R219), the timeouts of a tile and the scrubber (R89, R161, R162,
R221-R225), and the statements about them. -/

namespace Sys2Proof.Machine

open Sys2Proof

/-! ## A context lets its head go -/

/-- The state in which the head of context `q.2` of tile `q.1` went on; a lent power share is reclaimed (R223). -/
def letGo (s : State) (q : Nat × Nat) : State := modTile s q.1 (fun y => modCtx { y with lending := false } q.2 acceptCtx)

theorem onlyTile_letGo (s : State) (t c : Nat) : OnlyTile s (letGo s (t, c)) t c where
  rest := rfl
  others := fun u hu => by rw [letGo, getTile_modTile, if_neg hu]
  power := by rw [letGo, getTile_modTile, if_pos rfl]; rfl
  ctxs := fun d hd => by rw [letGo, getTile_modTile, if_pos rfl, getCtx_modCtx, if_neg hd]; rfl

theorem ctxOf_letGo (s : State) (q : Nat × Nat) (t c : Nat) :
    ctxOf (letGo s q) t c = if (t, c) = q then acceptCtx (ctxOf s t c) else ctxOf s t c := by
  obtain ⟨u, d⟩ := q
  simp only [letGo, ctxOf, getTile_modTile, Prod.mk.injEq]
  by_cases ht : t = u
  · subst ht
    by_cases hc : c = d
    · subst hc; simp; rfl
    · simp [hc]; rfl
  · simp [ht]

theorem ctxOf_foldl_letGo {l : List (Nat × Nat)} (hl : l.Nodup) (s : State) (t c : Nat) :
    ctxOf (l.foldl letGo s) t c = if (t, c) ∈ l then acceptCtx (ctxOf s t c) else ctxOf s t c := by
  induction l generalizing s with
  | nil => rfl
  | cons q r ih =>
    obtain ⟨hq, hr⟩ := List.nodup_cons.1 hl
    rw [List.foldl_cons, ih hr, ctxOf_letGo]
    by_cases h : (t, c) = q
    · subst h; simp [hq]
    · simp [h]

theorem foldl_letGo_frame (l : List (Nat × Nat)) (s : State) : { l.foldl letGo s with tiles := s.tiles } = s := by
  induction l generalizing s with
  | nil => rfl
  | cons q r ih => exact congrArg (fun x : State => { x with tiles := s.tiles }) (ih (letGo s q))

/-! ## Barriers -/

theorem nodup_maskTiles (m : BitVec 64) : (maskTiles m).Nodup := List.nodup_range.filter _

/-- Every member of a barrier is named once. -/
theorem nodup_barrierMembers (x : Part) (bar : Nat) : (barrierMembers x bar).Nodup := by
  rw [barrierMembers, List.nodup_flatMap]
  refine ⟨fun t _ => (List.nodup_range.filter _).map fun a b h => congrArg Prod.snd h, ?_⟩
  refine (nodup_maskTiles x.tileMask).imp fun {t u} htu => ?_
  simp only [List.disjoint_left, List.mem_map, not_exists, not_and]
  rintro q ⟨c, -, rfl⟩ d - h
  exact htu (congrArg Prod.fst h).symm

/-- The partition once a barrier has let its members go: one use more (R218). -/
def usedBarrier (x : Part) (bar : Nat) : Part :=
  { x with arrived := tabErase bar x.arrived, uses := smSet x.uses bar (BitVec.ofNat 32 ((smGet x.uses bar).toNat + 1)) }

/-- The tile of the last arrival counts the release (R226). -/
def countRelease (s : State) : Option (Nat × Nat) → State
  | some q => modTile s q.1 (fun y => tileCtr y 0xB8 1)
  | none => s

theorem countRelease_frame (s : State) (o : Option (Nat × Nat)) : { countRelease s o with tiles := s.tiles } = s := by cases o <;> rfl

theorem ctxOf_countRelease (s : State) (o : Option (Nat × Nat)) (t c : Nat) : ctxOf (countRelease s o) t c = ctxOf s t c := by
  cases o with
  | none => rfl
  | some q =>
    rw [countRelease, ctxOf, getTile_modTile]
    split
    · next h => rw [h]; rfl
    · rfl

/-- The state in which barrier `bar` of partition `p` has let its members go. -/
def releasedBarrier (s : State) (p bar : Nat) (x : Part) : State :=
  countRelease ((barrierMembers x bar).foldl letGo (setPart s p (usedBarrier x bar))) (tabGetD x.arrived bar []).getLast?

section release
variable (s : State) (p bar : Nat) (x : Part)

theorem releasedBarrier_frame_setPart : { releasedBarrier s p bar x with tiles := s.tiles } = setPart s p (usedBarrier x bar) := by
  have hfold := foldl_letGo_frame (barrierMembers x bar) (setPart s p (usedBarrier x bar))
  have hcount := countRelease_frame ((barrierMembers x bar).foldl letGo (setPart s p (usedBarrier x bar))) (tabGetD x.arrived bar []).getLast?
  exact (congrArg (fun y : State => { y with tiles := s.tiles }) hcount).trans hfold

theorem releasedBarrier_frame : { releasedBarrier s p bar x with tiles := s.tiles, parts := s.parts } = s :=
  congrArg (fun y : State => { y with parts := s.parts }) (releasedBarrier_frame_setPart s p bar x)

theorem getPart_releasedBarrier : getPart? (releasedBarrier s p bar x) p = some (usedBarrier x bar) := by
  have hparts : (releasedBarrier s p bar x).parts = (setPart s p (usedBarrier x bar)).parts := (congrArg State.parts (releasedBarrier_frame_setPart s p bar x) :)
  rw [getPart?, hparts]
  exact (getPart_setPart s p p _).trans (if_pos rfl)

theorem wentOn_releasedBarrier {q : Nat × Nat} (hq : q ∈ barrierMembers x bar) : WentOn (ctxOf s q.1 q.2) (ctxOf (releasedBarrier s p bar x) q.1 q.2) := by
  rw [releasedBarrier, ctxOf_countRelease, ctxOf_foldl_letGo (nodup_barrierMembers x bar), if_pos hq]
  exact wentOn_acceptCtx _

end release

section exec
variable {s : State} {p : Fin 64} {bar : Fin 16} {x : Part} (hx : getPart? s p = some x) (hmem : barrierMembers x bar ≠ [])
  (hall : ∀ q ∈ barrierMembers x bar, q ∈ tabGetD x.arrived bar.val [])
include hx hmem hall

theorem execBarrierRelease_eq : execBarrierRelease p bar s =
    match x.image, x.running, some (usedBarrier x bar) with
    | some img, some st, some y =>
      if y.phase = .none then .next (releasedBarrier s p bar x)
      else if img.layerMarks.idxOf (bar.val, (smGet x.uses bar.val).toNat) + 1 = img.layerMarks.length then .next (boundary (releasedBarrier s p bar x) p y img st)
      else if img.layerMarks.idxOf (bar.val, (smGet x.uses bar.val).toNat) + 2 = img.layerMarks.length ∧ y.phase = .body then
        .next (compositionPoint (setPart (releasedBarrier s p bar x) p { y with phase := .final }) p)
      else .next (releasedBarrier s p bar x)
    | _, _, _ => .next (releasedBarrier s p bar x) := by
  have hgo : ¬(barrierMembers x bar = [] ∨ (!(barrierMembers x bar).all (fun q => (tabGetD x.arrived bar.val []).contains q)) = true) := by
    simpa [hmem] using hall
  rw [← getPart_releasedBarrier s p bar x]
  simp only [execBarrierRelease, hx, if_neg hgo]
  rfl

/-- The release of a barrier while a steep runs: by the layer marks that are left (R219). -/
theorem execBarrierRelease_of_steep {img : Image} {st : Steep} (himg : x.image = some img) (hrun : x.running = some st) (hphase : x.phase ≠ .none) :
    let mark := img.layerMarks.idxOf (bar.val, (smGet x.uses bar.val).toNat)
    let s' := releasedBarrier s p bar x
    let y := usedBarrier x bar
    execBarrierRelease p bar s =
      if mark + 1 = img.layerMarks.length then .next (boundary s' p y img st)
      else if mark + 2 = img.layerMarks.length ∧ y.phase = .body then .next (compositionPoint (setPart s' p { y with phase := .final }) p)
      else .next s' := by
  rw [execBarrierRelease_eq hx hmem hall, himg, hrun]
  exact if_neg (show ¬(usedBarrier x bar).phase = .none from hphase)

end exec

/-! ## Timeouts of a tile -/

theorem anyRunning_iff (s : State) (t : Nat) : anyRunning (getTile s t) = true ↔ ∃ c < 4, (ctxOf s t c).st = .running ∧ (ctxOf s t c).atEnd = false := by
  simp [anyRunning, ctxOf]

theorem anyRunning_eq_false {s : State} {t : Nat} (h : ∀ c < 4, (ctxOf s t c).st = .running → (ctxOf s t c).atEnd = true) : anyRunning (getTile s t) = false := by
  rw [← Bool.not_eq_true, anyRunning_iff]
  rintro ⟨c, hc, hrun, hend⟩
  exact absurd (h c hc hrun) (by rw [hend]; decide)

theorem stalled_eq_true {s : State} {x : Part}
    (h : ∀ t ∈ maskTiles x.tileMask, (∀ c < 4, (ctxOf s t c).st = .running → (ctxOf s t c).atEnd = true) ∧ unitBusy s t = false) : stalled s x = true := by
  rw [stalled, List.all_eq_true]
  intro t ht
  rw [anyRunning_eq_false (h t ht).1, (h t ht).2]
  rfl

theorem modPart_of_some {s : State} {p : Nat} {x : Part} (h : getPart? s p = some x) (f : Part → Part) : modPart s p f = setPart s p (f x) := by
  simp only [modPart, h]

/-! ## The scrubber -/

/-- The word `w` stands in the scrubbed line: 128 words of 4 bytes (R161). -/
theorem inRanges_line (w line : Nat) : inRanges w [(line * 512, 512)] = decide (w / 128 = line) := by
  simp only [inRanges, List.any_cons, List.any_nil, Bool.or_false, meets, ← Bool.decide_and, decide_eq_decide]
  omega

theorem bit63_spadCorr (st : Word64) (n w : Nat) : bit (spadCorr st n w) 63 = bit st 63 := by
  unfold spadCorr
  split
  · rfl
  · rw [bit_setBits_of_disjoint _ (by omega), bit_setBits_of_disjoint _ (by omega), bit_setBit, if_neg (by omega)]

/-- The tile once the scrubber has read line `line` (R161, R162). -/
def scrubbed (x : Tile) (line : Nat) : Tile :=
  let y := correctReads x [(line * 512, 512)]
  let bad := y.twoBit.filter (fun w => decide (w / 128 = line))
  { y with twoBit := y.twoBit.filter (fun w => !decide (w / 128 = line)), poison := y.poison ++ bad,
           spadStatus := if bad = [] then y.spadStatus else setBits (setBit y.spadStatus 63 true) 21 0 (bad.getLastD 0) }

theorem exec_scrubTick (t : Fin 64) (line : Fin 32768) (s : State) :
    exec (.scrubTick t line) s = .next (modTile s t (fun x => scrubbed x line)) := rfl

section scrub
variable (x : Tile) (line : Nat)

theorem scrubbed_frame : { scrubbed x line with oneBit := x.oneBit, twoBit := x.twoBit, poison := x.poison, spadStatus := x.spadStatus } = x := rfl

theorem scrubbed_oneBit : (scrubbed x line).oneBit = x.oneBit.filter (fun w => decide (w / 128 ≠ line)) := by
  refine List.filter_congr fun w _ => ?_
  rw [inRanges_line, decide_not]

theorem scrubbed_twoBit : (scrubbed x line).twoBit = x.twoBit.filter (fun w => decide (w / 128 ≠ line)) := by
  refine List.filter_congr fun w _ => ?_
  rw [decide_not]

theorem scrubbed_poison : (scrubbed x line).poison = x.poison ++ x.twoBit.filter (fun w => decide (w / 128 = line)) := rfl

theorem scrubbed_status_clean (h : ∀ w ∈ x.twoBit, w / 128 ≠ line) : bit (scrubbed x line).spadStatus 63 = bit x.spadStatus 63 := by
  have hnone : x.twoBit.filter (fun w => decide (w / 128 = line)) = [] := List.filter_eq_nil_iff.2 fun w hw => by simpa using h w hw
  exact (congrArg (bit · 63) (if_pos hnone)).trans (bit63_spadCorr ..)

theorem scrubbed_status_bad (h : ∃ w ∈ x.twoBit, w / 128 = line) : bit (scrubbed x line).spadStatus 63 = true := by
  have hsome : x.twoBit.filter (fun w => decide (w / 128 = line)) ≠ [] := by
    obtain ⟨w, hw, hline⟩ := h
    exact List.ne_nil_of_mem (List.mem_filter.2 ⟨hw, decide_eq_true hline⟩)
  refine (congrArg (bit · 63) (if_neg hsome)).trans ?_
  rw [bit_setBits_of_disjoint _ (by omega)]
  exact bit_setBit_self _ (by decide)

end scrub

/-- Settles O16: a satisfied head goes on, a barrier's fence arrives, and a complete barrier lets its members go. -/
theorem heldHeadsGoOn : Obligations.HeldHeadsGoOn := by
  unfold Obligations.HeldHeadsGoOn
  refine ⟨fun t c s => ⟨?wait, ?fence, ?barrier⟩, fun p bar s x hx hmem hall => ?release⟩
  case wait =>
    intro f cond consume v hheld hcond hholds hturn
    have hgo : condHolds cond (getFlag (getTile s t) f) v = true ∧ ¬(consume = true ∧ cond = 0 ∧ lowerConsumer (getTile s t) c f = true) := by
      refine ⟨(condHolds_iff hcond _ _).2 hholds, ?_⟩
      rintro ⟨hconsume, hzero, hlower⟩
      exact absurd ((lowerConsumer_eq_false_iff s t c f).2 (hturn hconsume hzero)) (by rw [hlower]; decide)
    have hexec : exec (.waitSatisfied t c) s =
        .next (setTile s t { consumeFlag (modCtx (getTile s t) c acceptCtx) f cond consume v with lending := false }) := by
      show execWaitSatisfied t c s = _
      simp only [execWaitSatisfied, show (getCtx (getTile s t) c).held = some (.wait f cond consume v) from hheld, if_pos hgo]
    have hctx (d : Nat) : getCtx { consumeFlag (modCtx (getTile s t) c acceptCtx) f cond consume v with lending := false } d =
        if d = c.val then acceptCtx (ctxOf s t c) else ctxOf s t d := by
      unfold getCtx
      dsimp only
      rw [consumeFlag_ctx]
      exact getCtx_modCtx _ _ _ _
    refine ⟨_, hexec, ⟨rfl, fun u hu => ?_, ?_, fun d hd => ?_⟩, ?_, ?_, fun g => ?_⟩
    · rw [getTile_setTile, if_neg hu]
    · rw [getTile_setTile, if_pos rfl]
    · rw [getTile_setTile, if_pos rfl, hctx, if_neg hd]; rfl
    · show WentOn _ (getCtx (getTile (setTile s t _) t) c)
      rw [getTile_setTile, if_pos rfl, hctx, if_pos rfl]
      exact wentOn_acceptCtx _
    · rw [getTile_setTile, if_pos rfl]
      exact congrArg (fun y : Tile => { y with ctx := (getTile s t).ctx, lending := (getTile s t).lending }) (consumeFlag_frame (modCtx (getTile s t) c acceptCtx) f cond consume v)
    · rw [getTile_setTile, if_pos rfl]
      exact getFlag_consumeFlag _ _ _ _ _ _
  case fence =>
    intro scope hheld hdone
    have hexec : exec (.fenceComplete t c) s = .next (letGo s (t, c)) := by
      show execFenceComplete t c s = _
      simp only [execFenceComplete, show (getCtx (getTile s t) c).held = some (.fence scope) from hheld, if_pos hdone]
      rfl
    refine ⟨_, hexec, onlyTile_letGo s t c, ?_, ?_⟩
    · rw [letGo, getTile_modTile, if_pos rfl]; rfl
    · rw [ctxOf_letGo, if_pos rfl]; exact wentOn_acceptCtx _
  case barrier =>
    intro num p part hheld hcause hdone htile hpart
    have hexec : exec (.fenceComplete t c) s = .next (arriveBarrier s p t c num) := by
      show execFenceComplete t c s = _
      simp only [execFenceComplete, show (getCtx (getTile s t) c).held = some (.barrier num) from hheld, htile]
      exact if_pos ⟨hcause, hdone⟩
    rw [arriveBarrier_eq hpart] at hexec
    refine ⟨_, hexec, rfl, waits_heldOn s t c 3 num _, ?_⟩
    rw [getPart_setPart, if_pos rfl, Option.map_some, tabGetD_insert_self]
  case release =>
    intro use y
    have hexec := execBarrierRelease_eq hx hmem hall
    refine ⟨releasedBarrier s p bar x, releasedBarrier_frame s p bar x, fun q hq => wentOn_releasedBarrier s p bar x hq, getPart_releasedBarrier s p bar x, ?none, ?some⟩
    case none =>
      intro hnone
      refine hexec.trans ?_
      rcases hnone with h | h | h
      · rw [h]; cases x.image <;> rfl
      · rw [h]
      · have hp : (usedBarrier x bar).phase = .none := h
        cases x.image with
        | none => rfl
        | some img =>
          cases x.running with
          | none => rfl
          | some st => exact if_pos hp
    case some =>
      intro img st himg hrun hphase left
      have hlen := List.idxOf_le_length (l := img.layerMarks) (a := (bar.val, use))
      have hsteep := execBarrierRelease_of_steep hx hmem hall himg hrun hphase
      have hmarks : (bar.val, use) ∈ img.layerMarks ↔ img.layerMarks.idxOf (bar.val, use) < img.layerMarks.length := List.idxOf_lt_length_iff.symm
      refine ⟨fun hl hin => ?_, fun hl hbody => ?_, fun hl => ?_⟩
      · have := hmarks.1 hin
        have hlast : img.layerMarks.idxOf (bar.val, use) + 1 = img.layerMarks.length := by omega
        exact hsteep.trans (if_pos hlast)
      · have hnext : img.layerMarks.idxOf (bar.val, use) + 2 = img.layerMarks.length := by omega
        have hlast : img.layerMarks.idxOf (bar.val, use) + 1 ≠ img.layerMarks.length := by omega
        exact hsteep.trans ((if_neg hlast).trans (if_pos ⟨hnext, hbody⟩))
      · have hfirst : img.layerMarks.idxOf (bar.val, use) + 1 ≠ img.layerMarks.length := by
          rcases hl with h | ⟨h, -⟩ | h
          · omega
          · omega
          · have := mt hmarks.2 h; omega
        have hsecond : ¬(img.layerMarks.idxOf (bar.val, use) + 2 = img.layerMarks.length ∧ y.phase = .body) := by
          rintro ⟨h2, hbody⟩
          rcases hl with h | ⟨-, h⟩ | h
          · omega
          · exact absurd (hbody.symm.trans h) (by decide)
          · have := mt hmarks.2 h; omega
        exact hsteep.trans ((if_neg hfirst).trans (if_neg hsecond))

/-- Settles O18: the conditions of the timeouts decide, and the scrubber does what `scrubbed` says to its tile. -/
theorem tileTimeoutsAndScrubbing : Obligations.TileTimeoutsAndScrubbing := by
  unfold Obligations.TileTimeoutsAndScrubbing
  refine ⟨⟨fun t s hwork hretired => ?hang, fun p s x hx hphase hstalled => ?limit, fun t s hidle hunits => ?lend⟩, fun t line s => ?scrub⟩
  case hang =>
    have hbusy : (anyRunning (getTile s t) || unitBusy s t) = true := by rw [Bool.or_eq_true, anyRunning_iff]; exact hwork
    show execTileHangTimeout t s = _
    simp only [execTileHangTimeout, hbusy, hretired, Bool.not_false, Bool.and_self, if_true]
  case limit =>
    show execWaitLimitExpiry p s = _
    simp only [execWaitLimitExpiry, hx, modPart_of_some hx]
    exact if_pos ⟨hphase, stalled_eq_true hstalled⟩
  case lend =>
    show execPowerLend t s = _
    simp only [execPowerLend, anyRunning_eq_false hidle, hunits]
    rfl
  case scrub =>
    have htile : getTile (modTile s t (fun x => scrubbed x line)) t = scrubbed (getTile s t) line := by rw [getTile_modTile, if_pos rfl]
    refine ⟨_, exec_scrubTick t line s, ⟨rfl, fun u hu => by rw [getTile_modTile, if_neg hu]⟩, ?_⟩
    rw [htile]
    exact ⟨scrubbed_frame _ _, scrubbed_oneBit _ _, scrubbed_twoBit _ _, scrubbed_poison _ _, scrubbed_status_clean _ _, scrubbed_status_bad _ _⟩

end Sys2Proof.Machine
end

section
/-! SUPPORT. Claims and completions at the head of a queue (R166-R173), and the matrix, vector, drain, rescale and leaf-swap instructions that
are taken (R57, R65, R106, R117, R127, R134, R138, R141, R142, R191). -/

namespace Sys2Proof.Machine

open Sys2Proof

/-! ## Verdicts -/

theorem firstOf_eq_go {l : List Verdict} (h : firstOf l = .go) : ∀ v ∈ l, v = .go := by
  induction l with
  | nil => simp
  | cons v r ih =>
    cases v
    case go => simpa using ih h
    all_goals simp [firstOf] at h

theorem bits_wordOf_opcode (w : BitVec 120) {op : Nat} (h : op < 256) : bits (wordOf w op) 7 0 = op := by
  show ((w ++ BitVec.ofNat 8 op : BitVec (120 + 8)).toNat >>> 0) % 2 ^ 8 = op
  rw [BitVec.toNat_append, Nat.shiftRight_zero, Nat.or_mod_two_pow, Nat.shiftLeft_eq, Nat.mul_mod_left, Nat.zero_or, BitVec.toNat_ofNat,
    Nat.mod_mod, Nat.mod_eq_of_lt h]

/-! ## Flags that follow a region's counts -/

theorem completeClaim_map (x : Tile) (q : Claim) : (completeClaim x q).map = x.map := (congrArg Tile.map (completesOnly_completeClaim x q) :)

/-- A completed claim advances only flags that the tile's map names (R173). -/
theorem getFlag_completeClaim {x : Tile} {g : Nat} (hg : ¬namesFlag x g) (q : Claim) : getFlag (completeClaim x q) g = getFlag x g := by
  have hadd (y : Tile) (f k : Nat) (hy : y.flags = x.flags) (hf : g ≠ f) : getFlag (addFlag y f (BitVec.ofNat 32 k)) g = getFlag x g := by
    rw [addFlag, getFlag_setFlag, if_neg hf, getFlag, hy, getFlag]
  unfold completeClaim
  split
  · dsimp only
    split
    · split
      · next e he =>
        split
        · next hen => exact hadd _ _ _ rfl fun h => hg ⟨e, List.mem_of_getElem? he, .inl ⟨hen, h.symm⟩⟩
        · rfl
      · rfl
    · split
      · next e he =>
        split
        · next hen => exact hadd _ _ _ rfl fun h => hg ⟨e, List.mem_of_getElem? he, .inr ⟨hen, h.symm⟩⟩
        · rfl
      · rfl
  · rfl

theorem getFlag_foldl_completeClaim {g : Nat} (l : List Claim) {x : Tile} (hg : ¬namesFlag x g) : getFlag (l.foldl completeClaim x) g = getFlag x g := by
  induction l generalizing x with
  | nil => rfl
  | cons q r ih =>
    have hmap : ¬namesFlag (completeClaim x q) g := by rwa [namesFlag, completeClaim_map]
    rw [List.foldl_cons, ih hmap, getFlag_completeClaim hg]

theorem getFlag_completeOp {x : Tile} {g : Nat} (hg : ¬namesFlag x g) (op : Nat) : getFlag (completeOp x op) g = getFlag x g :=
  getFlag_foldl_completeClaim _ hg

theorem getFlag_completeOpnds {x : Tile} {g : Nat} (hg : ¬namesFlag x g) (op : Nat) (nums : List Nat) : getFlag (completeOpnds x op nums) g = getFlag x g :=
  getFlag_foldl_completeClaim _ hg

theorem completesOnly_foldl_completeClaim (l : List Claim) (x : Tile) : CompletesOnly x (l.foldl completeClaim x) := by
  induction l generalizing x with
  | nil => rfl
  | cons q r ih => exact (completesOnly_completeClaim x q).trans (ih _)

theorem completesOnly_completeOpnds (x : Tile) (op : Nat) (nums : List Nat) : CompletesOnly x (completeOpnds x op nums) := by
  have h := completesOnly_foldl_completeClaim (x.claims.filter (fun q => (decide (q.op = op) && nums.contains q.opnd) && q.taken)) x
  exact h

/-! ## Words that are read and corrected -/

/-- What reading words of the scratchpad does to the record of their single-bit errors (R161, R162). -/
structure Corrected (x y : Tile) : Prop where
  oneBit : ∀ w ∈ y.oneBit, w ∈ x.oneBit
  status : x.oneBit = [] → y.spadStatus = x.spadStatus

theorem corrected_correctReads (x : Tile) (l : List (Nat × Nat)) : Corrected x (correctReads x l) where
  oneBit := fun w hw => (List.mem_filter.1 hw).1
  status := fun h => by simp [correctReads, h, spadCorr]

theorem headClaims_oneBit (x : Tile) (c : Nat) (l : List Opnd) : (headClaims x c l).oneBit = x.oneBit := (congrArg Tile.oneBit (headClaims_frame x c l) :)
theorem headClaims_spadStatus (x : Tile) (c : Nat) (l : List Opnd) : (headClaims x c l).spadStatus = x.spadStatus := (congrArg Tile.spadStatus (headClaims_frame x c l) :)

theorem Corrected.of_headClaims {x y : Tile} {c : Nat} {o : List Opnd} (h : Corrected (headClaims x c o) y) : Corrected x y := by
  obtain ⟨hone, hstatus⟩ := h
  rw [headClaims_oneBit] at hone hstatus
  rw [headClaims_spadStatus] at hstatus
  exact ⟨hone, hstatus⟩

/-! ## The matrix class -/

/-- The first entry of a matrix instruction whose reads pass: the tile has its claims and corrections, and the operation has the entry. -/
theorem loadEntry_of_go {claim : Tile → List Opnd → Tile} {x : Tile} {m : MatOp} (h : (loadEntry claim x m).1 = .go) :
    ∃ l o r, (loadEntry claim x m).2.1 = correctReads (claim (claim x l) o) r ∧
      (loadEntry claim x m).2.2 = readWords (claim (claim x l) o) (readEntry (claim x l) (readFold (claim x l) m).2).2 := by
  unfold loadEntry at h ⊢
  dsimp only at h ⊢
  split at h
  next hopnd =>
    split at h
    next => cases h
    next htaken =>
      rw [if_neg htaken]
      split at h
      next hentry =>
        split at h
        next hwords =>
          split at h
          next => cases h
          next hall =>
            rw [if_neg hall]
            exact ⟨_, _, _, rfl, rfl⟩
        next hne => exact absurd h hne
      next hne => exact absurd h hne
  next hne => exact absurd h hne

theorem readFold_frame (x : Tile) (m : MatOp) : { (readFold x m).2 with fold := m.fold, listLen := m.listLen } = m := by
  unfold readFold
  split <;> rfl

theorem readEntry_frame (x : Tile) (m : MatOp) :
    { (readEntry x m).2 with aReg := m.aReg, bReg := m.bReg, kBound := m.kBound, mLo := m.mLo, mHi := m.mHi, gLo := m.gLo, gHi := m.gHi } = m := by
  unfold readEntry
  split
  · rfl
  · split <;> rfl

/-- What reading an entry and its lists leaves of the operation. -/
theorem readWords_frame (x y : Tile) (m : MatOp) :
    { readWords x (readEntry y (readFold y m).2).2 with
      fold := m.fold, listLen := m.listLen, aReg := m.aReg, bReg := m.bReg, kBound := m.kBound, mLo := m.mLo, mHi := m.mHi, gLo := m.gLo, gHi := m.gHi, loaded := m.loaded, aWords := m.aWords, bWords := m.bWords, kTotal := m.kTotal } = m := by
  have hfold := readFold_frame y m
  have hentry := readEntry_frame y (readFold y m).2
  generalize (readFold y m).2 = f at hfold hentry ⊢
  exact (congrArg (fun e : MatOp => { e with fold := m.fold, listLen := m.listLen, aReg := m.aReg, bReg := m.bReg, kBound := m.kBound, mLo := m.mLo, mHi := m.mHi, gLo := m.gLo, gHi := m.gHi, loaded := m.loaded, aWords := m.aWords, bWords := m.bWords, kTotal := m.kTotal }) hentry).trans
    (congrArg (fun e : MatOp => { e with aReg := m.aReg, bReg := m.bReg, kBound := m.kBound, mLo := m.mLo, mHi := m.mHi, gLo := m.gLo, gHi := m.gHi, loaded := m.loaded, aWords := m.aWords, bWords := m.bWords, kTotal := m.kTotal }) hfold)

/-- TMMA has no list: its one entry is the registers (R127). -/
theorem readEntry_readFold_tmma {x : Tile} {m : MatOp} (hop : matOpcode m = 0x40) (hfold : m.fold = none) : (readEntry x (readFold x m).2).2 = m := by
  have hf : (readFold x m).2 = m := by rw [readFold, if_pos (.inl (by rw [hop]; decide))]
  rw [hf, readEntry, if_neg (by rw [hop]; decide), hfold]

/-- The tile once a matrix instruction is taken. -/
def matTaken (i : Iss) (x : Tile) : Tile :=
  let m := (matFirst i).2.2
  let x := headTaken (withHead x (matFirst i).2.1) i.c
  let x := if i.bit 12 then takeSlot i.s.free m x else x
  let x := modSlot x m.slot (fun z => { z with pendingOps := z.pendingOps + 1, fmtA := m.fmtA, fmtB := m.fmtB })
  let x := makeClaims x m.id i.c false (matOpnds i.x m)
  { x with mats := x.mats ++ [m] }

theorem matAccept_eq (i : Iss) : matAccept i = { i.accept id (matTaken i) with free := i.s.free + 262144 } := rfl

section matTaken
variable (i : Iss) (x : Tile)

/-- The tile before the operation's own claims are made. -/
def matSlotted : Tile :=
  let y := headTaken (withHead x (matFirst i).2.1) i.c
  let y := if i.bit 12 then takeSlot i.s.free (matFirst i).2.2 y else y
  modSlot y (matFirst i).2.2.slot (fun z => { z with pendingOps := z.pendingOps + 1, fmtA := (matFirst i).2.2.fmtA, fmtB := (matFirst i).2.2.fmtB })

/-- Its own claims leave everything else of the tile as it was when the slot was taken. -/
theorem matTaken_claims : { matTaken i x with tags := (matSlotted i x).tags, circs := (matSlotted i x).circs, claims := (matSlotted i x).claims, mats := (matSlotted i x).mats } =
    matSlotted i x :=
  congrArg (fun y : Tile => { y with mats := (matSlotted i x).mats }) (claimsOnly_makeClaims (matOpnds i.x (matFirst i).2.2) (matFirst i).2.2.id i.c false (matSlotted i x))

theorem matSlotted_frame : { matSlotted i x with tags := x.tags, circs := x.circs, claims := x.claims, nextOp := x.nextOp, oneBit := x.oneBit, spadStatus := x.spadStatus, acc := x.acc, slots := x.slots } = x := by
  unfold matSlotted
  generalize (matFirst i).2.1 = z
  generalize (matFirst i).2.2 = m
  cases i.bit 12 <;> rfl

theorem matTaken_frame : { matTaken i x with tags := x.tags, circs := x.circs, claims := x.claims, nextOp := x.nextOp, oneBit := x.oneBit, spadStatus := x.spadStatus, acc := x.acc, slots := x.slots, mats := x.mats } = x := by
  have hslot := matSlotted_frame i x
  have hclaims := matTaken_claims i x
  generalize matSlotted i x = y at hslot hclaims
  generalize matTaken i x = z at hclaims ⊢
  rw [← hslot, ← hclaims]

theorem matTaken_mats : (matTaken i x).mats = x.mats ++ [(matFirst i).2.2] := by
  have hslot : (matSlotted i x).mats = x.mats := (congrArg Tile.mats (matSlotted_frame i x) :)
  have hclaims : (makeClaims (matSlotted i x) (matFirst i).2.2.id i.c false (matOpnds i.x (matFirst i).2.2)).mats = (matSlotted i x).mats :=
    (congrArg Tile.mats (claimsOnly_makeClaims (matOpnds i.x (matFirst i).2.2) (matFirst i).2.2.id i.c false (matSlotted i x)) :)
  show (makeClaims (matSlotted i x) (matFirst i).2.2.id i.c false (matOpnds i.x (matFirst i).2.2)).mats ++ _ = _
  rw [hclaims, hslot]

theorem matTaken_slots : (matTaken i x).slots = (matSlotted i x).slots := (congrArg Tile.slots (matTaken_claims i x) :)
theorem matTaken_acc : (matTaken i x).acc = (matSlotted i x).acc := (congrArg Tile.acc (matTaken_claims i x) :)

theorem corrected_matTaken {y : Tile} (h : Corrected y (matFirst i).2.1) : Corrected y (matTaken i x) := by
  have hone : (matTaken i x).oneBit = (matFirst i).2.1.oneBit := by
    rw [show (matTaken i x).oneBit = (matSlotted i x).oneBit from (congrArg Tile.oneBit (matTaken_claims i x) :)]
    unfold matSlotted
    dsimp only
    split <;> rfl
  have hstatus : (matTaken i x).spadStatus = (matFirst i).2.1.spadStatus := by
    rw [show (matTaken i x).spadStatus = (matSlotted i x).spadStatus from (congrArg Tile.spadStatus (matTaken_claims i x) :)]
    unfold matSlotted
    dsimp only
    split <;> rfl
  exact ⟨fun w hw => h.oneBit w (hone ▸ hw), fun hnone => hstatus.trans (h.status hnone)⟩

end matTaken

/-- A cleared word of the accumulator reads +0 in every cell. -/
theorem smGet_clearRange {w : Nat} (m : List (Nat × BitVec w)) (a n b : Nat) : smGet (clearRange m a n) b = if a ≤ b ∧ b < a + n then 0 else smGet m b := by
  induction m with
  | nil => simp [clearRange, smGet, tabGet?]
  | cons q r ih =>
    obtain ⟨k, v⟩ := q
    unfold clearRange at ih ⊢
    by_cases hk : a ≤ k ∧ k < a + n
    · rw [List.filter_cons_of_neg (by simpa using hk), ih]
      split
      · rfl
      · next hb =>
        have hne : b ≠ k := by rintro rfl; exact hb hk
        simp [smGet, tabGet?, hne]
    · rw [List.filter_cons_of_pos (by simp; omega)]
      by_cases hb : b = k
      · subst hb; rw [if_neg hk]; simp [smGet, tabGet?]
      · simpa [smGet, tabGet?, hb] using ih

theorem smGet_clearSlot (m : SMap 32) {slot row col : Nat} (hrow : row < 128) (hcol : col < 512) :
    smGet (clearRange m (accKey slot 0 0) 65536) ((slot * 128 + row) * 512 + col) = 0 := by
  rw [smGet_clearRange, if_pos (by rw [accKey]; omega)]

/-- The first entry of an instruction that is taken, as the head read it. -/
theorem matFirst_of_go {i : Iss} (h : matCheck i = .go) :
    ∃ l o r, (matFirst i).2.1 = correctReads (headClaims (headClaims i.x i.c l) i.c o) r ∧
      (matFirst i).2.2 = readWords (headClaims (headClaims i.x i.c l) i.c o) (readEntry (headClaims i.x i.c l) (readFold (headClaims i.x i.c l) (matBase i)).2).2 :=
  loadEntry_of_go (firstOf_eq_go h (matFirst i).1 (by simp))

theorem corrected_matFirst {i : Iss} (h : matCheck i = .go) : Corrected i.x (matFirst i).2.1 := by
  obtain ⟨l, o, r, htile, -⟩ := matFirst_of_go h
  rw [htile]
  exact (corrected_correctReads _ r).of_headClaims.of_headClaims

/-- What the first entry leaves of the operation as its registers gave it. -/
theorem matFirst_frame {i : Iss} (h : matCheck i = .go) :
    { (matFirst i).2.2 with
      fold := (matBase i).fold, listLen := (matBase i).listLen, aReg := (matBase i).aReg, bReg := (matBase i).bReg, kBound := (matBase i).kBound, mLo := (matBase i).mLo,
      mHi := (matBase i).mHi, gLo := (matBase i).gLo, gHi := (matBase i).gHi, loaded := (matBase i).loaded, aWords := (matBase i).aWords,
      bWords := (matBase i).bWords, kTotal := (matBase i).kTotal } = matBase i := by
  obtain ⟨l, o, r, -, hop⟩ := matFirst_of_go h
  rw [hop]
  exact readWords_frame _ _ _

theorem matFirst_loaded {i : Iss} (h : matCheck i = .go) : (matFirst i).2.2.loaded = true := by
  obtain ⟨l, o, r, -, hop⟩ := matFirst_of_go h
  rw [hop]
  rfl

/-- The registers of an instruction without a list (R127). -/
theorem matFirst_tmma {i : Iss} (h : matCheck i = .go) (hop : bits i.w 7 0 = 0x40) :
    (matFirst i).2.2.aReg = (matBase i).aReg ∧ (matFirst i).2.2.bReg = (matBase i).bReg ∧ (matFirst i).2.2.kBound = (matBase i).kBound := by
  obtain ⟨l, o, r, -, hm⟩ := matFirst_of_go h
  rw [hm, readEntry_readFold_tmma (m := matBase i) hop rfl]
  exact ⟨rfl, rfl, rfl⟩

section matIssue
variable {s : State} {t : Fin 64} {c : Fin 4} {op : Nat} {w : BitVec 120} {p : Nat} {part : Part}

/-- The tile whose context has gone on. -/
def goneOn (s : State) (t c : Nat) : Tile := modCtx { getTile s t with lending := false } c acceptCtx

theorem matIssue_taken (h : AtHead s t c op w (matRsv op) p part) (hgo : matCheck (issOf s t c op w p part) = .go) :
    matIssue s t c op w = .next (matAccept (issOf s t c op w p part)) := issue_go h _ _ hgo

theorem getTile_matAccept (i : Iss) : getTile (matAccept i) i.t = matTaken i (modCtx { i.x with lending := false } i.c acceptCtx) :=
  (getTile_setTile i.s i.t i.t _).trans (if_pos rfl)

theorem onlyTile_free {s' : State} {n : Nat} (h : OnlyTile s s' t c) : OnlyTile s { s' with free := n } t c :=
  ⟨h.rest, h.others, h.power, h.ctxs⟩

theorem matAccept_wentOn : let s' := matAccept (issOf s t c op w p part)
    OnlyTile s s' t c ∧ WentOn (ctxOf s t c) (ctxOf s' t c) := by
  obtain ⟨honly, hwent⟩ := accept_wentOn (s := s) (t := t) (c := c) (op := op) (w := w) (p := p) (part := part) (g := matTaken (issOf s t c op w p part))
    (fun y => (congrArg Tile.ctx (matTaken_frame _ y) :)) (fun y => (congrArg Tile.lending (matTaken_frame _ y) :))
  exact ⟨onlyTile_free honly, hwent⟩

theorem listsRead_matTaken {i : Iss} (hgo : matCheck i = .go) {x : Tile}
    (hx : { x with ctx := i.x.ctx, lending := i.x.lending } = i.x) : ListsRead i.x (matTaken i x) := by
  have hcorr := corrected_matTaken i x (corrected_matFirst hgo)
  have hframe : { matTaken i x with
      ctx := i.x.ctx, lending := i.x.lending, tags := i.x.tags, circs := i.x.circs, claims := i.x.claims, nextOp := i.x.nextOp, oneBit := i.x.oneBit, spadStatus := i.x.spadStatus,
      acc := i.x.acc, slots := i.x.slots, mats := i.x.mats } = i.x := by
    have hgone := matTaken_frame i x
    generalize matTaken i x = z at hgone ⊢
    generalize i.x = y at hx ⊢
    exact (congrArg (fun e : Tile => { e with
      ctx := y.ctx, lending := y.lending, tags := y.tags, circs := y.circs, claims := y.claims, nextOp := y.nextOp, oneBit := y.oneBit, spadStatus := y.spadStatus,
      acc := y.acc, slots := y.slots, mats := y.mats }) hgone).trans (congrArg (fun e : Tile => { e with
      tags := y.tags, circs := y.circs, claims := y.claims, nextOp := y.nextOp, oneBit := y.oneBit, spadStatus := y.spadStatus,
      acc := y.acc, slots := y.slots, mats := y.mats }) hx)
  exact ⟨(congrArg Tile.spad hframe :), fun g _ => (congrArg (fun e : Tile => getFlag e g) hframe :),
    ⟨(congrArg Tile.poison hframe :), (congrArg Tile.twoBit hframe :), (congrArg Tile.errStatus hframe :), (congrArg Tile.excStatus hframe :), (congrArg Tile.excInfo hframe :)⟩,
    hcorr.oneBit, hcorr.status, (congrArg Tile.ctrs hframe :), (congrArg Tile.cur hframe :), (congrArg Tile.arr hframe :)⟩

/-- The slot of a matrix instruction that is taken (R57, R65). -/
theorem getSlot_matTaken (i : Iss) (x : Tile) :
    getSlot (matTaken i x) (matFirst i).2.2.slot =
      { (if i.bit 12 then { st := .accumulating, shape := (matFirst i).2.2.shape, mode := (matFirst i).2.2.mode, fmtA := (matFirst i).2.2.fmtA, fmtB := (matFirst i).2.2.fmtB, owner := (matFirst i).2.2.ctx, undefBase := i.s.free }
          else getSlot x (matFirst i).2.2.slot : Slot) with
        pendingOps := (if i.bit 12 then 0 else (getSlot x (matFirst i).2.2.slot).pendingOps) + 1, fmtA := (matFirst i).2.2.fmtA, fmtB := (matFirst i).2.2.fmtB } := by
  rw [getSlot, matTaken_slots]
  unfold matSlotted modSlot
  generalize (matFirst i).2.1 = z
  generalize (matFirst i).2.2 = m
  refine (getSlot_setSlot _ m.slot m.slot _).trans ((if_pos rfl).trans ?_)
  cases i.bit 12
  · rfl
  · dsimp only
    rw [if_pos rfl, takeSlot, getSlot_setSlot, if_pos rfl]
    rfl

theorem acc_matTaken_of_zero {i : Iss} (h : i.bit 12 = false) (x : Tile) : (matTaken i x).acc = x.acc := by
  rw [matTaken_acc, matSlotted, if_neg (by simp [h])]
  rfl

theorem acc_takeSlot (free : Nat) (m : MatOp) (x : Tile) {row col : Nat} (hrow : row < 128) (hcol : col < 512) :
    smGet (takeSlot free m x).acc ((m.slot * 128 + row) * 512 + col) = 0 := by
  show smGet (if m.mode = .ext then _ else _ : SMap 32) _ = 0
  split
  · rw [smGet_clearRange]
    split
    · rfl
    · exact smGet_clearSlot _ hrow hcol
  · exact smGet_clearSlot _ hrow hcol

theorem acc_matTaken_of_one {i : Iss} (h : i.bit 12 = true) (x : Tile) {row col : Nat} (hrow : row < 128) (hcol : col < 512) :
    smGet (matTaken i x).acc (((matFirst i).2.2.slot * 128 + row) * 512 + col) = 0 := by
  rw [matTaken_acc, matSlotted, if_pos h]
  generalize (matFirst i).2.1 = z
  generalize (matFirst i).2.2 = m
  exact acc_takeSlot i.s.free m (headTaken (withHead x z) i.c) hrow hcol

/-- A matrix instruction that passes its checks is taken. -/
theorem matIssue_spec (hop : op < 256) (h : AtHead s t c op w (matRsv op) p part) (hgo : matCheck (issOf s t c op w p part) = .go) :
    let v := wordOf w op
    let x := getTile s t
    let k := ctxOf s t c
    ∃ s', matIssue s t c op w = .next s' ∧ OnlyTile s s' t c ∧ WentOn k (ctxOf s' t c) ∧ ListsRead x (getTile s' t) ∧
      (∃ m, (getTile s' t).mats = x.mats ++ [m] ∧ m.ctx = c.val ∧ m.pc = k.pc ∧ m.word = v ∧ m.slot = bits v 11 10 ∧ m.loaded = true ∧ m.listIdx = 0 ∧
        m.aReg0 = readS k (bits v 60 56) ∧ m.bReg0 = readS k (bits v 65 61) ∧
        (op = 0x40 → m.aReg = readS k (bits v 60 56) ∧ m.bReg = readS k (bits v 65 61) ∧ m.kBound = (readB k (bits v 43 40)).toNat) ∧
        m.pWord = readS k (bits v 70 66) ∧ m.qWord = readS k (bits v 75 71) ∧
        m.mBound = (readB k (bits v 35 32)).toNat ∧ m.nBound = (readB k (bits v 39 36)).toNat ∧
        m.rowMask = readM k (bits v 46 44) ∧ m.done = (if v.getLsbD 96 then some (bits v 104 97) else none)) ∧
      (getSlot (getTile s' t) (bits v 11 10)).pendingOps = (if v.getLsbD 12 then 0 else (getSlot x (bits v 11 10)).pendingOps) + 1 ∧
      (v.getLsbD 12 = true → (getSlot (getTile s' t) (bits v 11 10)).st = .accumulating ∧ (getSlot (getTile s' t) (bits v 11 10)).owner = c.val ∧
        ∀ row < 128, ∀ col < 512, smGet (getTile s' t).acc ((bits v 11 10 * 128 + row) * 512 + col) = 0) ∧
      (v.getLsbD 12 = false → (getTile s' t).acc = x.acc) := by
  intro v x k
  have hfirst := matFirst_frame hgo
  obtain ⟨honly, hwent⟩ := matAccept_wentOn (s := s) (t := t) (c := c) (op := op) (w := w) (p := p) (part := part)
  have htile : getTile (matAccept (issOf s t c op w p part)) t = matTaken (issOf s t c op w p part) (goneOn s t c) := getTile_matAccept _
  have hslot := getSlot_matTaken (issOf s t c op w p part) (goneOn s t c)
  rw [show (matFirst (issOf s t c op w p part)).2.2.slot = bits v 11 10 from (congrArg MatOp.slot hfirst :)] at hslot
  refine ⟨_, matIssue_taken h hgo, honly, hwent, ?_, ?_, ?_, ?_, ?_⟩
  · rw [htile]
    exact listsRead_matTaken hgo rfl
  · refine ⟨_, (congrArg Tile.mats htile : _).trans (matTaken_mats _ _), (congrArg MatOp.ctx hfirst :), (congrArg MatOp.pc hfirst :), (congrArg MatOp.word hfirst :),
      (congrArg MatOp.slot hfirst :), matFirst_loaded hgo, (congrArg MatOp.listIdx hfirst :), (congrArg MatOp.aReg0 hfirst :), (congrArg MatOp.bReg0 hfirst :), fun h40 => ?_,
      (congrArg MatOp.pWord hfirst :), (congrArg MatOp.qWord hfirst :), (congrArg MatOp.mBound hfirst :), (congrArg MatOp.nBound hfirst :),
      (congrArg MatOp.rowMask hfirst :), (congrArg MatOp.done hfirst :)⟩
    exact matFirst_tmma hgo ((bits_wordOf_opcode w hop).trans h40)
  · rw [htile, hslot]
    rfl
  · intro hzero
    refine ⟨?_, ?_, fun row hrow col hcol => ?_⟩
    · rw [htile, hslot, if_pos (show (issOf s t c op w p part).bit 12 = true from hzero)]
    · rw [htile, hslot, if_pos (show (issOf s t c op w p part).bit 12 = true from hzero)]
      exact (congrArg MatOp.ctx hfirst :)
    · rw [htile, ← show (matFirst (issOf s t c op w p part)).2.2.slot = bits v 11 10 from (congrArg MatOp.slot hfirst :)]
      exact acc_matTaken_of_one (i := issOf s t c op w p part) hzero _ hrow hcol
  · intro hkept
    rw [htile, acc_matTaken_of_zero (i := issOf s t c op w p part) hkept]
    rfl

end matIssue

/-! ## The vector class -/

/-- A vector instruction takes a FREE slot as its destination (R142). -/
def vecFresh (i : Iss) : Bool := (vecOf i).dk = 0 && (getSlot i.x (vecOf i).d).st = .free

/-- The tile whose destination slot has been taken. -/
def vecSlotted (i : Iss) (x : Tile) : Tile :=
  if vecFresh i then setSlot { x with acc := clearRange x.acc (accKey (vecOf i).d 0 0) 65536 } (vecOf i).d
    { st := .accumulating, owner := i.c, fmtA := anyFmt, fmtB := anyFmt, undefBase := i.s.free } else x

/-- The tile once a vector instruction is taken. -/
def vecTaken (i : Iss) (x : Tile) : Tile :=
  let v := vecOf i
  let x := makeClaims (addTracks (vecSlotted i x) i.c v.id (vecOpnds v)) v.id i.c false ((vecOpnds v).filter (fun o => !o.write))
  { x with vecs := x.vecs ++ [v], nextOp := max x.nextOp (v.id + 1) }

theorem vecAccept_eq (i : Iss) : vecAccept i = { i.accept id (vecTaken i) with free := i.s.free + 262144 } := rfl

section vecTaken
variable (i : Iss) (x : Tile)

theorem vecSlotted_frame : { vecSlotted i x with acc := x.acc, slots := x.slots } = x := by
  unfold vecSlotted
  cases vecFresh i <;> rfl

/-- Claims, tracks and the operation itself are all that a taken vector instruction adds to its slot. -/
theorem vecTaken_slotted : { vecTaken i x with
    tags := (vecSlotted i x).tags, circs := (vecSlotted i x).circs, claims := (vecSlotted i x).claims, tracks := (vecSlotted i x).tracks, vecs := (vecSlotted i x).vecs,
    nextOp := (vecSlotted i x).nextOp } = vecSlotted i x := by
  have hclaims := claimsOnly_makeClaims ((vecOpnds (vecOf i)).filter (fun o => !o.write)) (vecOf i).id i.c false (addTracks (vecSlotted i x) i.c (vecOf i).id (vecOpnds (vecOf i)))
  unfold vecTaken
  generalize vecSlotted i x = y at hclaims ⊢
  exact (congrArg (fun e : Tile => { e with tracks := y.tracks, vecs := y.vecs, nextOp := y.nextOp }) hclaims :)

/-- A taken vector instruction leaves the stores of the tile as they are. -/
theorem vecTaken_frame : { vecTaken i x with
    acc := x.acc, slots := x.slots, tags := x.tags, circs := x.circs, claims := x.claims, tracks := x.tracks, vecs := x.vecs, nextOp := x.nextOp } = x := by
  have hslot := vecSlotted_frame i x
  have htaken := vecTaken_slotted i x
  generalize vecSlotted i x = y at hslot htaken
  generalize vecTaken i x = z at htaken ⊢
  exact (congrArg (fun e : Tile => { e with acc := x.acc, slots := x.slots, tags := x.tags, circs := x.circs, claims := x.claims, tracks := x.tracks, vecs := x.vecs, nextOp := x.nextOp }) htaken).trans (congrArg (fun e : Tile => { e with tags := x.tags, circs := x.circs, claims := x.claims, tracks := x.tracks, vecs := x.vecs, nextOp := x.nextOp }) hslot)

theorem vecTaken_vecs : (vecTaken i x).vecs = x.vecs ++ [vecOf i] := by
  have hslot : (vecSlotted i x).vecs = x.vecs := (congrArg Tile.vecs (vecSlotted_frame i x) :)
  have hclaims : (makeClaims (addTracks (vecSlotted i x) i.c (vecOf i).id (vecOpnds (vecOf i))) (vecOf i).id i.c false ((vecOpnds (vecOf i)).filter (fun o => !o.write))).vecs =
      (vecSlotted i x).vecs := (congrArg Tile.vecs (claimsOnly_makeClaims _ _ i.c false (addTracks (vecSlotted i x) i.c (vecOf i).id (vecOpnds (vecOf i)))) :)
  show (makeClaims _ _ _ _ _).vecs ++ _ = _
  rw [hclaims, hslot]

theorem vecTaken_slots : (vecTaken i x).slots = (vecSlotted i x).slots := (congrArg Tile.slots (vecTaken_slotted i x) :)
theorem vecTaken_acc : (vecTaken i x).acc = (vecSlotted i x).acc := (congrArg Tile.acc (vecTaken_slotted i x) :)

end vecTaken

section vecIssue
variable {s : State} {t : Fin 64} {c : Fin 4} {op : Nat} {w : BitVec 120} {p : Nat} {part : Part}

theorem vecIssue_taken (h : AtHead s t c op w [(127, 64)] p part) (hgo : vecCheck (issOf s t c op w p part) = .go) :
    vecIssue s t c op w = .next (vecAccept (issOf s t c op w p part)) := issue_go h _ _ hgo

theorem getTile_vecAccept (i : Iss) : getTile (vecAccept i) i.t = vecTaken i (modCtx { i.x with lending := false } i.c acceptCtx) :=
  (getTile_setTile i.s i.t i.t _).trans (if_pos rfl)

theorem vecAccept_wentOn : let s' := vecAccept (issOf s t c op w p part)
    OnlyTile s s' t c ∧ WentOn (ctxOf s t c) (ctxOf s' t c) := by
  obtain ⟨honly, hwent⟩ := accept_wentOn (s := s) (t := t) (c := c) (op := op) (w := w) (p := p) (part := part) (g := vecTaken (issOf s t c op w p part))
    (fun y => (congrArg Tile.ctx (vecTaken_frame _ y) :)) (fun y => (congrArg Tile.lending (vecTaken_frame _ y) :))
  exact ⟨onlyTile_free honly, hwent⟩

/-- A vector instruction that passes its checks is taken. -/
theorem vecIssue_spec (hop : op < 256) (h : AtHead s t c op w [(127, 64)] p part) (hgo : vecCheck (issOf s t c op w p part) = .go) :
    let v := wordOf w op
    let x := getTile s t
    let k := ctxOf s t c
    let fresh := bits v 9 8 = 0 ∧ (getSlot x (bits v 14 10)).st = .free
    ∃ s', vecIssue s t c op w = .next s' ∧ OnlyTile s s' t c ∧ WentOn k (ctxOf s' t c) ∧ SameStore x (getTile s' t) ∧
      (∃ z, (getTile s' t).vecs = x.vecs ++ [z] ∧ z.ctx = c.val ∧ z.pc = k.pc ∧ z.opcode.toNat = op ∧
        z.aWord = readS k (bits v 21 17) ∧ z.bWord = readS k (bits v 28 24) ∧ z.cWord = readS k (bits v 35 31) ∧ z.dWord = readS k (bits v 14 10) ∧
        z.mBound = (readB k (bits v 39 36)).toNat ∧ z.nBound = (readB k (bits v 43 40)).toNat ∧
        z.rowMask = readM k (bits v 46 44) ∧ z.colMask = readM k (bits v 49 47) ∧ z.done = (if v.getLsbD 55 then some (bits v 63 56) else none)) ∧
      (fresh → (getSlot (getTile s' t) (bits v 14 10)).st = .accumulating ∧ (getSlot (getTile s' t) (bits v 14 10)).owner = c.val ∧
        ∀ row < 128, ∀ col < 512, smGet (getTile s' t).acc ((bits v 14 10 * 128 + row) * 512 + col) = 0) ∧
      (¬fresh → (getTile s' t).acc = x.acc ∧ (getTile s' t).slots = x.slots) := by
  intro v x k fresh
  have hfresh : vecFresh (issOf s t c op w p part) = decide fresh := (Bool.decide_and _ _).symm
  obtain ⟨honly, hwent⟩ := vecAccept_wentOn (s := s) (t := t) (c := c) (op := op) (w := w) (p := p) (part := part)
  have htile : getTile (vecAccept (issOf s t c op w p part)) t = vecTaken (issOf s t c op w p part) (goneOn s t c) := getTile_vecAccept _
  have hframe := vecTaken_frame (issOf s t c op w p part) (goneOn s t c)
  refine ⟨_, vecIssue_taken h hgo, honly, hwent, ?_, ?_, fun hf => ?_, fun hf => ?_⟩
  · rw [htile]
    exact ⟨(congrArg Tile.spad hframe :), (congrArg Tile.flags hframe :),
      ⟨(congrArg Tile.poison hframe :), (congrArg Tile.oneBit hframe :), (congrArg Tile.twoBit hframe :), (congrArg Tile.errStatus hframe :),
        (congrArg Tile.excStatus hframe :), (congrArg Tile.excInfo hframe :), (congrArg Tile.spadStatus hframe :)⟩,
      (congrArg Tile.ctrs hframe :), (congrArg Tile.cur hframe :), (congrArg Tile.arr hframe :)⟩
  · exact ⟨vecOf (issOf s t c op w p part), (congrArg Tile.vecs htile : _).trans (vecTaken_vecs _ _), rfl, rfl, Nat.mod_eq_of_lt hop,
      rfl, rfl, rfl, rfl, rfl, rfl, rfl, rfl, rfl⟩
  · have hslot : vecSlotted (issOf s t c op w p part) (goneOn s t c) = setSlot { goneOn s t c with acc := clearRange x.acc (accKey (bits v 14 10) 0 0) 65536 } (bits v 14 10)
        { st := .accumulating, owner := c, fmtA := anyFmt, fmtB := anyFmt, undefBase := s.free } := if_pos (hfresh.trans (decide_eq_true hf))
    have hget : getSlot (getTile (vecAccept (issOf s t c op w p part)) t) (bits v 14 10) = { st := .accumulating, owner := c, fmtA := anyFmt, fmtB := anyFmt, undefBase := s.free } := by
      rw [htile, getSlot, vecTaken_slots, hslot]
      exact (getSlot_setSlot _ _ _ _).trans (if_pos rfl)
    refine ⟨congrArg Slot.st hget, congrArg Slot.owner hget, fun row hrow col hcol => ?_⟩
    rw [htile, vecTaken_acc, hslot]
    exact smGet_clearSlot _ hrow hcol
  · have hslot : vecSlotted (issOf s t c op w p part) (goneOn s t c) = goneOn s t c := if_neg (by rw [hfresh]; simpa using hf)
    rw [htile, vecTaken_acc, vecTaken_slots, hslot]
    exact ⟨rfl, rfl⟩

end vecIssue

/-! ## DRAIN, RESCALE and LSWAP -/

/-- The descriptor of a drain that is taken, as the head claimed and read it (R139, R161). -/
theorem drainHead_of_go {i : Iss} (h : (drainHead i).1 = .go) :
    ∃ r, (drainHead i).2 = (correctReads (headClaims i.x i.c [descOpnd i]) r, drainOf i (headClaims i.x i.c [descOpnd i])) := by
  unfold drainHead at h ⊢
  dsimp only at h ⊢
  split at h
  next hspad =>
    split at h
    next => cases h
    next htaken =>
      rw [if_neg htaken]
      exact ⟨_, rfl⟩
  next hne => exact absurd h hne

/-- The tile that has read the descriptor of its drain. -/
def drainRead (i : Iss) (x : Tile) : Tile := completeOpnds (headTaken (withHead x (drainHead i).2.1) i.c) (drainHead i).2.2.id [13]

/-- Its slots then, the slot and a gating partner DRAINING (R106). -/
def drainSlots (d : DrainOp) (x : Tile) : Tile :=
  let y := modSlot x d.slot (fun z => { z with st := .draining })
  if dStep d.desc 5 then modSlot y d.partner (fun z => { z with st := .draining }) else y

/-- The tile once a drain is taken. -/
def drainTaken (i : Iss) (x : Tile) : Tile :=
  let d := (drainHead i).2.2
  let y := drainRead i x
  let y := addTracks (drainSlots d y) i.c d.id (drainOpnds (getSlot y d.slot) d)
  { y with drains := y.drains ++ [d] }

section drainTaken
variable (i : Iss) (x : Tile)

theorem drainSlots_frame (d : DrainOp) : { drainSlots d x with slots := x.slots } = x := by
  unfold drainSlots
  cases dStep d.desc 5 <;> rfl

theorem drainRead_frame : { drainRead i x with
    tags := x.tags, circs := x.circs, claims := x.claims, nextOp := x.nextOp, oneBit := x.oneBit, spadStatus := x.spadStatus, flags := x.flags, tracks := x.tracks } = x := by
  unfold drainRead
  generalize (drainHead i).2.1 = y
  have hdone := completesOnly_completeOpnds (headTaken (withHead x y) i.c) (drainHead i).2.2.id [13]
  unfold CompletesOnly at hdone
  generalize completeOpnds _ _ _ = z at hdone ⊢
  exact (congrArg (fun e : Tile => { e with
    tags := x.tags, circs := x.circs, claims := x.claims, nextOp := x.nextOp, oneBit := x.oneBit, spadStatus := x.spadStatus, flags := x.flags, tracks := x.tracks }) hdone :)

theorem drainTaken_read : { drainTaken i x with slots := (drainRead i x).slots, tracks := (drainRead i x).tracks, drains := (drainRead i x).drains } = drainRead i x := by
  have hslots := drainSlots_frame (drainRead i x) (drainHead i).2.2
  unfold drainTaken
  generalize drainRead i x = y at hslots ⊢
  generalize (drainHead i).2.2 = d at hslots ⊢
  exact (congrArg (fun e : Tile => { e with tracks := y.tracks, drains := y.drains }) hslots :)

theorem drainTaken_frame : { drainTaken i x with
    slots := x.slots, drains := x.drains, tags := x.tags, circs := x.circs, claims := x.claims, nextOp := x.nextOp, oneBit := x.oneBit, spadStatus := x.spadStatus,
    flags := x.flags, tracks := x.tracks } = x := by
  have hread := drainRead_frame i x
  have htaken := drainTaken_read i x
  generalize drainRead i x = y at hread htaken
  generalize drainTaken i x = z at htaken ⊢
  exact (congrArg (fun e : Tile => { e with
    slots := x.slots, drains := x.drains, tags := x.tags, circs := x.circs, claims := x.claims, nextOp := x.nextOp, oneBit := x.oneBit, spadStatus := x.spadStatus,
    flags := x.flags, tracks := x.tracks }) htaken).trans (congrArg (fun e : Tile => { e with slots := x.slots, drains := x.drains }) hread)

theorem corrected_drainTaken {y : Tile} (h : Corrected y (drainHead i).2.1) : Corrected y (drainTaken i x) := by
  have hread : (drainRead i x).oneBit = (drainHead i).2.1.oneBit ∧ (drainRead i x).spadStatus = (drainHead i).2.1.spadStatus := by
    have hdone := completesOnly_completeOpnds (headTaken (withHead x (drainHead i).2.1) i.c) (drainHead i).2.2.id [13]
    exact ⟨(congrArg Tile.oneBit hdone :), (congrArg Tile.spadStatus hdone :)⟩
  have htaken := drainTaken_read i x
  obtain ⟨hone, hstatus⟩ := hread
  exact ⟨fun w hw => h.oneBit w (hone ▸ (congrArg Tile.oneBit htaken :) ▸ hw),
    fun hnone => ((congrArg Tile.spadStatus htaken : _).trans hstatus).trans (h.status hnone)⟩

theorem getFlag_drainTaken {g : Nat} (hg : ¬namesFlag x g) : getFlag (drainTaken i x) g = getFlag x g := by
  have hflags : (drainTaken i x).flags = (drainRead i x).flags := (congrArg Tile.flags (drainTaken_read i x) :)
  rw [getFlag, hflags]
  exact getFlag_completeOpnds (x := headTaken (withHead x (drainHead i).2.1) i.c) hg _ _

theorem drainTaken_drains : (drainTaken i x).drains = x.drains ++ [(drainHead i).2.2] := by
  have hread : (drainRead i x).drains = x.drains := (congrArg Tile.drains (drainRead_frame i x) :)
  have hslots : (drainSlots (drainHead i).2.2 (drainRead i x)).drains = (drainRead i x).drains := (congrArg Tile.drains (drainSlots_frame _ _) :)
  show (drainSlots (drainHead i).2.2 (drainRead i x)).drains ++ _ = _
  rw [hslots, hread]

theorem drainTaken_draining : (getSlot (drainTaken i x) (drainHead i).2.2.slot).st = .draining := by
  show (getSlot (drainSlots (drainHead i).2.2 (drainRead i x)) (drainHead i).2.2.slot).st = .draining
  unfold drainSlots modSlot
  dsimp only
  split
  · rw [getSlot_setSlot]
    split
    · rfl
    · rw [getSlot_setSlot, if_pos rfl]
  · rw [getSlot_setSlot, if_pos rfl]

end drainTaken

section
variable {s : State} {t : Fin 64} {c : Fin 4} {w : BitVec 120} {p : Nat} {part : Part}

theorem exec_drain (h : AtHead s t c 0x48 w [(9, 8), (127, 52)] p part) (hgo : drainCheck (issOf s t c 0x48 w p part) = .go) :
    exec (.drain t c w) s = .next ((issOf s t c 0x48 w p part).accept id (drainTaken (issOf s t c 0x48 w p part))) := by
  show execDrain t c w s = _
  exact issue_go h _ _ hgo

theorem drain_spec (h : AtHead s t c 0x48 w [(9, 8), (127, 52)] p part) (hgo : drainCheck (issOf s t c 0x48 w p part) = .go) :
    let x := getTile s t
    let k := ctxOf s t c
    let v := wordOf w 0x48
    let i := issOf s t c 0x48 w p part
    let a := bits (readS k (bits v 18 14)) 23 0 + claimShift (headClaims x c [descOpnd i]) (headOp x c) 13
    ∃ s', exec (.drain t c w) s = .next s' ∧ OnlyTile s s' t c ∧ WentOn k (ctxOf s' t c) ∧ ListsRead x (getTile s' t) ∧
      (getTile s' t).acc = x.acc ∧ (getSlot (getTile s' t) (bits v 11 10)).st = .draining ∧
      ∃ d, (getTile s' t).drains = x.drains ++ [d] ∧ d.ctx = c.val ∧ d.slot = bits v 11 10 ∧ d.partner = bits v 13 12 ∧ d.started = false ∧
        d.desc = readLE x.spad a 64 512 ∧ d.done = (if v.getLsbD 43 then some (bits v 51 44) else none) := by
  intro x k v i a
  have hhead : (drainHead i).1 = .go := firstOf_eq_go hgo _ (by rw [show i = issOf s t c 0x48 w p part from rfl]; simp)
  obtain ⟨r, hr⟩ := drainHead_of_go hhead
  have hop : (drainHead i).2.2 = drainOf i (headClaims x c [descOpnd i]) := (congrArg Prod.snd hr :)
  have hread : (drainHead i).2.1 = correctReads (headClaims x c [descOpnd i]) r := (congrArg Prod.fst hr :)
  obtain ⟨honly, hwent⟩ := accept_wentOn (s := s) (t := t) (c := c) (op := 0x48) (w := w) (p := p) (part := part) (g := drainTaken i)
    (fun y => (congrArg Tile.ctx (drainTaken_frame i y) :)) (fun y => (congrArg Tile.lending (drainTaken_frame i y) :))
  have htile : getTile (i.accept id (drainTaken i)) t = drainTaken i (goneOn s t c) := (getTile_accept _ _ _).trans (if_pos rfl)
  have hframe := drainTaken_frame i (goneOn s t c)
  have hcorr : Corrected x (drainTaken i (goneOn s t c)) := corrected_drainTaken i _ (hread ▸ (corrected_correctReads _ r).of_headClaims)
  have hdrains := drainTaken_drains i (goneOn s t c)
  have hslot := drainTaken_draining i (goneOn s t c)
  rw [hop] at hdrains hslot
  refine ⟨_, exec_drain h hgo, honly, hwent, ?_, ?_, ?_, _, (congrArg Tile.drains htile : _).trans hdrains, rfl, rfl, rfl, rfl, rfl, rfl⟩
  · rw [htile]
    exact ⟨(congrArg Tile.spad hframe :), fun g hg => getFlag_drainTaken i (goneOn s t c) hg,
      ⟨(congrArg Tile.poison hframe :), (congrArg Tile.twoBit hframe :), (congrArg Tile.errStatus hframe :), (congrArg Tile.excStatus hframe :), (congrArg Tile.excInfo hframe :)⟩,
      hcorr.oneBit, hcorr.status, (congrArg Tile.ctrs hframe :), (congrArg Tile.cur hframe :), (congrArg Tile.arr hframe :)⟩
  · rw [htile]
    exact (congrArg Tile.acc hframe :)
  · rw [htile]
    exact hslot

/-- The tile once a rescale is taken. -/
def rescaleTaken (i : Iss) (x : Tile) : Tile :=
  { modSlot x (i.bits 11 10) (fun z => { z with rescaling := true }) with
    rescales := x.rescales ++ [{ ctx := i.c, target := i.bits 11 10, source := i.bits 13 12, started := false }] }

theorem exec_rescale (h : AtHead s t c 0x44 w [(9, 8), (127, 14)] p part) (hgo : rescaleCheck (issOf s t c 0x44 w p part) = .go) :
    exec (.rescale t c w) s = .next ((issOf s t c 0x44 w p part).accept id (rescaleTaken (issOf s t c 0x44 w p part))) := by
  show execRescale t c w s = _
  exact issue_go h _ _ hgo

theorem rescale_spec (h : AtHead s t c 0x44 w [(9, 8), (127, 14)] p part) (hgo : rescaleCheck (issOf s t c 0x44 w p part) = .go) :
    let x := getTile s t
    let v := wordOf w 0x44
    ∃ s', exec (.rescale t c w) s = .next s' ∧ OnlyTile s s' t c ∧ WentOn (ctxOf s t c) (ctxOf s' t c) ∧ SameStore x (getTile s' t) ∧
      (getTile s' t).acc = x.acc ∧ (getSlot (getTile s' t) (bits v 11 10)).rescaling = true ∧
      (getTile s' t).rescales = x.rescales ++ [{ ctx := c, target := bits v 11 10, source := bits v 13 12, started := false }] := by
  intro x v
  obtain ⟨honly, hwent⟩ := accept_wentOn (s := s) (t := t) (c := c) (op := 0x44) (w := w) (p := p) (part := part)
    (g := rescaleTaken (issOf s t c 0x44 w p part)) (fun _ => rfl) (fun _ => rfl)
  have htile : getTile ((issOf s t c 0x44 w p part).accept id (rescaleTaken (issOf s t c 0x44 w p part))) t = rescaleTaken (issOf s t c 0x44 w p part) (goneOn s t c) :=
    (getTile_accept _ _ _).trans (if_pos rfl)
  refine ⟨_, exec_rescale h hgo, honly, hwent, ?_⟩
  rw [htile]
  exact ⟨⟨rfl, rfl, ⟨rfl, rfl, rfl, rfl, rfl, rfl, rfl⟩, rfl, rfl, rfl⟩, rfl,
    (congrArg Slot.rescaling (getSlot_setSlot (goneOn s t c) (bits v 11 10) (bits v 11 10) _) : _).trans (by rw [if_pos rfl]), rfl⟩

theorem exec_lswap (h : AtHead s t c 0x45 w [(127, 8)] p part) (himg : ∃ img, part.image = some img ∧ (getTile s t).ringRound < img.ringSchedule.length) :
    exec (.lswap t c w) s = .next (heldOn s t c 6 0 .lswap) := by
  show execLswap t c w s = _
  refine issue_go h _ _ (if_neg ?_)
  obtain ⟨img, hpart, hround⟩ := himg
  have hrounds : (ringRounds part).length = img.ringSchedule.length := by rw [ringRounds, hpart]
  show ¬decide ((ringRounds part).length ≤ (getTile s t).ringRound) = true
  rw [hrounds, decide_eq_true_iff]
  omega

end

/-- Settles O12: each class by the tile that its acceptance leaves. -/
theorem computeInstructionsAreTaken : Obligations.ComputeInstructionsAreTaken := by
  unfold Obligations.ComputeInstructionsAreTaken
  refine ⟨fun t c w s p part q hq => ?_, fun t c w s p part q hq => ?_, fun t c w s p part => ⟨drain_spec, rescale_spec, fun h himg => ?_⟩⟩
  · have hexec : q.2 < 256 ∧ exec q.1 s = matIssue s t c q.2 w := by
      simp only [matrixRows, List.mem_cons, List.not_mem_nil, or_false] at hq
      obtain rfl | rfl | rfl := hq <;> exact ⟨by simp, rfl⟩
    rw [hexec.2]
    exact matIssue_spec hexec.1
  · have hexec : q.2 < 256 ∧ exec q.1 s = vecIssue s t c q.2 w := by
      simp only [vectorRows, List.mem_cons, List.not_mem_nil, or_false] at hq
      obtain rfl | rfl | rfl | rfl | rfl | rfl | rfl | rfl | rfl | rfl | rfl | rfl | rfl := hq <;> exact ⟨by simp, rfl⟩
    rw [hexec.2]
    exact vecIssue_spec hexec.1
  · have honly := onlyCtx_heldOn s t c 6 0 .lswap
    exact ⟨_, exec_lswap h himg, honly.rest, honly.others, honly.tile, honly.ctxs, waits_heldOn s t c 6 0 .lswap⟩

end Sys2Proof.Machine
end

section
/-! SUPPORT. Address programs, their handles and the transfers they ask for (R144, R178-R205). -/

namespace Sys2Proof.Machine

open Sys2Proof

/-! ## SRUN and SSTOP -/

/-- The operations of a handle in other tiles complete. -/
def completeFar (l : List (Nat × Nat × Region)) (s : State) : State := l.foldl (fun s q => modTile s q.1 (fun y => completeOp y q.2.1)) s

theorem completeFar_frame (l : List (Nat × Nat × Region)) (s : State) : { completeFar l s with tiles := s.tiles } = s := by
  unfold completeFar
  induction l generalizing s with
  | nil => rfl
  | cons q r ih => exact (congrArg (fun e : State => { e with tiles := s.tiles }) (ih (modTile s q.1 (fun y => completeOp y q.2.1))) :)

theorem completesOnly_completeFar (l : List (Nat × Nat × Region)) (s : State) (u : Nat) : CompletesOnly (getTile s u) (getTile (completeFar l s) u) := by
  unfold completeFar
  induction l generalizing s with
  | nil => rfl
  | cons q r ih =>
    refine CompletesOnly.trans ?_ (ih (modTile s q.1 (fun y => completeOp y q.2.1)))
    rw [getTile_modTile]
    split
    · next hu =>
      subst hu
      exact completesOnly_completeOp _ _
    · rfl

/-- An idle handle keeps the registers of its last transfer (R144). -/
def idleHandle (hd : Handle) : Handle := { rows := hd.rows, m := hd.m, ip := hd.ip, mspace := hd.mspace, pcInstr := hd.pcInstr, ctx := hd.ctx }

theorem endHandle_eq (s : State) (t h : Nat) : endHandle s t h =
    modTile (completeFar (getHandle (getTile s t) h).far s) t (fun x => setHandle (completeOp x (getHandle (getTile s t) h).opId) h (idleHandle (getHandle (getTile s t) h))) := rfl

theorem endHandle_frame (s : State) (t h : Nat) : { endHandle s t h with tiles := s.tiles } = s :=
  (congrArg (fun e : State => { e with tiles := s.tiles }) (completeFar_frame (getHandle (getTile s t) h).far s) :)

/-- A handle that becomes idle leaves everything but claims, the flags of regions and the handle itself. -/
theorem getTile_endHandle (s : State) (t h u : Nat) : { getTile (endHandle s t h) u with handles := (getTile s u).handles, tags := (getTile s u).tags, circs := (getTile s u).circs, claims := (getTile s u).claims, flags := (getTile s u).flags, tracks := (getTile s u).tracks } = getTile s u := by
  have hfar := completesOnly_completeFar (getHandle (getTile s t) h).far s u
  rw [endHandle_eq, getTile_modTile]
  split
  · next hu =>
    subst hu
    exact (congrArg (fun e : Tile => { e with handles := (getTile s u).handles }) (hfar.trans (completesOnly_completeOp _ _)) :)
  · exact (congrArg (fun e : Tile => { e with handles := (getTile s u).handles }) hfar :)

theorem getHandle_endHandle (s : State) (t h : Nat) : getHandle (getTile (endHandle s t h) t) h = idleHandle (getHandle (getTile s t) h) := by
  rw [endHandle_eq, getTile_modTile, if_pos rfl, getHandle_setHandle, if_pos rfl]

section
variable {s : State} {t : Fin 64} {c : Fin 4} {w : BitVec 120} {p : Nat} {part : Part}

/-- The handle that SRUN starts (R179). -/
def srunNew (i : Iss) (x : Tile) : Handle :=
  let lw := i.reg (i.bits 25 21)
  let m : Int := ((i.reg (i.bits 20 16)).toNat : Int)
  { busy := true, ctx := i.c, pcInstr := i.k.pc, dir := srunDir i, rtile := i.bits 33 28, progAddr := (i.reg (i.bits 15 11)).toNat,
    m := m, m0 := m, l := if srunDir i = 2 then 0 else (opBase lw : Int), localWord := lw, drainFed := srunFed i,
    rows := srunRows i, done := doneOf (i.bit 34) (i.bits 42 35), opId := x.nextOp }

/-- The tile whose handle SRUN has started. -/
def srunStarted (i : Iss) (x : Tile) : Tile := { setHandle x (srunHandle i) (srunNew i x) with nextOp := x.nextOp + 1 }

theorem exec_srun (h : AtHead s t c 0xA0 w [(127, 63)] p part) (hgo : srunCheck (issOf s t c 0xA0 w p part) = .go) :
    exec (.srun t c w) s = .next ((issOf s t c 0xA0 w p part).accept id (srunStarted (issOf s t c 0xA0 w p part))) := by
  show execSrun t c w s = _
  exact issue_go h _ _ hgo

/-- The handle whose program SSTOP has ended. -/
def stoppedHandle (hd : Handle) : Handle := { hd with loaded := true, prog := [0], ip := 0, loops := [], sent := 0, walking := none, fed := [], fedRuns := [], done := none }

/-- The state in which handle `h` of tile `t` has ended its program. -/
def stopped (s : State) (t h : Nat) : State := modTile s t (fun x => setHandle x h (stoppedHandle (getHandle x h)))

/-- What SSTOP does once its context has gone on. -/
def sstopped (s : State) (t h : Nat) : State :=
  if !(getHandle (getTile s t) h).busy then s else if handleQuiet (stopped s t h) t h then endHandle (stopped s t h) t h else stopped s t h

theorem exec_sstop (h : AtHead s t c 0xA1 w [(127, 11)] p part) (hold : (issOf s t c 0xA1 w p part).older = false) :
    exec (.sstop t c w) s = .next (sstopped ((issOf s t c 0xA1 w p part).accept id id) t (bits (wordOf w 0xA1) 10 8)) := by
  show execSstop t c w s = _
  refine issue_go h _ _ ?_
  show holdIf (false || _) 9 0 = .go
  rw [hold]
  rfl

theorem srun_spec (h : AtHead s t c 0xA0 w [(127, 63)] p part) (hgo : srunCheck (issOf s t c 0xA0 w p part) = .go) :
    let x := getTile s t
    let k := ctxOf s t c
    let v := wordOf w 0xA0
    let h := bits v 10 8
    ∃ s', exec (.srun t c w) s = .next s' ∧ OnlyTile s s' t c ∧ WentOn k (ctxOf s' t c) ∧ SameStore x (getTile s' t) ∧
      (∀ j, j ≠ h → getHandle (getTile s' t) j = getHandle x j) ∧
      let n := getHandle (getTile s' t) h
      (n.busy = true ∧ n.loaded = false ∧ n.ctx = c.val ∧ n.pcInstr = k.pc ∧ n.dir = bits v 27 26 ∧ n.rtile = bits v 33 28 ∧
        n.progAddr = (readS k (bits v 15 11)).toNat ∧ n.m = ((readS k (bits v 20 16)).toNat : Int) ∧ n.localWord = readS k (bits v 25 21) ∧
        n.reads = [] ∧ n.done = (if v.getLsbD 34 then some (bits v 42 35) else none)) := by
  intro x k v j
  obtain ⟨honly, hwent⟩ := accept_wentOn (s := s) (t := t) (c := c) (op := 0xA0) (w := w) (p := p) (part := part)
    (g := srunStarted (issOf s t c 0xA0 w p part)) (fun _ => rfl) (fun _ => rfl)
  refine ⟨_, exec_srun h hgo, honly, hwent, ?_⟩
  rw [getTile_accept, if_pos rfl]
  refine ⟨⟨rfl, rfl, ⟨rfl, rfl, rfl, rfl, rfl, rfl, rfl⟩, rfl, rfl, rfl⟩, fun n hn => ?_, ?_⟩
  · exact (getHandle_setHandle (goneOn s t c) j n _).trans (if_neg hn)
  · have hget : getHandle (srunStarted (issOf s t c 0xA0 w p part) (goneOn s t c)) j = srunNew (issOf s t c 0xA0 w p part) (goneOn s t c) :=
      (getHandle_setHandle (goneOn s t c) j j _).trans (if_pos rfl)
    rw [show (modCtx { getTile s t with lending := false } c fun k => id (acceptCtx k)) = goneOn s t c from rfl, hget]
    exact ⟨rfl, rfl, rfl, rfl, rfl, rfl, rfl, rfl, rfl, rfl, rfl⟩

/-- Ending a program changes nothing that says what of it is on the way. -/
theorem handleQuiet_stopped (s : State) (t h : Nat) : handleQuiet (stopped s t h) t h = handleQuiet s t h := by
  unfold handleQuiet stopped
  rw [getTile_modTile, if_pos rfl, getHandle_setHandle, if_pos rfl]
  rfl

theorem getTile_stopped (s : State) (t h u : Nat) : { getTile (stopped s t h) u with handles := (getTile s u).handles } = getTile s u := by
  rw [stopped, getTile_modTile]
  split
  · next hu => subst hu; rfl
  · rfl

theorem getHandle_stopped (s : State) (t h j : Nat) :
    getHandle (getTile (stopped s t h) t) j = if j = h then stoppedHandle (getHandle (getTile s t) h) else getHandle (getTile s t) j := by
  rw [stopped, getTile_modTile, if_pos rfl, getHandle_setHandle]

/-- What SSTOP leaves of every tile, whatever is on the way. -/
theorem getTile_sstopped (s : State) (t h u : Nat) : { getTile (sstopped s t h) u with handles := (getTile s u).handles, tags := (getTile s u).tags, circs := (getTile s u).circs, claims := (getTile s u).claims, flags := (getTile s u).flags, tracks := (getTile s u).tracks } = getTile s u := by
  have hstop := getTile_stopped s t h u
  have hend := getTile_endHandle (stopped s t h) t h u
  unfold sstopped
  split
  · rfl
  · split
    · generalize getTile (endHandle (stopped s t h) t h) u = z at hend ⊢
      generalize getTile (stopped s t h) u = y at hend hstop
      generalize getTile s u = x at hstop ⊢
      exact (congrArg (fun e : Tile => { e with handles := x.handles, tags := x.tags, circs := x.circs, claims := x.claims, flags := x.flags, tracks := x.tracks }) hend).trans
        (congrArg (fun e : Tile => { e with tags := x.tags, circs := x.circs, claims := x.claims, flags := x.flags, tracks := x.tracks }) hstop)
    · exact (congrArg (fun e : Tile => { e with tags := (getTile s u).tags, circs := (getTile s u).circs, claims := (getTile s u).claims, flags := (getTile s u).flags, tracks := (getTile s u).tracks }) hstop :)

theorem sstopped_frame (s : State) (t h : Nat) : { sstopped s t h with tiles := s.tiles } = s := by
  unfold sstopped
  split
  · rfl
  · split
    · exact (congrArg (fun e : State => { e with tiles := s.tiles }) (endHandle_frame (stopped s t h) t h) :)
    · rfl

/-- A handle with nothing on the way is idle after SSTOP, and where it reached no other tile nothing else of the state has changed. -/
theorem sstopped_quiet {s : State} {t h : Nat} (hbusy : (getHandle (getTile s t) h).busy = true) (hquiet : handleQuiet s t h = true) :
    (getHandle (getTile (sstopped s t h) t) h).busy = false ∧
      ((getHandle (getTile s t) h).far = [] → sstopped s t h = modTile (stopped s t h) t (fun x => setHandle (completeOp x (getHandle (getTile s t) h).opId) h
        (idleHandle (stoppedHandle (getHandle (getTile s t) h))))) := by
  rw [sstopped, hbusy, if_neg (by decide), if_pos ((handleQuiet_stopped s t h).trans hquiet)]
  refine ⟨by rw [getHandle_endHandle]; rfl, fun hfar => ?_⟩
  rw [endHandle_eq, getHandle_stopped, if_pos rfl, show (stoppedHandle (getHandle (getTile s t) h)).far = [] from hfar]
  rfl

theorem sstopped_going {s : State} {t h : Nat} (hbusy : (getHandle (getTile s t) h).busy = true) (hquiet : handleQuiet s t h = false) :
    sstopped s t h = stopped s t h := by
  rw [sstopped, hbusy, if_neg (by decide), if_neg (by simp [handleQuiet_stopped, hquiet])]

/-- What SSTOP changes in its own tile only, where only the tile's handles, claims and the flags of its regions are in question. -/
theorem onlyTile_of_handles {s s1 s2 : State} {t c : Nat} (h : OnlyTile s s1 t c) (hrest : { s2 with tiles := s1.tiles } = s1)
    (hothers : ∀ u, u ≠ t → getTile s2 u = getTile s1 u) (hctx : (getTile s2 t).ctx = (getTile s1 t).ctx) (hlend : (getTile s2 t).lending = (getTile s1 t).lending) :
    OnlyTile s s2 t c where
  rest := (congrArg (fun e : State => { e with tiles := s.tiles, free := s.free }) hrest : _).trans h.rest
  others := fun u hu => (hothers u hu).trans (h.others u hu)
  power := hlend.trans h.power
  ctxs := fun d hd => by rw [getCtx, hctx]; exact h.ctxs d hd

theorem sstop_spec (h : AtHead s t c 0xA1 w [(127, 11)] p part) (hold : (issOf s t c 0xA1 w p part).older = false) :
    let x := getTile s t
    let k := ctxOf s t c
    let h := bits (wordOf w 0xA1) 10 8
    let hd := getHandle x h
    ∃ s', exec (.sstop t c w) s = .next s' ∧ WentOn k (ctxOf s' t c) ∧ (∀ u : Nat, (getTile s' u).spad = (getTile s u).spad) ∧ s'.sigs = s.sigs ∧
      (hd.busy = false → OnlyTile s s' t c ∧ SameUnits x (getTile s' t)) ∧
      (hd.busy = true → handleQuiet s t h = true → (getHandle (getTile s' t) h).busy = false ∧ (hd.far = [] → OnlyTile s s' t c ∧ ListsRead x (getTile s' t))) ∧
      (hd.busy = true → handleQuiet s t h = false → OnlyTile s s' t c ∧ SameStore x (getTile s' t) ∧ getHandle (getTile s' t) h = stoppedHandle hd ∧
        ∀ j, j ≠ h → getHandle (getTile s' t) j = getHandle x j) := by
  intro x k j hd
  obtain ⟨honly, hwent⟩ := accept_wentOn (s := s) (t := t) (c := c) (op := 0xA1) (w := w) (p := p) (part := part) (g := id) (fun _ => rfl) (fun _ => rfl)
  have hunits : SameUnits x (getTile ((issOf s t c 0xA1 w p part).accept id id) t) := sameUnits_accept id
  have hquiet : handleQuiet ((issOf s t c 0xA1 w p part).accept id id) t j = handleQuiet s t j := by
    unfold handleQuiet
    rw [getTile_accept, if_pos rfl]
    rfl
  have hexec := exec_sstop h hold
  generalize (issOf s t c 0xA1 w p part).accept id id = s1 at honly hwent hunits hquiet hexec
  have hhandle (n : Nat) : getHandle (getTile s1 t) n = getHandle x n := (congrArg (fun e : Tile => getHandle e n) hunits :)
  have hframe := getTile_sstopped s1 t j
  have hrest := sstopped_frame s1 t j
  refine ⟨_, hexec, ?_, fun u => ?_, ?_, fun hbusy => ?_, fun hbusy hq => ?_, fun hbusy hq => ?_⟩
  · have hctx : (getTile (sstopped s1 t j) t).ctx = (getTile s1 t).ctx := (congrArg Tile.ctx (hframe t) :)
    rw [ctxOf, getCtx, hctx]
    exact hwent
  · refine (congrArg Tile.spad (hframe u) : _).trans ?_
    by_cases hu : u = t
    · subst hu
      exact (congrArg Tile.spad hunits :)
    · rw [honly.others u hu]
  · exact (congrArg State.sigs hrest : _).trans (congrArg State.sigs honly.rest :)
  · rw [sstopped, hhandle, hbusy]
    exact ⟨honly, hunits⟩
  · rw [show hd = getHandle (getTile s1 t) j from (hhandle j).symm] at hbusy
    rw [← hquiet] at hq
    obtain ⟨hidle, hfar⟩ := sstopped_quiet hbusy hq
    refine ⟨hidle, fun hnone => ?_⟩
    have hstate := hfar (hhandle j ▸ hnone)
    refine ⟨onlyTile_of_handles honly hrest (fun u hu => ?_) (congrArg Tile.ctx (hframe t) :) (congrArg Tile.lending (hframe t) :), ?_⟩
    · rw [hstate, getTile_modTile, if_neg hu, stopped, getTile_modTile, if_neg hu]
    · have hall := (congrArg (fun e : Tile => { e with
        ctx := x.ctx, lending := x.lending, handles := x.handles, tags := x.tags, circs := x.circs, claims := x.claims, flags := x.flags, tracks := x.tracks }) (hframe t)).trans
        (congrArg (fun e : Tile => { e with handles := x.handles, tags := x.tags, circs := x.circs, claims := x.claims, flags := x.flags, tracks := x.tracks }) hunits)
      have hstop := (congrArg (fun e : Tile => { e with handles := x.handles, ctx := x.ctx, lending := x.lending }) (getTile_stopped s1 t j t)).trans
        (congrArg (fun e : Tile => { e with handles := x.handles }) hunits)
      refine ⟨(congrArg Tile.spad hall :), fun g hg => ?_,
        ⟨(congrArg Tile.poison hall :), (congrArg Tile.twoBit hall :), (congrArg Tile.errStatus hall :), (congrArg Tile.excStatus hall :), (congrArg Tile.excInfo hall :)⟩,
        fun b hb => (congrArg Tile.oneBit hall :) ▸ hb, fun _ => (congrArg Tile.spadStatus hall :), (congrArg Tile.ctrs hall :), (congrArg Tile.cur hall :), (congrArg Tile.arr hall :)⟩
      have hmap : (getTile (stopped s1 t j) t).map = x.map := (congrArg Tile.map hstop :)
      have hnames : ¬namesFlag (getTile (stopped s1 t j) t) g := by rwa [namesFlag, hmap]
      rw [hstate, getTile_modTile, if_pos rfl]
      exact (getFlag_completeOp hnames _).trans (congrArg (fun e : Tile => getFlag e g) hstop :)
  · rw [show hd = getHandle (getTile s1 t) j from (hhandle j).symm] at hbusy
    rw [← hquiet] at hq
    rw [sstopped_going hbusy hq]
    have hstop := getTile_stopped s1 t j t
    have hall := (congrArg (fun e : Tile => { e with handles := x.handles, ctx := x.ctx, lending := x.lending }) hstop).trans
      (congrArg (fun e : Tile => { e with handles := x.handles }) hunits)
    refine ⟨onlyTile_of_handles honly rfl (fun u hu => by rw [stopped, getTile_modTile, if_neg hu]) (congrArg Tile.ctx hstop :) (congrArg Tile.lending hstop :), ?_, ?_, fun n hn => ?_⟩
    · exact ⟨(congrArg Tile.spad hall :), (congrArg Tile.flags hall :),
        ⟨(congrArg Tile.poison hall :), (congrArg Tile.oneBit hall :), (congrArg Tile.twoBit hall :), (congrArg Tile.errStatus hall :), (congrArg Tile.excStatus hall :),
          (congrArg Tile.excInfo hall :), (congrArg Tile.spadStatus hall :)⟩, (congrArg Tile.ctrs hall :), (congrArg Tile.cur hall :), (congrArg Tile.arr hall :)⟩
    · rw [getHandle_stopped, if_pos rfl, hhandle]
    · rw [getHandle_stopped, if_neg hn, hhandle]

end

/-- Settles O13: SRUN by the handle it starts, SSTOP by what of the handle is on the way. -/
theorem streamInstructions : Obligations.StreamInstructions := by
  unfold Obligations.StreamInstructions
  exact fun t c w s p part => ⟨srun_spec, sstop_spec⟩

end Sys2Proof.Machine
end

section
/-! SUPPORT. Signals, claims and transfers that arrive (R146, R167-R177, R213). -/

namespace Sys2Proof.Machine

open Sys2Proof

/-! ## Runs of bytes -/

theorem spadPuts_frame (l : List (Nat × List Byte)) (x : Tile) :
    { spadPuts x l with spad := x.spad, poison := x.poison, oneBit := x.oneBit, twoBit := x.twoBit } = x := by
  unfold spadPuts
  induction l generalizing x with
  | nil => rfl
  | cons q r ih => exact (congrArg (fun e : Tile => { e with spad := x.spad, poison := x.poison, oneBit := x.oneBit, twoBit := x.twoBit }) (ih (spadPut x q.1 q.2)) :)

/-- Bytes outside every run read as before. -/
theorem smGet_spadPuts_of_outside {l : List (Nat × List Byte)} {b : Nat} (h : outsideRuns l b) (x : Tile) : smGet (spadPuts x l).spad b = smGet x.spad b := by
  unfold spadPuts
  induction l generalizing x with
  | nil => rfl
  | cons q r ih =>
    have hq : ¬ (q.1 ≤ b ∧ b < q.1 + q.2.length) := by
      have := h q (List.mem_cons_self ..)
      omega
    exact (ih (fun e he => h e (List.mem_cons_of_mem _ he)) _).trans ((smGet_writeBytes q.2 x.spad q.1 b).trans (if_neg hq))

/-- The bytes of a run that stands alone. -/
theorem smGet_spadPuts_single (x : Tile) (a : Nat) (l : List Byte) {j : Nat} (hj : j < l.length) :
    smGet (spadPuts x [(a, l)]).spad (a + j) = l.getD j 0 := by
  show smGet (writeBytes x.spad a l) (a + j) = _
  rw [smGet_writeBytes, if_pos ⟨Nat.le_add_right .., by omega⟩, Nat.add_sub_cancel_left]

theorem getD_readBytes {m : SMap 8} {a n j : Nat} (hj : j < n) : (readBytes m a n).getD j 0 = smGet m (a + j) := by
  induction n generalizing a j with
  | zero => omega
  | succ n ih =>
    cases j with
    | zero => rfl
    | succ j =>
      rw [readBytes, List.getD_cons_succ, ih (by omega)]
      congr 1
      omega

/-! ## DONE increments -/

section addDone
variable (s : State) (t c : Nat) (d : Option Nat)

theorem addDone_frame : { addDone s t c d with tiles := s.tiles, sigs := s.sigs } = s := by
  unfold addDone
  split
  · rfl
  · split <;> rfl

theorem addDone_sigs : (addDone s t c d).sigs = s.sigs ++ lateDone s t c d := by
  cases d with
  | none => exact (List.append_nil _).symm
  | some f =>
    unfold addDone lateDone
    dsimp only
    by_cases hlate : ∃ q ∈ s.sigs, q.src = .ctx t c ∧ q.toNewt = false ∧ q.target = t ∧ q.flag = f
    · rw [if_pos (by simpa [List.any_eq_true, and_assoc] using hlate), if_pos hlate]
    · rw [if_neg (by simpa [List.any_eq_true, and_assoc] using hlate), if_neg hlate]
      exact (List.append_nil _).symm

theorem getTile_addDone (u : Nat) :
    getTile (addDone s t c d) u = match d with
      | none => getTile s u
      | some f => if u = t ∧ lateDone s t c (some f) = [] then addFlag (getTile s t) f 1 else getTile s u := by
  cases d with
  | none => rfl
  | some f =>
    by_cases hlate : ∃ q ∈ s.sigs, q.src = .ctx t c ∧ q.toNewt = false ∧ q.target = t ∧ q.flag = f
    · have hcons : lateDone s t c (some f) ≠ [] := by
        rw [lateDone, if_pos hlate]
        exact List.cons_ne_nil _ _
      rw [addDone, if_pos (by simpa [List.any_eq_true, and_assoc] using hlate)]
      exact (if_neg fun h => hcons h.2).symm
    · have hnil : lateDone s t c (some f) = [] := if_neg hlate
      rw [addDone, if_neg (by simpa [List.any_eq_true, and_assoc] using hlate), getTile_modTile]
      simp [hnil]

theorem getTile_addDone_of_ne {u : Nat} (h : u ≠ t) : getTile (addDone s t c d) u = getTile s u := by
  rw [getTile_addDone]
  cases d with
  | none => rfl
  | some f => exact if_neg fun hu => h hu.1

/-- A DONE increment touches flags only. -/
theorem getTile_addDone_flags (u : Nat) : { getTile (addDone s t c d) u with flags := (getTile s u).flags } = getTile s u := by
  rw [getTile_addDone]
  cases d with
  | none => rfl
  | some f =>
    dsimp only
    split
    · next h => obtain ⟨rfl, -⟩ := h; rfl
    · rfl

theorem getFlag_addDone (f : Nat) :
    getFlag (getTile (addDone s t c d) t) f = if d = some f ∧ lateDone s t c d = [] then getFlag (getTile s t) f + 1 else getFlag (getTile s t) f := by
  rw [getTile_addDone]
  cases d with
  | none => simp
  | some g =>
    dsimp only
    split
    · next h =>
      obtain ⟨-, hnone⟩ := h
      rw [addFlag, getFlag_setFlag]
      by_cases hf : f = g
      · subst hf
        rw [if_pos rfl, if_pos ⟨rfl, hnone⟩]
      · rw [if_neg hf, if_neg fun h => hf (Option.some.inj h.1).symm]
    · next h => rw [if_neg fun hd => h ⟨rfl, hd.2⟩]

end addDone

/-! ## Signals -/

theorem exec_signalArrive {i : Nat} {s : State} {g : Sig} (hg : s.sigs[i]? = some g) (hfree : sigBlocked s.sigs i g = false) :
    exec (.signalArrive i) s =
      let s := { s with sigs := dropIdx s.sigs i }
      if g.toNewt then
        let k := g.target * 256 + g.flag
        .next { s with iod := { s.iod with newtFlags := smSet s.iod.newtFlags k (if g.set then g.value else smGet s.iod.newtFlags k + g.value) } }
      else if sigStale s g then .next (modTile s g.target (fun x => tileCtr x 0xD0 1))
      else .next (modTile s g.target (fun x => tileCtr (applySig x g) 0xC8 (b2n (sigForeign g)))) := by
  show execSignalArrive i s = _
  unfold execSignalArrive
  rw [hg]
  dsimp only
  rw [hfree, if_neg (by decide)]

theorem tileOnly_modTile (s : State) (t : Nat) (f : Tile → Tile) : TileOnly s (modTile s t f) t where
  rest := rfl
  others := fun u hu => by rw [getTile_modTile, if_neg hu]

theorem applySig_frame (x : Tile) (g : Sig) : { applySig x g with flags := x.flags } = x := by
  unfold applySig
  split <;> rfl

theorem getFlag_applySig (x : Tile) (g : Sig) (f : Nat) :
    getFlag (applySig x g) f = if f ≠ g.flag then getFlag x f else if g.set then g.value else BitVec.ofNat 32 ((getFlag x f).toNat + g.value.toNat) := by
  unfold applySig
  cases g.set
  · rw [if_neg (by decide), addFlag, getFlag_setFlag]
    by_cases hf : f = g.flag
    · subst hf
      rw [if_pos rfl, if_neg (by simp), if_neg (by decide), BitVec.ofNat_add, BitVec.ofNat_toNat, BitVec.ofNat_toNat, BitVec.setWidth_eq, BitVec.setWidth_eq]
    · rw [if_neg hf, if_pos hf]
  · rw [if_pos rfl, getFlag_setFlag]
    by_cases hf : f = g.flag
    · rw [if_pos hf, if_neg (by simpa using hf), if_pos rfl]
    · rw [if_neg hf, if_pos hf]

theorem signalArrive_spec {i : Nat} {s : State} {g : Sig} (hg : s.sigs[i]? = some g) (hfree : sigBlocked s.sigs i g = false) :
    (g.toNewt = true → ∃ s', exec (.signalArrive i) s = .next s' ∧ { s' with sigs := s.sigs, iod := { s'.iod with newtFlags := s.iod.newtFlags } } = s ∧
      s'.sigs = dropIdx s.sigs i ∧
      ∀ k, smGet s'.iod.newtFlags k = if k ≠ g.target * 256 + g.flag then smGet s.iod.newtFlags k else if g.set then g.value else smGet s.iod.newtFlags k + g.value) ∧
    (g.toNewt = false → sigStale { s with sigs := dropIdx s.sigs i } g = true →
      exec (.signalArrive i) s = .next (setTile { s with sigs := dropIdx s.sigs i } g.target (tileCtr (getTile s g.target) 0xD0 1))) ∧
    (g.toNewt = false → sigStale { s with sigs := dropIdx s.sigs i } g = false →
      ∃ s', exec (.signalArrive i) s = .next s' ∧ TileOnly { s with sigs := dropIdx s.sigs i } s' g.target ∧
        let x := getTile s g.target
        let y := getTile s' g.target
        { y with flags := x.flags, ctrs := x.ctrs } = x ∧
        ∀ f, getFlag y f = if f ≠ g.flag then getFlag x f else if g.set then g.value else BitVec.ofNat 32 ((getFlag x f).toNat + g.value.toNat)) := by
  have hexec := exec_signalArrive hg hfree
  refine ⟨fun hnewt => ?_, fun hnewt hstale => ?_, fun hnewt hstale => ?_⟩
  · refine ⟨_, hexec.trans (if_pos hnewt), rfl, rfl, fun k => ?_⟩
    by_cases hk : k = g.target * 256 + g.flag
    · subst hk
      exact (smGet_smSet_self _ _ _).trans (if_neg (by simp)).symm
    · exact (smGet_smSet_other _ _ hk).trans (if_pos hk).symm
  · rw [hexec, hnewt]
    exact if_pos hstale
  · rw [hexec, hnewt]
    refine ⟨_, if_neg (Bool.eq_false_iff.1 hstale), tileOnly_modTile _ _ _, ?_⟩
    rw [getTile_modTile, if_pos rfl]
    exact ⟨congrArg (fun e : Tile => { e with ctrs := (getTile s g.target).ctrs }) (applySig_frame (getTile s g.target) g), getFlag_applySig (getTile s g.target) g⟩

/-! ## Claims -/

theorem takeClaim_frame (x : Tile) (q : Claim) : { (takeClaim x q).1 with tags := x.tags, circs := x.circs } = x := by
  unfold takeClaim
  split
  · split <;> rfl
  · rfl

theorem takeClaim_taken (x : Tile) (q : Claim) : (takeClaim x q).2 = { q with taken := true, index := (takeClaim x q).2.index } := by
  unfold takeClaim
  split
  · split <;> rfl
  · rfl

theorem tagOf_setTag (x : Tile) (e i : Nat) (g : Tag) : tagOf (setTag x e i g) e i = g := by
  unfold tagOf setTag
  rw [tabGet_insert, if_pos rfl]

theorem tagReadClaim_act (n : Nat) (g : Tag) : (tagReadClaim n g).act = g.act + 1 := by
  unfold tagReadClaim
  split <;> rfl

/-- A claim of a slot: its tag FILLING, or one reader more (R168). -/
theorem takeClaim_slot {x : Tile} {q : Claim} (h : q.circ = false) :
    takeClaim x q = (setTag x q.entry q.index (if q.writer then tagWriteClaim (tagOf x q.entry q.index) else tagReadClaim (readsOf x q.entry) (tagOf x q.entry q.index)),
      { q with taken := true }) := by
  rw [takeClaim, h, if_neg (by decide)]

theorem tryClaim_of_free {x : Tile} {i : Nat} {q : Claim} (hq : x.claims[i]? = some q) (hopen : q.taken = false) (hcan : canClaim x q = true)
    (hfirst : claimAhead x i q = false) : tryClaim x i = { (takeClaim x q).1 with claims := x.claims.set i (takeClaim x q).2 } := by
  have hclaims : (takeClaim x q).1.claims = x.claims := (congrArg Tile.claims (takeClaim_frame x q) :)
  rw [tryClaim, hq]
  dsimp only
  rw [if_neg (by simp [hopen, hcan, hfirst]), hclaims]

theorem tagClaim_spec {t : Fin 64} {i : Nat} {s : State} {q : Claim} (hq : (getTile s t).claims[i]? = some q) (hopen : q.taken = false)
    (hcan : canClaim (getTile s t) q = true) (hfirst : claimAhead (getTile s t) i q = false) :
    ∃ s', exec (.tagClaim t i) s = .next s' ∧ TileOnly s s' t ∧
      let x := getTile s t
      let y := getTile s' t
      { y with tags := x.tags, circs := x.circs, claims := x.claims } = x ∧ y.claims.length = x.claims.length ∧
      (∃ q', y.claims[i]? = some q' ∧ q' = { q with taken := true, index := q'.index }) ∧ (∀ j, j ≠ i → y.claims[j]? = x.claims[j]?) ∧
      (q.circ = false → q.writer = true → (tagOf y q.entry q.index).st = .filling) ∧
      (q.circ = false → q.writer = false → (tagOf y q.entry q.index).act = (tagOf x q.entry q.index).act + 1) := by
  have hlt := (List.getElem?_eq_some_iff.1 hq).1
  refine ⟨modTile s t (fun x => tryClaim x i), rfl, tileOnly_modTile _ _ _, ?_⟩
  rw [getTile_modTile, if_pos rfl, tryClaim_of_free hq hopen hcan hfirst]
  intro x y
  have htag (hslot : q.circ = false) : tagOf y q.entry q.index = if q.writer then tagWriteClaim (tagOf x q.entry q.index) else tagReadClaim (readsOf x q.entry) (tagOf x q.entry q.index) := by
    have htile : (takeClaim x q).1 = setTag x q.entry q.index _ := congrArg Prod.fst (takeClaim_slot hslot)
    show tagOf { (takeClaim x q).1 with claims := _ } q.entry q.index = _
    rw [htile]
    exact tagOf_setTag x q.entry q.index _
  refine ⟨(congrArg (fun e : Tile => { e with claims := x.claims }) (takeClaim_frame x q) :), List.length_set .., ⟨_, List.getElem?_set_self hlt, takeClaim_taken x q⟩,
    fun j hj => List.getElem?_set_ne (Ne.symm hj), fun hslot hwriter => ?_, fun hslot hreader => ?_⟩
  · rw [htag hslot, hwriter]
    rfl
  · rw [htag hslot, hreader, if_neg (by decide), tagReadClaim_act]

/-! ## Remote transfers -/

/-- The target of a remote write whose bytes have arrived (R175-R177). -/
def writtenTile (r : Remote) (y : Tile) : Tile :=
  let z := spadPuts y (r.runs.map (fun q => (q.1 + farShift y r, q.2)))
  let z := if r.src = r.dst then z else tileCtr z 0x90 (ceilDiv (r.runs.map (fun q => q.2.length)).sum 64)
  match r.op, r.handle with
  | some op, none => completeOp z op
  | _, _ => z

/-- The state after a remote write has arrived. -/
def remoteWritten (s : State) (i : Nat) (r : Remote) : State :=
  addDone (setTile { modTile s r.dst (fun y => farClaim y r) with remotes := dropIdx s.remotes i } r.dst (writtenTile r (farClaim (getTile s r.dst) r))) r.src r.ctx r.done

theorem exec_remoteWriteArrive {i : Nat} {s : State} {r : Remote} (hr : s.remotes[i]? = some r) (hfree : remoteBlocked s.remotes i r = false) (hwrite : r.read = false)
    (hready : farReady (farClaim (getTile s r.dst) r) r = true) : exec (.remoteWriteArrive i) s = .next (remoteWritten s i r) := by
  show execRemoteWriteArrive i s = _
  unfold execRemoteWriteArrive
  rw [hr]
  dsimp only
  rw [if_neg (by simp [hwrite, hfree]), getTile_modTile, if_pos rfl, if_neg (by simp [hready])]
  rfl

section writtenTile
variable (r : Remote) (y : Tile)

/-- The bytes have arrived and are counted; the operation may still be open. -/
def landedTile : Tile :=
  let z := spadPuts y (r.runs.map (fun q => (q.1 + farShift y r, q.2)))
  if r.src = r.dst then z else tileCtr z 0x90 (ceilDiv (r.runs.map (fun q => q.2.length)).sum 64)

theorem completesOnly_writtenTile : CompletesOnly (landedTile r y) (writtenTile r y) := by
  show CompletesOnly (landedTile r y) (match r.op, r.handle with
    | some op, none => completeOp (landedTile r y) op
    | _, _ => landedTile r y)
  split
  · exact completesOnly_completeOp _ _
  · rfl

theorem landedTile_frame : { landedTile r y with spad := y.spad, poison := y.poison, oneBit := y.oneBit, twoBit := y.twoBit, ctrs := y.ctrs } = y := by
  have hputs := spadPuts_frame (r.runs.map (fun q => (q.1 + farShift y r, q.2))) y
  unfold landedTile
  generalize spadPuts _ _ = z at hputs ⊢
  dsimp only
  split <;> exact (congrArg (fun e : Tile => { e with ctrs := y.ctrs }) hputs :)

theorem landedTile_spad : (landedTile r y).spad = (spadPuts y (r.runs.map (fun q => (q.1 + farShift y r, q.2)))).spad := by
  unfold landedTile
  dsimp only
  split <;> rfl

theorem landedTile_ctr : smGet (landedTile r y).ctrs 0x90 =
    if r.src = r.dst then smGet y.ctrs 0x90 else smGet y.ctrs 0x90 + BitVec.ofNat 64 (((r.runs.map (fun q => q.2.length)).sum + 63) / 64) := by
  have hputs : (spadPuts y (r.runs.map (fun q => (q.1 + farShift y r, q.2)))).ctrs = y.ctrs := (congrArg Tile.ctrs (spadPuts_frame _ y) :)
  unfold landedTile
  dsimp only
  split
  · rw [hputs]
  · rw [smGet_tileCtr, if_pos rfl, hputs]
    rfl

theorem getFlag_writtenTile {g : Nat} (hg : ¬namesFlag y g) : getFlag (writtenTile r y) g = getFlag y g := by
  have hland := landedTile_frame r y
  have hmap : (landedTile r y).map = y.map := (congrArg Tile.map hland :)
  have hflags : getFlag (landedTile r y) g = getFlag y g := (congrArg (fun e : Tile => getFlag e g) hland :)
  show getFlag (match r.op, r.handle with
    | some op, none => completeOp (landedTile r y) op
    | _, _ => landedTile r y) g = _
  split
  · exact (getFlag_completeOp (by rwa [namesFlag, hmap]) _).trans hflags
  · exact hflags

end writtenTile

theorem remoteWrite_spec {i : Nat} {s : State} {r : Remote} (hr : s.remotes[i]? = some r) (hfree : remoteBlocked s.remotes i r = false) (hwrite : r.read = false) :
    let y := farClaim (getTile s r.dst) r
    farReady y r = true →
    ∃ s', exec (.remoteWriteArrive i) s = .next s' ∧ { s' with remotes := s.remotes, tiles := s.tiles, sigs := s.sigs } = s ∧ s'.remotes = dropIdx s.remotes i ∧
      s'.sigs = s.sigs ++ lateDone s r.src r.ctx r.done ∧ (∀ u, u ≠ r.dst → { getTile s' u with flags := (getTile s u).flags } = getTile s u) ∧
      (∀ u, u ≠ r.dst → u ≠ r.src → getTile s' u = getTile s u) ∧
      let z := getTile s' r.dst
      (∀ b, outsideRuns (r.runs.map (fun q => (q.1 + farShift y r, q.2))) b → smGet z.spad b = smGet y.spad b) ∧
      (∀ b l, r.runs = [(b, l)] → ∀ j < l.length, smGet z.spad (b + farShift y r + j) = l.getD j 0) ∧
      z.ctx = y.ctx ∧ z.acc = y.acc ∧ (r.src ≠ r.dst → ∀ g, ¬namesFlag y g → getFlag z g = getFlag y g) ∧
      smGet z.ctrs 0x90 = (if r.src = r.dst then smGet y.ctrs 0x90 else smGet y.ctrs 0x90 + BitVec.ofNat 64 (((r.runs.map (fun q => q.2.length)).sum + 63) / 64)) := by
  intro y hready
  have hexec := exec_remoteWriteArrive hr hfree hwrite hready
  let s1 := setTile { modTile s r.dst (fun y => farClaim y r) with remotes := dropIdx s.remotes i } r.dst (writtenTile r y)
  have hdst : getTile s1 r.dst = writtenTile r y := (getTile_setTile _ _ _ _).trans (if_pos rfl)
  have hother (u : Nat) (hu : u ≠ r.dst) : getTile s1 u = getTile s u := by
    refine (getTile_setTile _ _ _ _).trans ((if_neg hu).trans ?_)
    exact (getTile_modTile s r.dst u (fun y => farClaim y r)).trans (if_neg hu)
  have hdone := addDone_frame s1 r.src r.ctx r.done
  have hflags := getTile_addDone_flags s1 r.src r.ctx r.done
  have hz : { getTile (remoteWritten s i r) r.dst with flags := (writtenTile r y).flags } = writtenTile r y := hdst ▸ hflags r.dst
  have hcompletes := completesOnly_writtenTile r y
  have hspad : (getTile (remoteWritten s i r) r.dst).spad = (spadPuts y (r.runs.map (fun q => (q.1 + farShift y r, q.2)))).spad :=
    (congrArg Tile.spad hz : _).trans ((congrArg Tile.spad hcompletes : _).trans (landedTile_spad r y))
  refine ⟨_, hexec, (congrArg (fun e : State => { e with remotes := s.remotes, tiles := s.tiles, sigs := s.sigs }) hdone :), (congrArg State.remotes hdone :),
    addDone_sigs s1 r.src r.ctx r.done, fun u hu => ?_, fun u hu hsrc => ?_, fun b hb => ?_, fun b l hruns j hj => ?_, ?_, ?_, fun hsrc g hg => ?_, ?_⟩
  · have h := hflags u
    rw [hother u hu] at h
    exact h
  · exact (getTile_addDone_of_ne s1 r.src r.ctx r.done hsrc).trans (hother u hu)
  · rw [hspad]
    exact smGet_spadPuts_of_outside hb y
  · rw [hspad, hruns]
    exact smGet_spadPuts_single y (b + farShift y r) l hj
  · exact (congrArg Tile.ctx hz : _).trans ((congrArg Tile.ctx hcompletes : _).trans (congrArg Tile.ctx (landedTile_frame r y) :))
  · exact (congrArg Tile.acc hz : _).trans ((congrArg Tile.acc hcompletes : _).trans (congrArg Tile.acc (landedTile_frame r y) :))
  · have htile : getTile (remoteWritten s i r) r.dst = writtenTile r y := (getTile_addDone_of_ne s1 r.src r.ctx r.done (Ne.symm hsrc)).trans hdst
    rw [htile]
    exact getFlag_writtenTile r y hg
  · rw [show (getTile (remoteWritten s i r) r.dst).ctrs = (landedTile r y).ctrs from (congrArg Tile.ctrs hz : _).trans (congrArg Tile.ctrs hcompletes :)]
    exact landedTile_ctr r y

/-- What a transfer's bytes and claims may move in a tile. -/
def MovesBytes (x y : Tile) : Prop :=
  { y with tags := x.tags, circs := x.circs, claims := x.claims, spad := x.spad, poison := x.poison, oneBit := x.oneBit, twoBit := x.twoBit, spadStatus := x.spadStatus,
           ctrs := x.ctrs } = x

theorem MovesBytes.trans {x y z : Tile} (h : MovesBytes x y) (k : MovesBytes y z) : MovesBytes x z := by
  unfold MovesBytes at *
  rw [← h, ← k]

theorem ClaimsOnly.movesBytes {x y : Tile} (h : ClaimsOnly x y) : MovesBytes x y :=
  (congrArg (fun e : Tile => { e with spad := x.spad, poison := x.poison, oneBit := x.oneBit, twoBit := x.twoBit, spadStatus := x.spadStatus, ctrs := x.ctrs }) h :)

theorem claimsOnly_farClaim (y : Tile) (r : Remote) : ClaimsOnly y (farClaim y r) := by
  unfold farClaim
  split
  · exact (claimsOnly_makeClaims _ _ _ _ y).trans (claimsOnly_retryClaims _ _)
  · rfl

theorem claimsOnly_landClaim (x : Tile) (hd : Handle) (runs : List (Nat × Nat)) : ClaimsOnly x (landClaim x hd runs) := by
  unfold landClaim
  split
  · exact (claimsOnly_makeClaims _ _ _ _ x).trans (claimsOnly_retryClaims _ _)
  · rfl

/-- The target of a remote read that has been served (R161, R177). -/
def servedTile (r : Remote) (a : Nat) (y : Tile) : Tile :=
  let y := correctReads y [(a, r.len)]
  if r.src = r.dst then y else tileCtr y 0x98 (ceilDiv r.len 64)

theorem servedTile_frame (r : Remote) (a : Nat) (y : Tile) : { servedTile r a y with oneBit := y.oneBit, spadStatus := y.spadStatus, ctrs := y.ctrs } = y := by
  unfold servedTile
  dsimp only
  split <;> rfl

theorem servedTile_ctr (r : Remote) (a : Nat) (y : Tile) :
    smGet (servedTile r a y).ctrs 0x98 = if r.src = r.dst then smGet y.ctrs 0x98 else smGet y.ctrs 0x98 + BitVec.ofNat 64 ((r.len + 63) / 64) := by
  unfold servedTile
  dsimp only
  split
  · rfl
  · rw [smGet_tileCtr, if_pos rfl]
    rfl

/-- The state in which a remote read has been served and its landing side claimed. -/
def readServed (s : State) (i : Nat) (r : Remote) : State :=
  let y := farClaim (getTile s r.dst) r
  let s1 := modTile (modTile s r.dst (fun y => farClaim y r)) r.src (fun x => landClaim x (getHandle (getTile s r.src) (r.handle.getD 0)) r.loc)
  modTile { s1 with remotes := dropIdx s.remotes i } r.dst (servedTile r (r.addr + farShift y r))

/-- The state in which its bytes have landed. -/
def readReturned (s : State) (i : Nat) (r : Remote) : State :=
  let y := farClaim (getTile s r.dst) r
  let leaf := fun (x : Tile) => match getPart? (readServed s i r) r.part with | some q => leafBytes q x | none => 0
  modTile (readServed s i r) r.src (fun x => landBytes x (leaf x) (getHandle (getTile s r.src) (r.handle.getD 0)) r.loc (readBytes y.spad (r.addr + farShift y r) r.len))

theorem exec_remoteReadReturn {i : Nat} {s : State} {r : Remote} (hr : s.remotes[i]? = some r) (hfree : remoteBlocked s.remotes i r = false) (hread : r.read = true)
    (hready : farReady (farClaim (getTile s r.dst) r) r = true)
    (hclean : poisoned (farClaim (getTile s r.dst) r) [(r.addr + farShift (farClaim (getTile s r.dst) r) r, r.len)] = none)
    (htaken : claimsTaken (landClaim (getTile (modTile s r.dst (fun y => farClaim y r)) r.src) (getHandle (getTile s r.src) (r.handle.getD 0)) r.loc)
      (getHandle (getTile s r.src) (r.handle.getD 0)).opId = true) :
    exec (.remoteReadReturn i) s = .next (readReturned s i r) := by
  show execRemoteReadReturn i s = _
  unfold execRemoteReadReturn
  rw [hr]
  dsimp only
  rw [if_neg (by simp [hread, hfree]), getTile_modTile s r.dst r.dst, if_pos rfl, if_neg (by simp [hready]), hclean]
  dsimp only
  rw [if_neg]
  · rfl
  · rw [getTile_modTile _ r.src r.src, if_pos rfl, htaken]
    simp

section readReturned
variable (s : State) (i : Nat) (r : Remote)

theorem readReturned_frame : { readReturned s i r with remotes := s.remotes, tiles := s.tiles } = s := by
  unfold readReturned readServed modTile setTile
  rfl

theorem readReturned_remotes : (readReturned s i r).remotes = dropIdx s.remotes i := by
  unfold readReturned readServed modTile setTile
  rfl

theorem getTile_farClaimed (u : Nat) : getTile (modTile s r.dst (fun y => farClaim y r)) u = if u = r.dst then farClaim (getTile s r.dst) r else getTile s u := getTile_modTile ..

/-- The tiles of a served read. -/
theorem getTile_readServed (u : Nat) :
    let x := landClaim (getTile (modTile s r.dst (fun y => farClaim y r)) r.src) (getHandle (getTile s r.src) (r.handle.getD 0)) r.loc
    let z := if u = r.src then x else getTile (modTile s r.dst (fun y => farClaim y r)) u
    getTile (readServed s i r) u = if u = r.dst then servedTile r (r.addr + farShift (farClaim (getTile s r.dst) r) r) z else z := by
  intro x z
  have hland (v : Nat) := getTile_modTile (modTile s r.dst (fun y => farClaim y r)) r.src v (fun x => landClaim x (getHandle (getTile s r.src) (r.handle.getD 0)) r.loc)
  refine (getTile_modTile _ r.dst u _).trans ?_
  by_cases hu : u = r.dst
  · subst hu
    rw [if_pos rfl, if_pos rfl]
    exact congrArg _ (hland r.dst)
  · rw [if_neg hu, if_neg hu]
    exact hland u

/-- A served read has moved claims, counts and corrections only. -/
theorem movesBytes_readServed (u : Nat) : MovesBytes (getTile s u) (getTile (readServed s i r) u) := by
  have hserved (y : Tile) (a : Nat) : MovesBytes y (servedTile r a y) := (congrArg (fun e : Tile => { e with
    tags := y.tags, circs := y.circs, claims := y.claims, spad := y.spad, poison := y.poison, twoBit := y.twoBit }) (servedTile_frame r a y) :)
  have hfar (v : Nat) : MovesBytes (getTile s v) (getTile (modTile s r.dst (fun y => farClaim y r)) v) := by
    rw [getTile_farClaimed]
    split
    · next hv => subst hv; exact (claimsOnly_farClaim _ r).movesBytes
    · rfl
  rw [getTile_readServed]
  split
  · refine MovesBytes.trans ?_ (hserved _ _)
    split
    · next hu => subst hu; exact (hfar _).trans (claimsOnly_landClaim _ _ _).movesBytes
    · exact hfar u
  · split
    · next hu => subst hu; exact (hfar _).trans (claimsOnly_landClaim _ _ _).movesBytes
    · exact hfar u

/-- Bytes that land in the scratchpad. -/
theorem movesBytes_landBytes {x : Tile} {leaf : Nat} {hd : Handle} {runs : List (Nat × Nat)} {b : List Byte} (h : hd.dir ≠ 2) :
    MovesBytes x (landBytes x leaf hd runs b) := by
  rw [landBytes, if_neg h]
  exact (congrArg (fun e : Tile => { e with tags := x.tags, circs := x.circs, claims := x.claims, spadStatus := x.spadStatus, ctrs := x.ctrs }) (spadPuts_frame _ x) :)

theorem landBytes_ctrs {x : Tile} {leaf : Nat} {hd : Handle} {runs : List (Nat × Nat)} {b : List Byte} (h : hd.dir ≠ 2) :
    (landBytes x leaf hd runs b).ctrs = x.ctrs := by
  rw [landBytes, if_neg h]
  exact (congrArg Tile.ctrs (spadPuts_frame _ x) :)

theorem getTile_readReturned_of_ne {u : Nat} (hu : u ≠ r.src) : getTile (readReturned s i r) u = getTile (readServed s i r) u := by
  rw [readReturned, getTile_modTile, if_neg hu]

/-- The requester, with the bytes at its landing side (R175). -/
theorem spad_readReturned (hdir : (getHandle (getTile s r.src) (r.handle.getD 0)).dir ≠ 2) :
    let y := farClaim (getTile s r.dst) r
    let hd := getHandle (getTile s r.src) (r.handle.getD 0)
    let x := landClaim (getTile (modTile s r.dst (fun y => farClaim y r)) r.src) hd r.loc
    ∃ x', x'.spad = x.spad ∧ (getTile (readReturned s i r) r.src).spad =
      (spadPuts x' (scatter (opndReads x hd.opId [landOpnd hd r.loc]) (readBytes y.spad (r.addr + farShift y r) r.len))).spad := by
  intro y hd x
  have hx : { getTile (readServed s i r) r.src with oneBit := x.oneBit, spadStatus := x.spadStatus, ctrs := x.ctrs } = x := by
    rw [getTile_readServed]
    dsimp only
    rw [if_pos rfl]
    split
    · exact servedTile_frame r _ x
    · rfl
  refine ⟨getTile (readServed s i r) r.src, (congrArg Tile.spad hx :), ?_⟩
  have hreads : opndReads (getTile (readServed s i r) r.src) hd.opId [landOpnd hd r.loc] = opndReads x hd.opId [landOpnd hd r.loc] :=
    (congrArg (fun e : Tile => opndReads e hd.opId [landOpnd hd r.loc]) hx :)
  rw [readReturned, getTile_modTile, if_pos rfl, landBytes, if_neg hdir, hreads]

/-- The traffic of a remote read is counted at its target (R177). -/
theorem ctr_readReturned (hdir : (getHandle (getTile s r.src) (r.handle.getD 0)).dir ≠ 2) :
    smGet (getTile (readReturned s i r) r.dst).ctrs 0x98 = if r.src = r.dst then smGet (farClaim (getTile s r.dst) r).ctrs 0x98
      else smGet (farClaim (getTile s r.dst) r).ctrs 0x98 + BitVec.ofNat 64 ((r.len + 63) / 64) := by
  have hkept : (getTile (readReturned s i r) r.dst).ctrs = (getTile (readServed s i r) r.dst).ctrs := by
    by_cases hsrc : r.dst = r.src
    · rw [hsrc, readReturned, getTile_modTile, if_pos rfl, landBytes_ctrs hdir]
    · rw [getTile_readReturned_of_ne s i r hsrc]
  rw [hkept, getTile_readServed, if_pos rfl, servedTile_ctr]
  split
  · next hsrc =>
    rw [if_pos hsrc.symm, hsrc, getTile_farClaimed, if_pos rfl]
    exact (congrArg (fun e : Tile => smGet e.ctrs 0x98) (claimsOnly_landClaim _ _ _) :)
  · next hsrc => rw [if_neg (Ne.symm hsrc), getTile_farClaimed, if_pos rfl]

end readReturned

theorem remoteRead_spec {i : Nat} {s : State} {r : Remote} (hr : s.remotes[i]? = some r) (hfree : remoteBlocked s.remotes i r = false) (hread : r.read = true) :
    let y := farClaim (getTile s r.dst) r
    let s1 := setTile { s with remotes := dropIdx s.remotes i } r.dst y
    let hd := getHandle (getTile s r.src) (r.handle.getD 0)
    let a := r.addr + farShift y r
    let x := landClaim (getTile s1 r.src) hd r.loc
    farReady y r = true → hd.dir ≠ 2 → poisoned y [(a, r.len)] = none → claimsTaken x hd.opId = true →
    ∃ s', exec (.remoteReadReturn i) s = .next s' ∧ { s' with remotes := s.remotes, tiles := s.tiles } = s ∧ s'.remotes = dropIdx s.remotes i ∧
      (∀ u, u ≠ r.dst → u ≠ r.src → getTile s' u = getTile s u) ∧
      (∀ u, (getTile s' u).flags = (getTile s u).flags ∧ (getTile s' u).ctx = (getTile s u).ctx ∧ (u ≠ r.src → (getTile s' u).spad = (getTile s u).spad)) ∧
      smGet (getTile s' r.dst).ctrs 0x98 = (if r.src = r.dst then smGet y.ctrs 0x98 else smGet y.ctrs 0x98 + BitVec.ofNat 64 ((r.len + 63) / 64)) ∧
      (∀ b, outsideRuns (scatter (opndReads x hd.opId [landOpnd hd r.loc]) (readBytes y.spad a r.len)) b → smGet (getTile s' r.src).spad b = smGet x.spad b) ∧
      (∀ b, r.loc = [(b, r.len)] → ∀ j < r.len, smGet (getTile s' r.src).spad (b + claimShift x hd.opId 16 + j) = smGet y.spad (a + j)) := by
  intro y s1 hd a x hready hdir hclean htaken
  have hclaimed (u : Nat) : getTile s1 u = getTile (modTile s r.dst (fun y => farClaim y r)) u := rfl
  have hland : MovesBytes (getTile (readServed s i r) r.src) (getTile (readReturned s i r) r.src) := by
    rw [readReturned, getTile_modTile, if_pos rfl]
    exact movesBytes_landBytes hdir
  have hmoves (u : Nat) : MovesBytes (getTile s u) (getTile (readReturned s i r) u) := by
    by_cases hu : u = r.src
    · subst hu
      exact (movesBytes_readServed s i r r.src).trans hland
    · rw [getTile_readReturned_of_ne s i r hu]
      exact movesBytes_readServed s i r u
  obtain ⟨x', hx', hspad⟩ : ∃ x', x'.spad = x.spad ∧ (getTile (readReturned s i r) r.src).spad =
      (spadPuts x' (scatter (opndReads x hd.opId [landOpnd hd r.loc]) (readBytes y.spad a r.len))).spad := spad_readReturned s i r hdir
  refine ⟨_, exec_remoteReadReturn hr hfree hread hready hclean htaken, readReturned_frame s i r, readReturned_remotes s i r, fun u hdst hsrc => ?_, fun u => ⟨(congrArg Tile.flags (hmoves u) :), (congrArg Tile.ctx (hmoves u) :), fun hsrc => ?_⟩, ?_, fun b hb => ?_, fun b hloc j hj => ?_⟩
  · rw [getTile_readReturned_of_ne s i r hsrc, getTile_readServed, if_neg hdst, if_neg hsrc, getTile_farClaimed, if_neg hdst]
  · rw [getTile_readReturned_of_ne s i r hsrc, getTile_readServed, if_neg hsrc, getTile_farClaimed]
    split
    · next hdst =>
      subst hdst
      exact (congrArg Tile.spad (servedTile_frame r _ y) : _).trans (congrArg Tile.spad (claimsOnly_farClaim _ r) :)
    · rfl
  · exact ctr_readReturned s i r hdir
  · rw [hspad, smGet_spadPuts_of_outside hb, hx']
  · have hone : scatter (opndReads x hd.opId [landOpnd hd r.loc]) (readBytes y.spad a r.len) = [(b + claimShift x hd.opId 16, readBytes y.spad a r.len)] := by
      rw [hloc]
      show [(b + claimShift x hd.opId 16, (readBytes y.spad a r.len).take r.len)] = _
      rw [List.take_of_length_le (readBytes_length ..).le]
    rw [hspad, hone, smGet_spadPuts_single _ _ _ (by rwa [readBytes_length]), getD_readBytes hj]

/-- Settles O17: signals and claims by what they touch, transfers by the tiles of their two ends. -/
theorem arrivalsAndClaims : Obligations.ArrivalsAndClaims := by
  unfold Obligations.ArrivalsAndClaims
  refine ⟨fun i s g hg hfree => signalArrive_spec hg hfree, fun t i s q hq hopen hcan hfirst => tagClaim_spec hq hopen hcan hfirst, fun i s r hr hfree => ?_⟩
  intro y s1 hd a x hready
  exact ⟨fun hwrite => remoteWrite_spec hr hfree hwrite hready, fun hread _ hdir hclean htaken => remoteRead_spec hr hfree hread hready hdir hclean htaken⟩

end Sys2Proof.Machine
end

section
/-! SUPPORT. The stream engines at work: programs, requests, landings and the merge buffer (R144, R167, R178-R190, R202, R205). -/

namespace Sys2Proof.Machine

open Sys2Proof

/-! ## Address programs -/

theorem apRun_frame (n : Nat) (h : Handle) : { apRun n h with ip := h.ip, m := h.m, l := h.l, loops := h.loops } = h := by
  induction n generalizing h with
  | zero => rfl
  | succ n ih =>
    have hstep (k : Handle) (hk : { k with ip := h.ip, m := h.m, l := h.l, loops := h.loops } = h) :
        { apRun n k with ip := h.ip, m := h.m, l := h.l, loops := h.loops } = h :=
      (congrArg (fun e : Handle => { e with ip := h.ip, m := h.m, l := h.l, loops := h.loops }) (ih k) : _).trans hk
    unfold apRun
    dsimp only
    split
    · split <;> exact hstep _ rfl
    · split
      · rfl
      · split <;> exact hstep _ rfl
    · exact hstep _ rfl
    · rfl

theorem bits_readLE_low (m : SMap 8) (a : Nat) : bits (readLE m a 16 128 : BitVec 128) 7 0 = (smGet m a).toNat := by
  have hb := (smGet m a).isLt
  show (BitVec.ofNat 128 ((smGet m a).toNat + 256 * bytesToNat (readBytes m (a + 1) 15))).toNat >>> 0 % 2 ^ 8 = _
  rw [BitVec.toNat_ofNat, Nat.shiftRight_zero]
  omega

section
variable {t : Fin 64} {h : Fin 8} {s : State} {p : Nat} {part : Part}

/-- A started program is read and checked (R179, R180). -/
theorem exec_streamXfer_load (hp : partOfTile s t = some p) (hpart : getPart? s p = some part) :
    let x := getTile s t
    let h0 := getHandle x h
    let hdr : BitVec 128 := readLE x.spad h0.progAddr 16 128
    let prog : List (BitVec 128) := (List.range (bits hdr 7 0)).map (fun i => readLE x.spad (h0.progAddr + 16 + 16 * i) 16 128)
    let reads := [(h0.progAddr, 16 + 16 * bits hdr 7 0)]
    h0.busy = true → mayStart x h0 = true → h0.walking = none → h0.loaded = false → bits hdr 7 0 ≤ 16 → poisoned x reads = none → apMalformed hdr h0.dir prog = none →
    exec (.streamXfer t h) s =
      .next (setTile s t (setHandle (correctReads x reads) h { h0 with loaded := true, prog := prog, mspace := bits hdr 15 8, hint := bits hdr 23 16 })) := by
  intro x h0 hdr prog reads hbusy hmay hwalk hload hlen hclean hwell
  have hcount : min (bits hdr 7 0) 16 = bits hdr 7 0 := Nat.min_eq_left hlen
  have hranges : (progOpnd x h0.progAddr).ranges = reads := by
    show [(h0.progAddr, 16 + 16 * min (smGet x.spad h0.progAddr).toNat 16)] = _
    rw [← bits_readLE_low, hcount]
  show execStreamXfer t h s = _
  unfold execStreamXfer
  rw [hp]
  dsimp only
  rw [hpart]
  dsimp only
  rw [if_neg (by simp [x, h0] at hbusy hmay hwalk; simp [hbusy, hmay, hwalk]), if_pos (by simp [x, h0] at hload; simp [hload])]
  unfold loadProgram
  dsimp only
  rw [show (progOpnd (getTile s t) (getHandle (getTile s t) h).progAddr).ranges = reads from hranges, hclean]
  dsimp only
  rw [hcount, hwell]

end

/-! ## Requests -/

theorem modPart_frame (s : State) (p : Nat) (f : Part → Part) : { modPart s p f with parts := s.parts } = s := by
  unfold modPart
  split <;> rfl

theorem chargeCredit_frame (s : State) (p : Nat) (c : RegClass) (n : Nat) :
    { chargeCredit s p c n with parts := s.parts, iod := { (chargeCredit s p c n).iod with creditNewt := s.iod.creditNewt } } = s := by
  cases c
  case newt => rfl
  all_goals exact congrArg (fun e : State => { e with iod := { e.iod with creditNewt := s.iod.creditNewt } }) (modPart_frame s p _)

/-- A read through the caddy touches its partition and the IODs only. -/
theorem caddyRead_frame (s : State) (p : Nat) (c : RegClass) (alloc : Bool) (l : List (Nat × Nat)) : { caddyRead s p c alloc l with parts := s.parts, iod := s.iod } = s := by
  unfold caddyRead
  split
  · rfl
  · next x _ =>
    dsimp only
    refine (congrArg (fun e : State => { e with parts := s.parts, iod := s.iod }) (chargeCredit_frame { modPart s p _ with iod := _ } p c _) : _).trans ?_
    exact congrArg (fun e : State => { e with iod := s.iod }) (modPart_frame s p _)

theorem getTile_caddyRead (s : State) (p : Nat) (c : RegClass) (alloc : Bool) (l : List (Nat × Nat)) (u : Nat) : getTile (caddyRead s p c alloc l) u = getTile s u :=
  (congrArg (fun e : State => getTile e u) (caddyRead_frame s p c alloc l) :)

/-- Granules that no entry of the merge buffer holds need no flush (R185). -/
theorem flushGranules_of_clear {s : State} {t : Nat} {l : List (Nat × Nat)} (h : ∀ e ∈ (getTile s t).merge, e.granule ∉ granulesOf l) (p : Nat) :
    flushGranules s p t l = (s, true) := by
  have hnone : (getTile s t).merge.filter (fun e => (granulesOf l).contains e.granule) = [] := List.filter_eq_nil_iff.2 (by simpa using h)
  have hflush : flushMerge s p t (fun e => (granulesOf l).contains e.granule) = s := by rw [flushMerge, hnone]; rfl
  unfold flushGranules
  dsimp only
  rw [hflush]
  exact congrArg (s, ·) (List.all_eq_true.2 (by simpa using h))

/-- A read request as its handle keeps it (R178). -/
def readOf (hd : Handle) (w : BitVec 128) (q : Nat × Nat × Nat) : MemReq := { chunks := [(q.1, q.2.1)], runs := sliceRanges (xferRanges hd w) q.2.2 q.2.1 }

/-- The state in which a read request has been issued (R178, R190). -/
def readIssued (s : State) (t p h : Nat) (hd : Handle) (w : BitVec 128) (q : Nat × Nat × Nat) : State :=
  handleSent (caddyRead s p .rd (hd.hint = 0 || decide (apLen w ≤ 256)) [(q.1, q.2.1)]) t h (apLen w) q.2.1 (fun k => { k with reads := k.reads ++ [readOf hd w q] })

theorem memRequest_read {s : State} {t h : Nat} {hd : Handle} (hdir : hd.dir = 0) {q : Nat × Nat × Nat}
    (hclear : ∀ e ∈ (getTile s t).merge, e.granule ∉ granulesOf [(q.1, q.2.1)]) (p : Nat) (w : BitVec 128) :
    memRequest s t p h hd w q =
      if 64 ≤ (getHandle (getTile s t) h).reads.length ∨ 256 ≤ readsOut (getTile s t) then (s, false)
      else if !creditOk s p .rd then (waitCredit s p .rd, false) else (readIssued s t p h hd w q, true) := by
  rw [memRequest, if_neg (by rw [hdir]; decide), readRequest, flushGranules_of_clear hclear]
  simp only [Bool.not_true, Bool.false_eq_true, if_false, hdir, OfNat.zero_ne_ofNat]
  rfl

/-- The next request of a list: no slot, no credit, or issued. -/
theorem memRequests_cons {s : State} {t h : Nat} {hd : Handle} (hdir : hd.dir = 0) {q : Nat × Nat × Nat}
    (hclear : ∀ e ∈ (getTile s t).merge, e.granule ∉ granulesOf [(q.1, q.2.1)]) (p : Nat) (w : BitVec 128) (r : List (Nat × Nat × Nat)) :
    memRequests t p h hd w s (q :: r) =
      if 64 ≤ (getHandle (getTile s t) h).reads.length ∨ 256 ≤ readsOut (getTile s t) then s
      else if creditOk s p .rd = false then waitCredit s p .rd else memRequests t p h hd w (readIssued s t p h hd w q) r := by
  rw [memRequests, memRequest_read hdir hclear]
  by_cases hfull : 64 ≤ (getHandle (getTile s t) h).reads.length ∨ 256 ≤ readsOut (getTile s t)
  · rw [if_pos hfull, if_pos hfull]
    rfl
  · rw [if_neg hfull, if_neg hfull]
    cases creditOk s p .rd <;> rfl

/-- The requests of a handle change the handles of its tile, its partition and the IODs. -/
structure AskedOnly (s s' : State) (t : Nat) : Prop where
  others : ∀ u, u ≠ t → getTile s' u = getTile s u
  tile : { getTile s' t with handles := (getTile s t).handles } = getTile s t

theorem AskedOnly.refl (s : State) (t : Nat) : AskedOnly s s t := ⟨fun _ _ => rfl, rfl⟩

theorem AskedOnly.trans {s s1 s2 : State} {t : Nat} (h : AskedOnly s s1 t) (k : AskedOnly s1 s2 t) : AskedOnly s s2 t where
  others := fun u hu => (k.others u hu).trans (h.others u hu)
  tile := (congrArg (fun e : Tile => { e with handles := (getTile s t).handles }) k.tile : _).trans h.tile

theorem askedOnly_readIssued (s : State) (t p h : Nat) (hd : Handle) (w : BitVec 128) (q : Nat × Nat × Nat) : AskedOnly s (readIssued s t p h hd w q) t where
  others := fun u hu => by rw [readIssued, handleSent, getTile_modTile, if_neg hu, getTile_caddyRead]
  tile := by
    rw [readIssued, handleSent, getTile_modTile, if_pos rfl, getTile_caddyRead]
    rfl

theorem reads_readIssued (s : State) (t p h : Nat) (hd : Handle) (w : BitVec 128) (q : Nat × Nat × Nat) :
    (getHandle (getTile (readIssued s t p h hd w q) t) h).reads = (getHandle (getTile s t) h).reads ++ [readOf hd w q] := by
  rw [readIssued, handleSent, getTile_modTile, if_pos rfl, getTile_caddyRead, getHandle_setHandle, if_pos rfl]
  dsimp only
  split <;> rfl

theorem askedOnly_waitCredit (s : State) (p t : Nat) : AskedOnly s (waitCredit s p .rd) t := by
  have htile (u : Nat) : getTile (waitCredit s p .rd) u = getTile s u := (congrArg (fun e : State => getTile e u) (modPart_frame s p _) :)
  exact ⟨fun u _ => htile u, by rw [htile]⟩

theorem creditRd_of_not_ok {s : State} {p : Nat} (h : creditOk s p .rd = false) : ∃ part', getPart? (waitCredit s p .rd) p = some part' ∧ part'.creditRd < 0 := by
  unfold creditOk at h
  split at h
  next x hx =>
    refine ⟨{ x with waitRd := true }, ?_, ?_⟩
    · rw [waitCredit, modPart_of_some hx, getPart_setPart, if_pos rfl]
    · exact not_le.1 (of_decide_eq_false h)
  next => cases h

/-- Requests are issued in order until one finds no slot or no credit (R178, R190). -/
theorem memRequests_reads {t p h : Nat} {hd : Handle} (hdir : hd.dir = 0) (w : BitVec 128) (l : List (Nat × Nat × Nat)) (s : State)
    (hclear : ∀ e ∈ (getTile s t).merge, ∀ q ∈ l, e.granule ∉ granulesOf [(q.1, q.2.1)]) :
    let s' := memRequests t p h hd w s l
    AskedOnly s s' t ∧ ∃ k ≤ l.length, (getHandle (getTile s' t) h).reads = (getHandle (getTile s t) h).reads ++ (l.take k).map (readOf hd w) ∧
      (k < l.length → 64 ≤ (getHandle (getTile s' t) h).reads.length ∨ 256 ≤ readsOut (getTile s' t) ∨ ∃ part', getPart? s' p = some part' ∧ part'.creditRd < 0) := by
  induction l generalizing s with
  | nil => exact ⟨.refl s t, 0, le_rfl, (List.append_nil _).symm, fun h => absurd h (lt_irrefl _)⟩
  | cons q r ih =>
    intro s'
    have hreq : s' = _ := memRequests_cons hdir (fun e he => hclear e he q (List.mem_cons_self ..)) p w r
    by_cases hfull : 64 ≤ (getHandle (getTile s t) h).reads.length ∨ 256 ≤ readsOut (getTile s t)
    · rw [if_pos hfull] at hreq
      rw [hreq]
      exact ⟨.refl s t, 0, Nat.zero_le _, (List.append_nil _).symm, fun _ => hfull.imp id .inl⟩
    · rw [if_neg hfull] at hreq
      by_cases hcredit : creditOk s p .rd = false
      · rw [if_pos hcredit] at hreq
        rw [hreq]
        have htile : getTile (waitCredit s p .rd) t = getTile s t := (congrArg (fun e : State => getTile e t) (modPart_frame s p _) :)
        refine ⟨askedOnly_waitCredit s p t, 0, Nat.zero_le _, ?_, fun _ => .inr (.inr (creditRd_of_not_ok hcredit))⟩
        rw [htile]
        exact (List.append_nil _).symm
      · rw [if_neg hcredit] at hreq
        have hasked := askedOnly_readIssued s t p h hd w q
        have hmerge : (getTile (readIssued s t p h hd w q) t).merge = (getTile s t).merge := (congrArg Tile.merge hasked.tile :)
        obtain ⟨hrest, k, hk, hreads, hstop⟩ := ih (readIssued s t p h hd w q) (fun e he q' hq' => hclear e (hmerge ▸ he) q' (List.mem_cons_of_mem _ hq'))
        rw [hreq]
        refine ⟨hasked.trans hrest, k + 1, Nat.succ_le_succ hk, ?_, fun h => hstop (Nat.lt_of_succ_lt_succ h)⟩
        rw [hreads, reads_readIssued, List.append_assoc]
        rfl

/-! ## A transfer from memory -/

/-- The handle of a transfer that goes on: its program has run up to the next XFER (R180). -/
@[reducible] def xferHandle (h0 : Handle) : Handle := if h0.sent = 0 then apRun 128 h0 else h0

theorem xferHandle_frame (h0 : Handle) : { xferHandle h0 with ip := h0.ip, m := h0.m, l := h0.l, loops := h0.loops } = h0 := by
  unfold xferHandle
  split
  · exact apRun_frame 128 h0
  · rfl

/-- The tile whose handle keeps to the region of its transfer (R166). -/
def sidedTile (hd : Handle) (w : BitVec 128) (h : Nat) (x : Tile) : Tile :=
  setHandle x h { getHandle x h with side := if (localOpnd hd w).ranges = [] then hd.side else some (footRegion x.map (localOpnd hd w).base (localOpnd hd w).ranges) }

section
variable {t : Fin 64} {h : Fin 8} {s : State} {p : Nat} {part : Part}

theorem exec_streamXfer_read (hp : partOfTile s t = some p) (hpart : getPart? s p = some part) :
    let x := getTile s t
    let h0 := getHandle x h
    let hd := xferHandle h0
    let s1 := setTile s t (setHandle x h hd)
    let w := hd.prog.getD hd.ip 0
    ∀ chunks : List (Nat × Nat), h0.busy = true → mayStart x h0 = true → h0.walking = none → h0.loaded = true → h0.dir = 0 → h0.drainFed = false → apOp w = 3 →
    xferBad s1 t part hd w = none → memSide s1 part 0 hd.mspace hd.rtile (hd.m + apM w) (apLen w) = .mem chunks [] →
    exec (.streamXfer t h) s = .next (memRequests t p h hd w (modTile s1 t (sidedTile hd w h)) ((requestsOf chunks 0).filter (fun q => decide (hd.sent ≤ q.2.2)))) := by
  intro x h0 hd s1 w chunks hbusy hmay hwalk hload hdir hfed hop hgood hside
  have hframe := xferHandle_frame h0
  have hdir' : hd.dir = 0 := (congrArg Handle.dir hframe : _).trans hdir
  have hfed' : hd.drainFed = false := (congrArg Handle.drainFed hframe : _).trans hfed
  show execStreamXfer t h s = _
  unfold execStreamXfer
  rw [hp]
  dsimp only
  rw [hpart]
  dsimp only
  rw [if_neg (by simp [x, h0] at hbusy hmay hwalk; simp [hbusy, hmay, hwalk]), if_neg (by simp [x, h0] at hload; simp [hload])]
  refine (if_neg (not_not.2 hop)).trans ?_
  rw [show xferBad (modTile s t fun x => setHandle x h hd) t part hd w = none from hgood]
  dsimp only
  rw [show memSide (modTile s t fun x => setHandle x h hd) part hd.dir hd.mspace hd.rtile (hd.m + apM w) (apLen w) = .mem chunks [] from hdir'.symm ▸ hside]
  dsimp only [farBad]
  refine (if_neg fun hf => Bool.noConfusion (hfed'.symm.trans hf.1)).trans ?_
  rw [show (localOpnd hd w).write = true from decide_eq_true hdir']
  rfl

end

/-- A side that is kept changes no count of requests. -/
theorem readsOut_setHandle (x : Tile) (h : Nat) {a b : Handle} (hab : a.reads = b.reads) : readsOut (setHandle (setHandle x h a) h b) = readsOut (setHandle x h a) := by
  have hmap (l : List (Nat × Handle)) : (tabInsert h b (tabInsert h a l)).map (fun q => q.2.reads.length) = (tabInsert h a l).map (fun q => q.2.reads.length) := by
    induction l with
    | nil => simp [tabInsert, hab]
    | cons q r ih =>
      obtain ⟨k, v⟩ := q
      rw [tabInsert]
      split
      · simp [tabInsert, hab]
      · split
        · simp [tabInsert, hab]
        · next hlt hne =>
          rw [tabInsert, if_neg hlt, if_neg hne, List.map_cons, List.map_cons, ih]
  exact congrArg List.sum (hmap x.handles)

/-- A transfer from memory that nothing holds up asks for its bytes. -/
theorem streamXfer_read {t : Fin 64} {h : Fin 8} {s : State} {p : Nat} {part : Part} (hp : partOfTile s t = some p) (hpart : getPart? s p = some part) :
    let x := getTile s t
    let h0 := getHandle x h
    let hd := xferHandle h0
    let s1 := setTile s t (setHandle x h hd)
    let w := hd.prog.getD hd.ip 0
    ∀ (chunks : List (Nat × Nat)) (q : Nat × Nat × Nat) (l : List (Nat × Nat × Nat)), h0.busy = true → mayStart x h0 = true → h0.walking = none → h0.loaded = true →
    h0.dir = 0 → h0.drainFed = false → apOp w = 3 → xferBad s1 t part hd w = none →
    memSide s1 part 0 hd.mspace hd.rtile (hd.m + apM w) (apLen w) = .mem chunks [] →
    (requestsOf chunks 0).filter (fun q => decide (hd.sent ≤ q.2.2)) = q :: l → (∀ e ∈ x.merge, ∀ r ∈ q :: l, e.granule ∉ granulesOf [(r.1, r.2.1)]) →
    0 ≤ part.creditRd → h0.reads.length < 64 → readsOut (getTile s1 t) < 256 →
    ∃ s', exec (.streamXfer t h) s = .next s' ∧ (∀ u : Nat, u ≠ t.val → getTile s' u = getTile s u) ∧ (getTile s' t).spad = x.spad ∧ (getTile s' t).flags = x.flags ∧
      (getTile s' t).ctx = x.ctx ∧ (getTile s' t).merge = x.merge ∧
      let n := getHandle (getTile s' t) h
      ∃ k, 0 < k ∧ k ≤ l.length + 1 ∧ n.reads = h0.reads ++ ((q :: l).take k).map (readOf hd w) ∧
        (k < l.length + 1 → 64 ≤ n.reads.length ∨ 256 ≤ readsOut (getTile s' t) ∨ ∃ part', getPart? s' p = some part' ∧ part'.creditRd < 0) := by
  intro x h0 hd s1 w chunks q l hbusy hmay hwalk hload hdir hfed hop hgood hside hreqs hclear hcredit hfew hroom
  have hframe := xferHandle_frame h0
  have hexec := exec_streamXfer_read hp hpart chunks hbusy hmay hwalk hload hdir hfed hop hgood hside
  rw [hreqs] at hexec
  have hdir' : hd.dir = 0 := (congrArg Handle.dir hframe : _).trans hdir
  have hreads' : hd.reads = h0.reads := (congrArg Handle.reads hframe :)
  have hone : getTile s1 t = setHandle x h hd := (getTile_setTile _ _ _ _).trans (if_pos rfl)
  have hget : getHandle (setHandle x h hd) h = hd := by rw [getHandle_setHandle, if_pos rfl]
  have htwo : getTile (modTile s1 t (sidedTile hd w h)) t = sidedTile hd w h (setHandle x h hd) := by rw [getTile_modTile, if_pos rfl, hone]
  have htwoReads : (getHandle (getTile (modTile s1 t (sidedTile hd w h)) t) h).reads = h0.reads := by
    rw [htwo, sidedTile, getHandle_setHandle, if_pos rfl, hget]
    exact hreads'
  have hout : readsOut (getTile (modTile s1 t (sidedTile hd w h)) t) < 256 := by
    rw [hone] at hroom
    rw [htwo, sidedTile, hget]
    refine lt_of_eq_of_lt (readsOut_setHandle x h ?_) hroom
    rfl
  have hok : creditOk (modTile s1 t (sidedTile hd w h)) p .rd = true := by
    unfold creditOk
    rw [show getPart? (modTile s1 t (sidedTile hd w h)) p = some part from hpart]
    exact decide_eq_true hcredit
  have hmerge : (getTile (modTile s1 t (sidedTile hd w h)) t).merge = x.merge := by rw [htwo]; rfl
  have hasked : AskedOnly s (modTile s1 t (sidedTile hd w h)) t :=
    ⟨fun u hu => by rw [getTile_modTile, if_neg hu]; exact (getTile_setTile _ _ _ _).trans (if_neg hu), by rw [htwo]; rfl⟩
  rw [memRequests_cons hdir' (fun e he => hclear e (hmerge ▸ he) q (List.mem_cons_self ..)), if_neg (by rw [htwoReads]; omega), if_neg (by simp [hok])] at hexec
  have hissued := askedOnly_readIssued (modTile s1 t (sidedTile hd w h)) t p h hd w q
  have hissuedMerge : (getTile (readIssued (modTile s1 t (sidedTile hd w h)) t p h hd w q) t).merge = x.merge := (congrArg Tile.merge hissued.tile : _).trans hmerge
  obtain ⟨hrest, k, hk, hreads, hstop⟩ := memRequests_reads (p := p) (h := h) hdir' w l (readIssued (modTile s1 t (sidedTile hd w h)) t p h hd w q)
    (fun e he r hr => hclear e (hissuedMerge ▸ he) r (List.mem_cons_of_mem _ hr))
  have hall := hasked.trans (hissued.trans hrest)
  refine ⟨_, hexec, hall.others, (congrArg Tile.spad hall.tile :), (congrArg Tile.flags hall.tile :), (congrArg Tile.ctx hall.tile :), (congrArg Tile.merge hall.tile :),
    k + 1, Nat.succ_pos _, Nat.succ_le_succ hk, ?_, fun h => hstop (Nat.lt_of_succ_lt_succ h)⟩
  rw [hreads, reads_readIssued, htwoReads, List.append_assoc]
  rfl

/-- Settles O19: the program that is read, and the requests of a transfer one by one. -/
theorem streamTransfers : Obligations.StreamTransfers := by
  unfold Obligations.StreamTransfers
  intro t h s p part hp hpart x h0 hbusy hmay hwalk
  refine ⟨fun hload => ?_, fun hload hdir hfed => ?_⟩
  · intro hdr prog reads hlen hclean hwell
    exact exec_streamXfer_load hp hpart hbusy hmay hwalk hload hlen hclean hwell
  · intro hd s1 w chunks q l hop hgood hside hreqs hclear hcredit hfew hroom
    exact streamXfer_read hp hpart chunks q l hbusy hmay hwalk hload hdir hfed hop hgood hside hreqs hclear hcredit hfew hroom

end Sys2Proof.Machine
end

section
/-! SUPPORT. What a stream engine's work leads to: landings, ends, merge entries, page walks (R144, R167, R178, R185, R190, R201-R205). -/

namespace Sys2Proof.Machine

open Sys2Proof

/-! ## Landings -/

theorem reportRead_nil (s : State) : reportRead s [] = s := rfl

/-- The tile in which a read of a handle has landed. -/
def landedRead (part : Part) (h : Nat) (hd : Handle) (q : MemReq) (i : Nat) (x : Tile) : Tile :=
  setHandle (landBytes x (leafBytes part x) hd q.runs (readChunks part.mem q.chunks)) h { hd with reads := dropIdx hd.reads i }

section
variable {t : Fin 64} {h : Fin 8} {i : Nat} {s : State} {p : Nat} {part : Part} {q : MemReq}

theorem exec_streamReadLand (hp : partOfTile s t = some p) (hpart : getPart? s p = some part) (hq : (getHandle (getTile s t) h).reads[i]? = some q)
    (htaken : (getHandle (getTile s t) h).dir = 0 → claimsTaken (landClaim (getTile s t) (getHandle (getTile s t) h) q.runs) (getHandle (getTile s t) h).opId = true) (bad : List Nat) :
    let hd := getHandle (getTile s t) h
    exec (.streamReadLand t h ⟨i, bad⟩) s = .next (reportRead (modTile (modTile s t (fun x => landClaim x hd q.runs)) t (landedRead part h hd q i))
      ((bad.filterMap (fun k => (granulesOf q.chunks)[k]?)).map (fun k => firstGranule p + k))) := by
  intro hd
  show execStreamReadLand t h ⟨i, bad⟩ s = _
  unfold execStreamReadLand
  dsimp only
  rw [hq, hp]
  dsimp only
  rw [hpart]
  dsimp only
  rw [getTile_modTile, if_pos rfl, if_neg]
  · rfl
  · intro hwait
    rw [Bool.and_eq_true, decide_eq_true_iff, Bool.not_eq_true'] at hwait
    rw [htaken hwait.1] at hwait
    exact Bool.noConfusion hwait.2

theorem landBytes_arr {x : Tile} {leaf : Nat} {hd : Handle} {runs : List (Nat × Nat)} {b : List Byte} (h : hd.dir = 2) :
    landBytes x leaf hd runs b = landArr x leaf ((runs.headD (0, 0)).1) b := if_pos h

theorem landBytes_spad {x : Tile} {leaf : Nat} {hd : Handle} {runs : List (Nat × Nat)} {b : List Byte} (h : hd.dir ≠ 2) :
    landBytes x leaf hd runs b = spadPuts x (scatter (opndReads x hd.opId [landOpnd hd runs]) b) := if_neg h

/-- The side of a read whose one run its bytes fill. -/
theorem scatter_landOpnd (x : Tile) (hd : Handle) (a : Nat) (b : List Byte) :
    scatter (opndReads x hd.opId [landOpnd hd [(a, b.length)]]) b = [(a + claimShift x hd.opId 16, b)] := by
  show [(a + claimShift x hd.opId 16, b.take b.length)] = _
  rw [List.take_length]

theorem landedRead_keeps (part : Part) (h : Nat) (hd : Handle) (q : MemReq) (i : Nat) (x : Tile) :
    (landedRead part h hd q i x).ctx = x.ctx ∧ (landedRead part h hd q i x).acc = x.acc ∧ (landedRead part h hd q i x).flags = x.flags := by
  by_cases hdir : hd.dir = 2
  · rw [landedRead, landBytes_arr hdir]
    exact ⟨rfl, rfl, rfl⟩
  · rw [landedRead, landBytes_spad hdir]
    have hputs := spadPuts_frame (scatter (opndReads x hd.opId [landOpnd hd q.runs]) (readChunks part.mem q.chunks)) x
    exact ⟨(congrArg Tile.ctx hputs :), (congrArg Tile.acc hputs :), (congrArg Tile.flags hputs :)⟩

theorem streamReadLand_spec (hp : partOfTile s t = some p) (hpart : getPart? s p = some part) :
    let hd := getHandle (getTile s t) h
    let x := landClaim (getTile s t) hd q.runs
    let b := readChunks part.mem q.chunks
    hd.reads[i]? = some q → (hd.dir = 0 → claimsTaken x hd.opId = true) →
    ∃ s', exec (.streamReadLand t h ⟨i, []⟩) s = .next s' ∧ TileOnly s s' t ∧
      (∀ bad : List Nat, exec (.streamReadLand t h ⟨i, bad⟩) s =
        .next (reportRead s' ((bad.filterMap (fun k => (granulesOf q.chunks)[k]?)).map (fun k => firstGranule p + k)))) ∧
      let y := getTile s' t
      (getHandle y h).reads = dropIdx hd.reads i ∧ y.ctx = x.ctx ∧ y.acc = x.acc ∧ y.flags = x.flags ∧
      (hd.dir = 2 → y.spad = x.spad ∧ y.arr.fill = x.arr.fill + b.length ∧ (y.arr.full = true ↔ leafBytes part x ≤ y.arr.fill)) ∧
      (hd.dir ≠ 2 → y.arr = x.arr ∧ (∀ a, outsideRuns (scatter (opndReads x hd.opId [landOpnd hd q.runs]) b) a → smGet y.spad a = smGet x.spad a) ∧
        ∀ a, q.runs = [(a, b.length)] → ∀ j < b.length, smGet y.spad (a + claimShift x hd.opId 16 + j) = b.getD j 0) := by
  intro hd x b hq htaken
  have hexec := exec_streamReadLand hp hpart hq htaken
  have htile : getTile (modTile (modTile s t (fun x => landClaim x hd q.runs)) t (landedRead part h hd q i)) t = landedRead part h hd q i x := by
    rw [getTile_modTile, if_pos rfl, getTile_modTile, if_pos rfl]
  obtain ⟨hctx, hacc, hflags⟩ := landedRead_keeps part h hd q i x
  refine ⟨_, (hexec []).trans (congrArg Host.Outcome.next (reportRead_nil _)), ⟨rfl, fun u hu => ?_⟩, hexec, ?_⟩
  · rw [getTile_modTile, if_neg hu, getTile_modTile, if_neg hu]
  · rw [htile]
    refine ⟨?_, hctx, hacc, hflags, fun hdir => ?_, fun hdir => ?_⟩
    · rw [landedRead, getHandle_setHandle, if_pos rfl]
    · rw [landedRead, landBytes_arr hdir]
      exact ⟨rfl, rfl, decide_eq_true_iff⟩
    · rw [landedRead, landBytes_spad hdir]
      refine ⟨(congrArg Tile.arr (spadPuts_frame _ x) :), fun a ha => smGet_spadPuts_of_outside ha x, fun a hruns j hj => ?_⟩
      rw [hruns]
      refine (congrArg (fun l => smGet (spadPuts x l).spad _) (scatter_landOpnd x hd a b)).trans ?_
      exact smGet_spadPuts_single x _ b hj

end

/-! ## The end of a transfer -/

theorem flushMerge_of_none {s : State} {t : Nat} {f : MergeEntry → Bool} (h : ∀ e ∈ (getTile s t).merge, f e = false) (p : Nat) : flushMerge s p t f = s := by
  rw [flushMerge, List.filter_eq_nil_iff.2 (fun e he => by simp [h e he])]
  rfl

theorem completeOp_of_none {x : Tile} {op : Nat} (h : ∀ q ∈ x.claims, q.op ≠ op) : completeOp x op = { x with tracks := x.tracks.filter (fun k => decide (k.op ≠ op)) } := by
  have hmine : x.claims.filter (fun q => decide (q.op = op) && q.taken) = [] := List.filter_eq_nil_iff.2 (fun q hq => by simp [h q hq])
  have hrest : x.claims.filter (fun q => decide (q.op ≠ op)) = x.claims := List.filter_eq_self.2 (fun q hq => by simpa using h q hq)
  rw [completeOp, hmine, List.foldl_nil, hrest]

section
variable {t : Fin 64} {h : Fin 8} {s : State} {p : Nat}

/-- The tile whose handle has come to the end of its program. -/
def runOutTile (en : Handle) (h : Nat) (x : Tile) : Tile :=
  setHandle { setHandle x h en with tracks := x.tracks.filter (fun k => decide (k.op ≠ en.opId)) } h (idleHandle en)

/-- The state in which it has come to its end. -/
def runOut (en : Handle) (h : Nat) (s : State) (t : Nat) : State :=
  modTile (modTile s t (fun x => setHandle x h en)) t (fun y => setHandle (completeOp y en.opId) h (idleHandle en))

theorem exec_streamDone (hp : partOfTile s t = some p) :
    let x := getTile s t
    let hd := getHandle x h
    let en := apRun 128 hd
    hd.busy = true → hd.loaded = true → hd.sent = 0 → apOp (en.prog.getD en.ip 0) = 0 → surplusRows en = false → hd.reads = [] → hd.far = [] →
    (∀ r ∈ s.remotes, r.src = t.val → r.handle ≠ some h.val) → (∀ e ∈ x.merge, e.handles.getLsbD h = false) → (∀ q ∈ x.claims, q.op ≠ hd.opId) →
    exec (.streamDone t h) s = .next (addDone (runOut en h s t) t hd.ctx hd.done) := by
  intro x hd en hbusy hload hsent hop hrows hreads hfar hremotes hmerge hclaims
  have hframe : { en with ip := hd.ip, m := hd.m, l := hd.l, loops := hd.loops } = hd := apRun_frame 128 hd
  have hone : getTile (modTile s t (fun x => setHandle x h en)) t = setHandle x h en := (getTile_modTile _ _ _ _).trans (if_pos rfl)
  have hget : getHandle (getTile (modTile s t (fun x => setHandle x h en)) t) h = en := by rw [hone, getHandle_setHandle, if_pos rfl]
  have hflush : flushMerge (modTile s t (fun x => setHandle x h en)) p t (fun e => e.handles.getLsbD h) = modTile s t (fun x => setHandle x h en) :=
    flushMerge_of_none (by rw [hone]; exact hmerge) p
  have hquiet : handleQuiet (modTile s t (fun x => setHandle x h en)) t h = true := by
    unfold handleQuiet
    rw [hget, hone]
    simp only [Bool.and_eq_true, decide_eq_true_iff, List.all_eq_true]
    refine ⟨⟨(congrArg Handle.reads hframe : _).trans hreads, fun r hr => ?_⟩, fun e he => ?_⟩
    · by_cases hsrc : r.src = t.val
      · simp [hremotes r hr hsrc]
      · simp [hsrc]
    · rw [hmerge e he]
      rfl
  have hend : endHandle (modTile s t (fun x => setHandle x h en)) t h = runOut en h s t := by
    rw [endHandle_eq, hget, show en.far = [] from (congrArg Handle.far hframe : _).trans hfar]
    rfl
  show execStreamDone t h s = _
  unfold execStreamDone
  dsimp only
  rw [hp]
  dsimp only
  rw [if_neg, show apRun 128 (getHandle (getTile s t) h) = en from rfl, hrows, if_neg (by decide), hflush, hquiet, if_neg (by decide), hend,
    show en.ctx = hd.ctx from (congrArg Handle.ctx hframe :), show en.done = hd.done from (congrArg Handle.done hframe :)]
  rw [show apRun 128 (getHandle (getTile s t) h) = en from rfl, show en.busy = true from (congrArg Handle.busy hframe : _).trans hbusy,
    show en.loaded = true from (congrArg Handle.loaded hframe : _).trans hload, show en.sent = 0 from (congrArg Handle.sent hframe : _).trans hsent, hop]
  decide

theorem streamDone_spec (hp : partOfTile s t = some p) :
    let x := getTile s t
    let hd := getHandle x h
    let en := apRun 128 hd
    hd.busy = true → hd.loaded = true → hd.sent = 0 → apOp (en.prog.getD en.ip 0) = 0 → surplusRows en = false → hd.reads = [] → hd.far = [] →
    (∀ r ∈ s.remotes, r.src = t.val → r.handle ≠ some h.val) → (∀ e ∈ x.merge, e.handles.getLsbD h = false) → (∀ q ∈ x.claims, q.op ≠ hd.opId) →
    ∃ s', exec (.streamDone t h) s = .next s' ∧ TileAndSignals s s' t (s.sigs ++ lateDone s t hd.ctx hd.done) ∧
      let y := getTile s' t
      (getHandle y h).busy = false ∧ (∀ j, j ≠ h.val → getHandle y j = getHandle x j) ∧ y.spad = x.spad ∧ y.ctx = x.ctx ∧
      ∀ f, getFlag y f = if hd.done = some f ∧ lateDone s t hd.ctx hd.done = [] then getFlag x f + 1 else getFlag x f := by
  intro x hd en hbusy hload hsent hop hrows hreads hfar hremotes hmerge hclaims
  have hopId : en.opId = hd.opId := (congrArg Handle.opId (apRun_frame 128 hd) :)
  have htile : getTile (runOut en h s t) t = runOutTile en h x := by
    rw [runOut, getTile_modTile, if_pos rfl, getTile_modTile, if_pos rfl, completeOp_of_none (by rw [hopId]; exact hclaims)]
    rfl
  have hdone := addDone_frame (runOut en h s t) t hd.ctx hd.done
  have hflags := getTile_addDone_flags (runOut en h s t) t hd.ctx hd.done t
  rw [htile] at hflags
  refine ⟨_, exec_streamDone hp hbusy hload hsent hop hrows hreads hfar hremotes hmerge hclaims, ⟨?_, fun u hu => ?_, addDone_sigs (runOut en h s t) t hd.ctx hd.done⟩, ?_⟩
  · exact (congrArg (fun e : State => { e with tiles := s.tiles, sigs := s.sigs }) hdone :)
  · rw [getTile_addDone_of_ne _ _ _ _ hu, runOut, getTile_modTile, if_neg hu, getTile_modTile, if_neg hu]
  · have hhandle (j : Nat) : getHandle (getTile (addDone (runOut en h s t) t hd.ctx hd.done) t) j = getHandle (runOutTile en h x) j :=
      (congrArg (fun e : Tile => getHandle e j) hflags :)
    refine ⟨?_, fun j hj => ?_, (congrArg Tile.spad hflags :), (congrArg Tile.ctx hflags :), fun f => ?_⟩
    · rw [hhandle, runOutTile, getHandle_setHandle, if_pos rfl]
      rfl
    · rw [hhandle, runOutTile, getHandle_setHandle, if_neg hj]
      exact (getHandle_setHandle x h j en).trans (if_neg hj)
    · rw [getFlag_addDone, htile]
      rfl

end

/-! ## Merge entries, page walks and the combining buffer -/

theorem filter_ne_eq_dropIdx {α β : Type} [DecidableEq β] (f : α → β) : ∀ {l : List α} {i : Nat} {e : α}, (l.map f).Nodup → l[i]? = some e →
    l.filter (fun k => decide (f k ≠ f e)) = dropIdx l i ∧ l.filter (fun k => decide (f k = f e)) = [e] := by
  intro l
  induction l with
  | nil => simp
  | cons a r ih =>
    intro i e hnodup hi
    rw [List.map_cons, List.nodup_cons] at hnodup
    obtain ⟨hnew, hrest⟩ := hnodup
    cases i with
    | zero =>
      obtain rfl : a = e := Option.some.inj hi
      have hne (k : α) (hk : k ∈ r) : f k ≠ f a := fun heq => hnew (heq ▸ List.mem_map_of_mem hk)
      rw [List.filter_cons_of_neg (by simp), List.filter_cons_of_pos (by simp), List.filter_eq_self.2 (fun k hk => by simpa using hne k hk),
        List.filter_eq_nil_iff.2 (fun k hk => by simpa using hne k hk)]
      exact ⟨rfl, rfl⟩
    | succ i =>
      have he : e ∈ r := List.mem_of_getElem? (by simpa using hi)
      have hne : f a ≠ f e := fun heq => hnew (heq ▸ List.mem_map_of_mem he)
      obtain ⟨hdrop, hone⟩ := ih hrest (by simpa using hi)
      rw [List.filter_cons_of_pos (by simpa using hne), List.filter_cons_of_neg (by simpa using hne), hdrop, hone]
      exact ⟨rfl, rfl⟩

/-- Enabled bytes that are put into a store. -/
theorem smGet_putOpt (l : List (Option Byte)) (m : SMap 8) (a b : Nat) :
    smGet (putOpt m a l) b = if a ≤ b then ((l[b - a]?.getD none).getD (smGet m b)) else smGet m b := by
  induction l generalizing m a with
  | nil => simp [putOpt]
  | cons o r ih =>
    by_cases hb : b = a
    · subst hb
      cases o <;> simp [putOpt, ih]
    · have hstep (m' : SMap 8) (hm : smGet m' b = smGet m b) : (if a + 1 ≤ b then ((r[b - (a + 1)]?.getD none).getD (smGet m' b)) else smGet m' b) =
          if a ≤ b then (((o :: r)[b - a]?.getD none).getD (smGet m b)) else smGet m b := by
        rw [hm]
        by_cases hlt : a + 1 ≤ b
        · rw [if_pos hlt, if_pos (by omega), show b - a = b - (a + 1) + 1 by omega, List.getElem?_cons_succ]
        · rw [if_neg hlt, if_neg (by omega)]
      cases o with
      | none => exact (ih m (a + 1)).trans (hstep m rfl)
      | some v => exact (ih (smSet m a v) (a + 1)).trans (hstep _ (smGet_smSet_other m v hb))

/-- What a merge entry writes: the bytes that its mask enables. -/
theorem smGet_entryBytes (m : SMap 8) (e : MergeEntry) (a : Nat) :
    smGet (putOpt m (e.granule * 64) ((List.range 64).map (fun i => if e.mask.getLsbD i then some (smGet e.bytes i) else none))) a =
      if e.granule * 64 ≤ a ∧ a < e.granule * 64 + 64 ∧ e.mask.getLsbD (a - e.granule * 64) then smGet e.bytes (a - e.granule * 64) else smGet m a := by
  rw [smGet_putOpt]
  by_cases hlow : e.granule * 64 ≤ a
  · by_cases hhigh : a < e.granule * 64 + 64
    · have hget : (List.range 64)[a - e.granule * 64]? = some (a - e.granule * 64) := List.getElem?_range (by omega)
      rw [if_pos hlow, List.getElem?_map, hget, Option.map_some, Option.getD_some]
      by_cases hmask : e.mask.getLsbD (a - e.granule * 64) = true
      · rw [if_pos hmask, if_pos ⟨hlow, hhigh, hmask⟩, Option.getD_some]
      · rw [if_neg hmask, if_neg (fun h => hmask h.2.2), Option.getD_none]
    · rw [if_pos hlow, if_neg (fun h => hhigh h.2.1), List.getElem?_eq_none (by simp; omega)]
      rfl
  · rw [if_neg hlow, if_neg (fun h => hlow h.1)]

theorem getPart_modPart_of_ne {s : State} {p q : Nat} (h : q ≠ p) (f : Part → Part) : getPart? (modPart s p f) q = getPart? s q := by
  unfold modPart
  split
  · rfl
  · rw [getPart_setPart, if_neg h]

theorem getPart_modPart_self {s : State} {p : Nat} {x : Part} (h : getPart? s p = some x) (f : Part → Part) : getPart? (modPart s p f) p = some (f x) := by
  rw [modPart_of_some h, getPart_setPart, if_pos rfl]

section
variable {s : State} {p : Nat} {part : Part}

theorem getPart_chargeCredit_of_ne (s : State) (c : RegClass) (n : Nat) {q : Nat} (hq : q ≠ p) : getPart? (chargeCredit s p c n) q = getPart? s q := by
  cases c
  case newt => rfl
  all_goals exact getPart_modPart_of_ne hq _

theorem mem_chargeCredit (hpart : getPart? s p = some part) (c : RegClass) (n : Nat) : ∃ part', getPart? (chargeCredit s p c n) p = some part' ∧ part'.mem = part.mem := by
  cases c
  case newt => exact ⟨part, hpart, rfl⟩
  all_goals exact ⟨_, getPart_modPart_self hpart _, rfl⟩

theorem memWrite_eq (hpart : getPart? s p = some part) (c : RegClass) (alloc : Bool) (l : List (Nat × Nat)) (b : List (Option Byte)) :
    ∃ iod : Iod, memWrite s p c alloc l b = chargeCredit { modPart s p (fun x => partCtrOf { x with mem := putChunks x.mem l b } 0x120 (b.filter Option.isSome).length) with iod := iod } p c
      (2 * (b.filter Option.isSome).length) := by
  unfold memWrite
  rw [hpart]
  exact ⟨_, rfl⟩

/-- A write to a partition's memory changes partitions and the memory's caches only. -/
theorem memWrite_frame (hpart : getPart? s p = some part) (c : RegClass) (alloc : Bool) (l : List (Nat × Nat)) (b : List (Option Byte)) :
    { memWrite s p c alloc l b with parts := s.parts, iod := s.iod } = s := by
  obtain ⟨iod, heq⟩ := memWrite_eq hpart c alloc l b
  rw [heq]
  refine (congrArg (fun e : State => { e with parts := s.parts, iod := s.iod }) (chargeCredit_frame { modPart s p _ with iod := iod } p c _) : _).trans ?_
  exact congrArg (fun e : State => { e with iod := s.iod }) (modPart_frame s p _)

theorem getTile_memWrite (hpart : getPart? s p = some part) (c : RegClass) (alloc : Bool) (l : List (Nat × Nat)) (b : List (Option Byte)) (u : Nat) :
    getTile (memWrite s p c alloc l b) u = getTile s u := (congrArg (fun e : State => getTile e u) (memWrite_frame hpart c alloc l b) :)

theorem getPart_memWrite_of_ne (hpart : getPart? s p = some part) (c : RegClass) (alloc : Bool) (l : List (Nat × Nat)) (b : List (Option Byte)) {q : Nat} (hq : q ≠ p) :
    getPart? (memWrite s p c alloc l b) q = getPart? s q := by
  obtain ⟨iod, heq⟩ := memWrite_eq hpart c alloc l b
  rw [heq, getPart_chargeCredit_of_ne _ c _ hq]
  exact getPart_modPart_of_ne (s := s) hq _

theorem mem_memWrite (hpart : getPart? s p = some part) (c : RegClass) (alloc : Bool) (l : List (Nat × Nat)) (b : List (Option Byte)) :
    ∃ part', getPart? (memWrite s p c alloc l b) p = some part' ∧ part'.mem = putChunks part.mem l b := by
  obtain ⟨iod, heq⟩ := memWrite_eq hpart c alloc l b
  generalize hf : (fun x : Part => partCtrOf { x with mem := putChunks x.mem l b } 0x120 (b.filter Option.isSome).length) = f at heq
  obtain ⟨part', hpart', hmem⟩ := mem_chargeCredit (s := { modPart s p f with iod := iod }) (getPart_modPart_self hpart f) c (2 * (b.filter Option.isSome).length)
  exact ⟨part', by rw [heq]; exact hpart', hmem.trans (hf ▸ rfl)⟩

end

theorem mergeEntryTimeout_spec {t : Fin 64} {i : Nat} {s : State} {e : MergeEntry} {p : Nat} {part : Part} (he : (getTile s t).merge[i]? = some e)
    (hp : partOfTile s t = some p) (hpart : getPart? s p = some part) (hnodup : ((getTile s t).merge.map (·.granule)).Nodup) :
    (part.creditWr < 0 → exec (.mergeEntryTimeout t i) s = .next (setPart s p { part with waitWr := true })) ∧
    (0 ≤ part.creditWr →
      ∃ s', exec (.mergeEntryTimeout t i) s = .next s' ∧ (getTile s' t).merge = dropIdx (getTile s t).merge i ∧ (getTile s' t).spad = (getTile s t).spad ∧
        (∀ q, q ≠ p → getPart? s' q = getPart? s q) ∧
        ∃ part', getPart? s' p = some part' ∧
          ∀ a, smGet part'.mem a =
            if e.granule * 64 ≤ a ∧ a < e.granule * 64 + 64 ∧ e.mask.getLsbD (a - e.granule * 64) then smGet e.bytes (a - e.granule * 64) else smGet part.mem a) := by
  obtain ⟨hdrop, hone⟩ := filter_ne_eq_dropIdx MergeEntry.granule hnodup he
  have hexec : exec (.mergeEntryTimeout t i) s = .next (if creditOk s p .wr then
      flushEntry (modTile s t (fun x => { x with merge := x.merge.filter (fun k => decide (k.granule ≠ e.granule)) })) p e else waitCredit s p .wr) := by
    show execMergeEntryTimeout t i s = _
    unfold execMergeEntryTimeout
    rw [he, hp]
    dsimp only
    rw [flushMerge, hone]
    rfl
  have hok : creditOk s p .wr = decide (0 ≤ part.creditWr) := by
    unfold creditOk
    rw [hpart]
    rfl
  refine ⟨fun hcredit => ?_, fun hcredit => ?_⟩
  · rw [hexec, hok, if_neg (by simpa using hcredit), waitCredit, modPart_of_some hpart]
  · rw [hok, if_pos (decide_eq_true hcredit)] at hexec
    have hpart1 : getPart? (modTile s t (fun x => { x with merge := x.merge.filter (fun k => decide (k.granule ≠ e.granule)) })) p = some part := hpart
    obtain ⟨part', hpart', hmem⟩ := mem_memWrite hpart1 .wr false [(e.granule * 64, 64)] ((List.range 64).map (fun i => if e.mask.getLsbD i then some (smGet e.bytes i) else none))
    have htile : getTile (flushEntry (modTile s t (fun x => { x with merge := x.merge.filter (fun k => decide (k.granule ≠ e.granule)) })) p e) t =
        { getTile s t with merge := (getTile s t).merge.filter (fun k => decide (k.granule ≠ e.granule)) } := by
      rw [flushEntry, getTile_memWrite hpart1 .wr, getTile_modTile, if_pos rfl]
    refine ⟨_, hexec, (congrArg Tile.merge htile : _).trans hdrop, (congrArg Tile.spad htile :), fun q hq => getPart_memWrite_of_ne hpart1 .wr _ _ _ hq, part', hpart', fun a => ?_⟩
    rw [hmem]
    refine Eq.trans ?_ (smGet_entryBytes part.mem e a)
    show smGet (putOpt part.mem (e.granule * 64) (List.take 64 _)) a = _
    rw [List.take_of_length_le (by simp)]

theorem pageWalkDone_spec {t : Fin 64} {h : Fin 8} {s : State} {q : Nat × Nat} (hq : (getHandle (getTile s t) h).walking = some q) :
    ∃ s', exec (.pageWalkDone t h) s = .next s' ∧ TileOnly s s' t ∧ (getHandle (getTile s' t) h).walking = none ∧
      (getTile s' t).xlate = (if 64 ≤ (getTile s t).xlate.length then (getTile s t).xlate.drop 1 ++ [q] else (getTile s t).xlate ++ [q]) ∧
      (getTile s' t).spad = (getTile s t).spad := by
  refine ⟨_, rfl, tileOnly_modTile _ _ _, ?_⟩
  rw [getTile_modTile, if_pos rfl]
  dsimp only
  rw [hq]
  refine ⟨?_, ?_, rfl⟩
  · exact congrArg Handle.walking ((getHandle_setHandle (getTile s t) h h _).trans (if_pos rfl))
  · dsimp only
    by_cases hfull : 64 ≤ (getTile s t).xlate.length
    · rw [if_pos (by rw [List.length_append]; exact Nat.lt_succ_of_le hfull), if_pos hfull, List.drop_append_of_le_length (by omega)]
    · rw [if_neg (by rw [List.length_append]; simpa using hfull), if_neg hfull]

/-- Settles O20: each event by the tile or the memory that it leaves. -/
theorem streamEvents : Obligations.StreamEvents := by
  unfold Obligations.StreamEvents
  exact ⟨fun t h i s p part q hp hpart => streamReadLand_spec hp hpart, fun t h s p hp => streamDone_spec hp,
    fun t i s e p part he hp hpart hnodup => mergeEntryTimeout_spec he hp hpart hnodup, fun t h s q hq => pageWalkDone_spec hq, fun stripe s => rfl⟩

end Sys2Proof.Machine
end

section
/-! SUPPORT. Commands of the rings: their decode, the gate, the firmware queue and the express commands (R295-R321). -/

namespace Sys2Proof.Machine

open Sys2Proof

/-! ## Completions touch rings only -/

/-- From `s` to `s'` only rings differ, the module's own and those it has adopted. -/
def RingsOnly (s s' : State) : Prop := { s' with rings := s.rings, pair := { s'.pair with adopted := s.pair.adopted } } = s

theorem RingsOnly.refl (s : State) : RingsOnly s s := rfl

theorem RingsOnly.trans {s s1 s2 : State} (h : RingsOnly s s1) (k : RingsOnly s1 s2) : RingsOnly s s2 := by
  unfold RingsOnly at *
  rw [← h, ← k]

theorem RingsOnly.mirroring {s s' : State} (h : RingsOnly s s') : mirroring s' = mirroring s := (congrArg Machine.mirroring h :)

theorem ringsOnly_modRing (s : State) (r : Nat) (f : Ring → Ring) : RingsOnly s (modRing s r f) := by
  unfold modRing
  split <;> rfl

theorem sendDelta_of_alone {s : State} (h : mirroring s = false) (d : Delta) : sendDelta s d = (s, none) := by
  rw [sendDelta, h, if_neg (by decide)]

theorem mirror_of_alone {s : State} (h : mirroring s = false) (d : Delta) : mirror s d = s := congrArg Prod.fst (sendDelta_of_alone h d)

theorem enqueueCpl_of_alone {s : State} (h : mirroring s = false) (r : Nat) (c : Completion) :
    enqueueCpl s r c = modRing s r (fun x => { x with waiting := x.waiting ++ [(c, none)] }) := by
  unfold enqueueCpl
  dsimp only
  rw [sendDelta_of_alone h]

theorem ringsOnly_enqueueCpl {s : State} (h : mirroring s = false) (r : Nat) (c : Completion) : RingsOnly s (enqueueCpl s r c) := by
  rw [enqueueCpl_of_alone h]
  exact ringsOnly_modRing ..

theorem ringsOnly_postCpl {s : State} (h : mirroring s = false) (r : Nat) (p : Packet) (status : BitVec 16) (final event : Bool) (detail : BitVec 4) (result : BitVec 128) :
    RingsOnly s (postCpl s r p status final event detail result) := ringsOnly_enqueueCpl h _ _

theorem ringsOnly_foldl_postCpl (l : List (Packet × List (BitVec 32))) (r : Nat) {s : State} (h : mirroring s = false) :
    RingsOnly s (l.foldl (fun s q => postCpl s r q.1 stOK true false 0 0) s) := by
  induction l generalizing s with
  | nil => rfl
  | cons q l ih =>
    have hpost := ringsOnly_postCpl h r q.1 stOK true false 0 0
    exact hpost.trans (ih (hpost.mirroring.trans h))

theorem ringsOnly_settleNops {s : State} (h : mirroring s = false) (r : Nat) : RingsOnly s (settleNops s r) := by
  have hmod := ringsOnly_modRing s r (fun x => { x with nops := x.nops.filter (fun q => q.2 ≠ []) })
  exact hmod.trans (ringsOnly_foldl_postCpl _ r (hmod.mirroring.trans h))

theorem ringsOnly_commandDone {s : State} (h : mirroring s = false) (r : Nat) (seq : BitVec 32) : RingsOnly s (commandDone s r seq) := by
  have hmod := ringsOnly_modRing s r (fun x => { x with outstanding := x.outstanding.erase seq, nops := x.nops.map (fun q => (q.1, q.2.erase seq)) })
  exact hmod.trans (ringsOnly_settleNops (hmod.mirroring.trans h) r)

theorem ringsOnly_finish {s : State} (h : mirroring s = false) (r : Nat) (p : Packet) (status : BitVec 16) (result : BitVec 128) : RingsOnly s (finish s r p status result) := by
  have hpost := ringsOnly_postCpl h r p status true false 0 result
  exact hpost.trans (ringsOnly_commandDone (hpost.mirroring.trans h) r p.seq)

/-! ## Decode -/

theorem decoded_eq {s : State} {ring : Nat} (h : ring < 8192) : decoded s ring =
    { s with rings := tabModify s.rings ring {} (fun x => { x with head := x.head + 1, count := x.count + 1, live := x.live.drop 1 }),
             mod := { s.mod with lastRing := ring } } := by
  rw [decoded, modRing_of_lt h]

theorem getRing_decoded (s : State) (ring r : Nat) :
    getRing (decoded s ring) r = if r = ring then { getRing s ring with head := (getRing s ring).head + 1, count := (getRing s ring).count + 1, live := (getRing s ring).live.drop 1 }
      else getRing s r := getRing_modRing s ring r _

theorem mirroring_decoded (s : State) (ring : Nat) : mirroring (decoded s ring) = mirroring s := (ringsOnly_modRing s ring _).mirroring

/-- The order in which a decode writes its ring and the ring served last does not matter. -/
theorem modRing_lastRing (s : State) {ring : Nat} (h : ring < 8192) :
    modRing { s with mod := { s.mod with lastRing := ring } } ring (fun x => { x with head := x.head + 1, count := x.count + 1, live := x.live.drop 1 }) = decoded s ring := by
  rw [modRing_of_lt h, decoded_eq h]

/-- A command that can be decoded is turned away by its gate, or goes to its partner or into effect (R302, R375). -/
theorem decodeCmd_of_canDecode {s : State} {ring : Nat} {op : BitVec 8} {p : Packet} (h : canDecode s ring op p = true) (hring : ring < 8192) (input : FwInput) :
    decodeCmd s ring op p input = match gate (decoded s ring) ring op.toNat p with
      | some (st, v) => .next (finish (decoded s ring) ring p st (BitVec.ofNat 128 v))
      | none => match sendDelta (decoded s ring) (.command ring op p (getRing s ring).head) with
        | (s, none) => .next (carryOut s { ring := ring, opcode := op, p := p, input := input })
        | (s, some n) => .next { s with pair := { s.pair with held := s.pair.held ++ [(n, { ring := ring, opcode := op, p := p, input := input })] } } := by
  unfold decodeCmd
  rw [h]
  dsimp only
  rw [if_neg (by decide), modRing_lastRing s hring] <;> rfl

theorem canDecode_of {s : State} {ring : Nat} {op : BitVec 8} {p : Packet} (hring : ring < 8192) (hready : s.ready = true) (hdev : s.pwr.dev = 0)
    (hon : bit (getRing s ring).cfg 63 = true) (hsub : bit (getRing s ring).cfg 62 = false) (hhead : (getRing s ring).live.head? = some (packetBits op p))
    (hroom : cplRoom s ring p = true) (hfree : handleWaits s ring op.toNat p = false) (hturn : ringTurn s ring = true) : canDecode s ring op p = true := by
  have hup : deviceUp s = true := Bool.and_eq_true_iff.2 ⟨hready, decide_eq_true hdev⟩
  have hwaits : (!handleWaits s ring op.toNat p) = true := by rw [hfree]; rfl
  have hnotCpl : (!ringIsCpl (getRing s ring)) = true := by rw [ringIsCpl, hsub]; rfl
  unfold canDecode
  exact Bool.and_eq_true_iff.2 ⟨Bool.and_eq_true_iff.2 ⟨Bool.and_eq_true_iff.2 ⟨Bool.and_eq_true_iff.2 ⟨Bool.and_eq_true_iff.2 ⟨Bool.and_eq_true_iff.2
    ⟨Bool.and_eq_true_iff.2 ⟨decide_eq_true hring, hup⟩, hon⟩, hnotCpl⟩, decide_eq_true hhead⟩, hroom⟩, hwaits⟩, hturn⟩

theorem Decodable.decodeCmd {s : State} {ring : Nat} {op : BitVec 8} {p : Packet} (h : Decodable s ring op p) (input : FwInput) :
    decodeCmd s ring op p input = match gate (decoded s ring) ring op.toNat p with
      | some (st, v) => .next (finish (decoded s ring) ring p st (BitVec.ofNat 128 v))
      | none => .next (carryOut (decoded s ring) { ring := ring, opcode := op, p := p, input := input }) := by
  obtain ⟨hring, ⟨hready, hdev⟩, ⟨hon, hsub⟩, hhead, hroom, hturn, hfree, halone⟩ := h
  rw [decodeCmd_of_canDecode (canDecode_of hring hready hdev hon hsub hhead hroom hfree hturn) hring, sendDelta_of_alone ((mirroring_decoded s ring).trans halone)]

theorem exec_expressRow (ring : Nat) (p : Packet) (s : State) : ∀ q ∈ expressRows ring p, exec q.1 s = decodeCmd s ring q.2 p .none := by
  simp only [expressRows, List.forall_mem_cons]
  exact ⟨rfl, rfl, rfl, rfl, List.forall_mem_nil _⟩

section firmwareRows
variable (ring : Nat) (p : Packet) (rd : ImageRead) (hostOk : Bool) (list : Option MemberList) (b : BindInput) (mask : BitVec 8) (img : Option FwImage) (newOk partnerOk : Bool)

theorem exec_firmwareRow (s : State) : ∀ q ∈ firmwareRows ring p rd hostOk list b mask img newOk partnerOk, exec q.1 s = decodeCmd s ring q.2.1 p q.2.2 := by
  simp only [firmwareRows, List.forall_mem_cons]
  exact ⟨rfl, rfl, rfl, rfl, rfl, rfl, rfl, rfl, rfl, rfl, rfl, rfl, rfl, rfl, rfl, rfl, rfl, rfl, rfl, rfl, rfl, rfl, rfl, rfl, List.forall_mem_nil _⟩

theorem express_firmwareRow : ∀ q ∈ firmwareRows ring p rd hostOk list b mask img newOk partnerOk, express q.2.1.toNat = false := by
  simp only [firmwareRows, List.forall_mem_cons]
  exact ⟨rfl, rfl, rfl, rfl, rfl, rfl, rfl, rfl, rfl, rfl, rfl, rfl, rfl, rfl, rfl, rfl, rfl, rfl, rfl, rfl, rfl, rfl, rfl, rfl, List.forall_mem_nil _⟩

end firmwareRows

/-- Settles O22: what the gate answers is the command's completion. -/
theorem commandsTurnedAway : Obligations.CommandsTurnedAway := by
  unfold Obligations.CommandsTurnedAway
  intro s ring p rd hostOk list b mask img newOk partnerOk
  refine ⟨fun q hq st v h hgate => ?_, fun op h hlisted => ?_⟩
  · have hexec : ∃ input, exec q.1 s = decodeCmd s ring q.2 p input := by
      obtain hq | hq := List.mem_append.1 hq
      · exact ⟨_, exec_expressRow ring p s q hq⟩
      · obtain ⟨row, hrow, rfl⟩ := List.mem_map.1 hq
        exact ⟨_, exec_firmwareRow ring p rd hostOk list b mask img newOk partnerOk s row hrow⟩
    obtain ⟨input, hexec⟩ := hexec
    rw [hexec, h.decodeCmd, hgate]
  · have hgate : gate (decoded s ring) ring op.toNat p = some (stBAD_OPCODE, 0) := by
      unfold gate
      dsimp only
      rw [hlisted]
      rfl
    show execUnknownOpcodeCommand ring op p s = _
    rw [execUnknownOpcodeCommand, hlisted, if_neg (by decide), h.decodeCmd, hgate]
    rfl

/-- A command that is not express joins the firmware queue, or is turned away when it is full (R318, R320). -/
theorem carryOut_of_not_express {s : State} {c : FwCmd} (h : express c.opcode.toNat = false) :
    carryOut s c = if s.fwLimit.toNat ≤ s.fwQueue.length then finish s c.ring c.p stBUSY 0
      else modRing { s with fwQueue := s.fwQueue ++ [c] } c.ring (fun x => { x with outstanding := x.outstanding ++ [c.p.seq] }) := by
  unfold carryOut
  split
  next hop => rw [hop] at h; exact absurd h (by decide)
  next hop => rw [hop] at h; exact absurd h (by decide)
  next hop => rw [hop] at h; exact absurd h (by decide)
  next hop => rw [hop] at h; exact absurd h (by decide)
  next => rfl

/-- The queued command's SEQ is outstanding at its ring. -/
theorem getRing_queued {s : State} {ring : Nat} {c : FwCmd} (r : Nat) :
    getRing (modRing { decoded s ring with fwQueue := (decoded s ring).fwQueue ++ [c] } ring (fun x => { x with outstanding := x.outstanding ++ [c.p.seq] })) r =
      if r = ring then { getRing s ring with head := (getRing s ring).head + 1, count := (getRing s ring).count + 1, live := (getRing s ring).live.drop 1,
                                             outstanding := (getRing s ring).outstanding ++ [c.p.seq] }
      else getRing s r := by
  have hdecoded (m : Nat) : getRing { decoded s ring with fwQueue := (decoded s ring).fwQueue ++ [c] } m = _ := getRing_decoded s ring m
  rw [getRing_modRing, hdecoded, hdecoded]
  by_cases hr : r = ring
  · simp only [if_pos hr, if_true]
  · simp only [if_neg hr]

/-- Settles O23: the firmware queue by its room, a mirroring pair by the delta that it sends. -/
theorem commandsAreQueued : Obligations.CommandsAreQueued := by
  unfold Obligations.CommandsAreQueued
  refine ⟨fun s ring p rd hostOk list b mask img newOk partnerOk q hq h hgate => ?_, fun s ring p q hq hring hready hdev hon hsub hhead hroom hfree hturn hpair hgate => ?_⟩
  · have hring := h.inRange
    have hexec : exec q.1 s = .next (if s.fwLimit.toNat ≤ s.fwQueue.length then finish (decoded s ring) ring p stBUSY 0
        else modRing { decoded s ring with fwQueue := (decoded s ring).fwQueue ++ [{ ring := ring, opcode := q.2.1, p := p, input := q.2.2 }] } ring
          (fun x => { x with outstanding := x.outstanding ++ [p.seq] })) := by
      rw [exec_firmwareRow ring p rd hostOk list b mask img newOk partnerOk s q hq, h.decodeCmd, hgate]
      dsimp only
      rw [carryOut_of_not_express (express_firmwareRow ring p rd hostOk list b mask img newOk partnerOk q hq), decoded_eq hring]
    refine ⟨fun hlt => ?_, fun hfull => ?_⟩
    · rw [if_neg (by omega)] at hexec
      refine ⟨_, hexec, ?_, ?_, ?_, fun r hr => (getRing_queued r).trans (if_neg hr), (getRing_queued ring).trans (if_pos rfl)⟩
      · rw [decoded_eq hring, modRing_of_lt hring]
      · rw [decoded_eq hring, modRing_of_lt hring]
      · rw [decoded_eq hring, modRing_of_lt hring]
    · rw [hexec, if_pos hfull]
      rfl
  · have hsend : sendDelta (decoded s ring) (.command ring q.2 p (getRing s ring).head) =
        (emit { decoded s ring with pair := { s.pair with nextDelta := s.pair.nextDelta + 1, sent := s.pair.sent ++ [(s.pair.nextDelta, .command ring q.2 p (getRing s ring).head)] } }
          (.delta s.pair.nextDelta (.command ring q.2 p (getRing s ring).head)), some s.pair.nextDelta) := by
      unfold sendDelta
      rw [mirroring_decoded, mirroring, hpair, decoded_eq hring]
      rfl
    rw [exec_expressRow ring p s q hq, decodeCmd_of_canDecode (canDecode_of hring hready hdev hon hsub hhead hroom hfree hturn) hring, hgate]
    dsimp only
    rw [hsend]
    rw [decoded_eq hring]
    exact ⟨_, rfl, rfl, rfl, rfl, rfl, rfl⟩

end Sys2Proof.Machine
end

section
/-! SUPPORT. The commands that take effect at once: SUBMIT_PROMPT, CANCEL, SET_PRIORITY and NOP (R8, R19, R235, R237, R247, R313, R321). -/

namespace Sys2Proof.Machine

open Sys2Proof

/-! ## A partition that runs a steep composes nothing -/

theorem idleCompose_of_running {s : State} {n : Nat} {x : Part} (h : getPart? s n = some x) (hphase : x.phase ≠ .none) : idleCompose s n = s := by
  unfold idleCompose idleLoop
  rw [h]
  dsimp only
  rw [if_neg (by simp [hphase])]

/-! ## The partition of a ring -/

/-- A partition found by its rings is still found once its own record has changed elsewhere. -/
theorem find_fst_tabInsert {α : Type} (f : α → Bool) {n : Nat} {x y : α} (hfx : f y = f x) (t : List (Nat × α)) (hx : tabGet? n t = some x)
    (hn : (t.find? (fun q => f q.2)).map Prod.fst = some n) : ((tabInsert n y t).find? (fun q => f q.2)).map Prod.fst = some n := by
  induction t with
  | nil => cases hx
  | cons q r ih =>
    obtain ⟨k, v⟩ := q
    rw [tabInsert]
    split
    · rw [List.find?_cons]
      cases f y
      · exact hn
      · rfl
    · next hlt =>
      split
      · next heq =>
        subst heq
        rw [tabGet?, if_pos rfl] at hx
        obtain rfl := Option.some.inj hx
        rw [List.find?_cons] at hn ⊢
        dsimp only at hn ⊢
        rw [hfx]
        cases hf : f v
        · rw [hf] at hn
          exact hn
        · rfl
      · next hne =>
        rw [tabGet?, if_neg hne] at hx
        rw [List.find?_cons] at hn ⊢
        dsimp only at hn ⊢
        cases hf : f v
        · rw [hf] at hn
          exact ih hx hn
        · rw [hf] at hn
          exact absurd (Option.some.inj hn).symm hne

theorem ringPart_of_partNo {s : State} {ring : Nat} (h : partNo s ring < 64) : ringPart s ring = some (partNo s ring) := by
  unfold partNo at h ⊢
  cases hr : ringPart s ring with
  | none => rw [hr] at h; exact absurd h (by decide)
  | some n => rfl

theorem ringPart_setPart {s : State} {ring n : Nat} {x y : Part} (hn : ringPart s ring = some n) (hx : getPart? s n = some x) (hbase : y.ringBase = x.ringBase)
    (hquota : y.ringQuota = x.ringQuota) : ringPart (setPart s n y) ring = some n := by
  unfold ringPart at hn ⊢
  dsimp only at hn ⊢
  split at hn
  · cases hn
  · next hr =>
    rw [if_neg hr]
    exact find_fst_tabInsert (fun z : Part => decide (z.ringBase ≤ ring % 8192) && decide (ring % 8192 < z.ringBase + z.ringQuota)) (by rw [hbase, hquota]) s.parts hx hn

/-- A record of the ring's partition that keeps its ring range keeps the ring's completion ring (R296). -/
theorem cplRing_setPart {s : State} {ring n : Nat} {x y : Part} (hn : ringPart s ring = some n) (hx : getPart? s n = some x) (hbase : y.ringBase = x.ringBase)
    (hquota : y.ringQuota = x.ringQuota) (hring : ring < 8192) (cls : Nat) : cplRing (setPart s n y) ring cls = cplRing s ring cls := by
  have horigin : ringOrigin (setPart s n y) ring = ringOrigin s ring := by
    unfold ringOrigin
    rw [hn, ringPart_setPart hn hx hbase hquota]
    dsimp only
    rw [getPart_setPart, if_pos rfl, hx]
    exact hbase
  unfold cplRing
  rw [if_pos hring, if_pos hring, horigin]
  rfl

theorem cplRing_setEntry (s : State) (i : Nat) (e : Entry) (r cls : Nat) : cplRing (setEntry s i e) r cls = cplRing s r cls := by
  have horigin (m : Nat) : ringOrigin (setEntry s i e) m = ringOrigin s m := rfl
  have hget : getRing (setEntry s i e) r = getRing s r := rfl
  unfold cplRing
  rw [hget, horigin, horigin]

/-! ## SUBMIT_PROMPT -/

/-- The entry of an admitted request (R231, R237). -/
def admittedEntry (f : ReqFields) : Entry := { entryFrom .queued f false true with late := if f.delay = 1 then some 1 else none }

/-- The state once a request of `f` stands in the table of partition `n`. -/
def admitted (s : State) (n i : Nat) (x : Part) (f : ReqFields) : State := setPart (setEntry s i (admittedEntry f)) n { x with stir := true }

/-- The state once a request has entered the table of a partition that runs a steep. -/
theorem admitRequest_of_running {s : State} {n i : Nat} {x : Part} {f : ReqFields} (halone : mirroring s = false) (hf : f.partition.toNat = n) (hx : getPart? s n = some x)
    (hphase : x.phase ≠ .none) : admitRequest s i f =
      postCpl (admitted s n i x f) (reqRing (admittedEntry f)) (reqPacket f) stACCEPTED false false 0 (BitVec.ofNat 128 (resAt 16 i + resAt 20 f.admitAt.toNat)) := by
  have hstir : stirPart (setEntry s i (admittedEntry f)) n = admitted s n i x f := modPart_of_some (s := setEntry s i (admittedEntry f)) hx _
  have hpost := ringsOnly_postCpl (s := admitted s n i x f) halone (reqRing (admittedEntry f)) (reqPacket f) stACCEPTED false false 0
    (BitVec.ofNat 128 (resAt 16 i + resAt 20 f.admitAt.toNat))
  have hpart : getPart? (admitted s n i x f) n = some { x with stir := true } := (getPart_setPart _ _ _ _).trans (if_pos rfl)
  unfold admitRequest
  rw [halone, hf]
  show idleCompose (postReq (stirPart (setEntryM s i (admittedEntry f)) n) (admittedEntry f) stACCEPTED false false 0 _) n = _
  rw [setEntryM, mirror_of_alone (s := setEntry s i (admittedEntry f)) halone, hstir]
  exact idleCompose_of_running ((congrArg (fun q : State => getPart? q n) hpost : _).trans hpart) hphase

theorem packet_tenant_lt (p : Packet) : p.tenant < 4096 := Nat.mod_lt _ (by decide)
theorem packet_cls_lt (p : Packet) : p.cls < 16 := by
  have := p.tenantClass.isLt
  unfold Packet.cls
  omega

theorem cls_reqPacket (f : ReqFields) : (reqPacket f).cls = f.cls.toNat := by
  have hcls := f.cls.isLt
  have htenant := f.tenant.isLt
  show (BitVec.ofNat 16 (f.cls.toNat * 4096 + f.tenant.toNat)).toNat / 4096 = _
  rw [BitVec.toNat_ofNat]
  omega

theorem getRing_postCpl_of_alone {s : State} (h : mirroring s = false) (r : Nat) (p : Packet) (status : BitVec 16) (final event : Bool) (detail : BitVec 4) (result : BitVec 128) :
    (getRing (postCpl s r p status final event detail result) (cplRing s r p.cls)).waiting = (getRing s (cplRing s r p.cls)).waiting ++
      [({ seq := p.seq, status := status, final := final, event := event, degraded := degraded s, detail := detail, handle := p.handle, result := result, int := p.int && final }, none)] := by
  rw [postCpl, enqueueCpl_of_alone h, getRing_modRing, if_pos rfl]

/-- Settles O24: the entry's fields are the packet's, and a partition that runs a steep composes nothing. -/
theorem submissionsAreAdmitted : Obligations.SubmissionsAreAdmitted := by
  unfold Obligations.SubmissionsAreAdmitted
  intro s ring p x img i s1 n hdec hgate hx hleader himg hphase hres hchecks hfree hn
  have hring := hdec.inRange
  have halone : mirroring s1 = false := (mirroring_decoded s ring).trans hdec.alone
  have hpart : ringPart s1 ring = some n := ringPart_of_partNo hn
  have hexec : exec (.submitPrompt ring p) s = .next (doSubmit s1 ring p) := by
    show decodeCmd s ring 0x01 p .none = _
    rw [hdec.decodeCmd, show gate (decoded s ring) ring (0x01 : BitVec 8).toNat p = none from hgate]
    rfl
  have hsubmit : doSubmit s1 ring p = admitRequest s1 i (submitFields s1 n ring x img p) := by
    unfold doSubmit
    dsimp only
    rw [hx]
    dsimp only
    rw [hleader, if_neg (by decide), hres]
    dsimp only
    rw [himg]
    dsimp only
    rw [hchecks]
    dsimp only
    rw [hfree]
  have hpartition : (submitFields s1 n ring x img p).partition.toNat = n := Nat.mod_eq_of_lt hn
  have htoNat {w k : Nat} (hk : k < 2 ^ w) : (BitVec.ofNat w k).toNat = k := Nat.mod_eq_of_lt hk
  have hreqRing : (submitFields s1 n ring x img p).ring.toNat = ring := htoNat hring
  have hcls : (reqPacket (submitFields s1 n ring x img p)).cls = p.cls := (cls_reqPacket _).trans (htoNat (packet_cls_lt p))
  have hdecoded : s1.table = s.table ∧ s1.parts = s.parts ∧ s1.tiles = s.tiles ∧ s1.pwr = s.pwr := by
    rw [show s1 = _ from decoded_eq hring]
    exact ⟨rfl, rfl, rfl, rfl⟩
  obtain ⟨htable, hpartsEq, htiles, hpwr⟩ := hdecoded
  clear_value n s1
  rw [hsubmit, admitRequest_of_running halone hpartition hx hphase] at hexec
  generalize hf : submitFields s1 n ring x img p = f at hexec hpartition hreqRing hcls
  have hreq : reqRing (admittedEntry f) = ring := hreqRing
  have hcpl : cplRing (admitted s1 n i x f) (reqRing (admittedEntry f)) (reqPacket f).cls = cplRing s1 ring p.cls := by
    rw [hreq, hcls]
    exact (cplRing_setPart (s := setEntry s1 i (admittedEntry f)) (y := { x with stir := true }) hpart hx rfl rfl hring p.cls).trans (cplRing_setEntry ..)
  have hpost := ringsOnly_postCpl (s := admitted s1 n i x f) halone (reqRing (admittedEntry f)) (reqPacket f) stACCEPTED false false 0
    (BitVec.ofNat 128 (resAt 16 i + resAt 20 f.admitAt.toNat))
  have hwaiting := getRing_postCpl_of_alone (s := admitted s1 n i x f) halone (reqRing (admittedEntry f)) (reqPacket f) stACCEPTED false false 0
    (BitVec.ofNat 128 (resAt 16 i + resAt 20 f.admitAt.toNat))
  rw [hcpl] at hwaiting
  have hentry (j : Nat) : getEntry? (postCpl (admitted s1 n i x f) (reqRing (admittedEntry f)) (reqPacket f) stACCEPTED false false 0
      (BitVec.ofNat 128 (resAt 16 i + resAt 20 f.admitAt.toNat))) j = if j = i then some (admittedEntry f) else getEntry? s1 j :=
    (congrArg (fun q : State => getEntry? q j) hpost : _).trans (getEntry_setEntry s1 i j _)
  have hparts (k : Nat) : getPart? (postCpl (admitted s1 n i x f) (reqRing (admittedEntry f)) (reqPacket f) stACCEPTED false false 0
      (BitVec.ofNat 128 (resAt 16 i + resAt 20 f.admitAt.toNat))) k = if k = n then some { x with stir := true } else getPart? s1 k :=
    (congrArg (fun q : State => getPart? q k) hpost : _).trans (getPart_setPart (setEntry s1 i (admittedEntry f)) n k _)
  refine ⟨_, admittedEntry f, hexec, (hentry i).trans (if_pos rfl), rfl, rfl, ?_⟩
  show f.handle = _ ∧ f.seq = _ ∧ f.tenant.toNat = _ ∧ f.length.toNat = _ ∧ f.basePrio.toNat = _ ∧ f.maxNew.toNat = _ ∧ f.admitAt = _ ∧ f.charges = _ ∧ _
  refine ⟨hf ▸ rfl, hf ▸ rfl, hf ▸ htoNat (packet_tenant_lt p), hf ▸ htoNat (Nat.mod_lt _ (by decide)), hf ▸ htoNat (Nat.mod_lt _ (by decide)),
    hf ▸ htoNat (Nat.mod_lt _ (by decide)), ?_, hf ▸ rfl, fun j hj => ?_, (hparts n).trans (if_pos rfl), fun k hk => ?_, ?_, _, hwaiting, rfl, rfl, hf ▸ rfl, hf ▸ rfl⟩
  · rw [← hf, ← hpwr]
    rfl
  · rw [hentry, if_neg hj, getEntry?, htable, getEntry?]
  · rw [hparts, if_neg hk, getPart?, hpartsEq, getPart?]
  · exact (congrArg State.tiles hpost : _).trans htiles

/-! ## CANCEL, SET_PRIORITY and NOP -/

theorem exec_cancel {s : State} {ring : Nat} {p : Packet} (h : Decodable s ring 0x02 p) (hgate : gate (decoded s ring) ring 0x02 p = none) :
    exec (.cancel ring p) s = .next (doCancel (decoded s ring) ring p) := by
  show decodeCmd s ring 0x02 p .none = _
  rw [h.decodeCmd, show gate (decoded s ring) ring (0x02 : BitVec 8).toNat p = none from hgate]
  rfl

theorem exec_setPriority {s : State} {ring : Nat} {p : Packet} (h : Decodable s ring 0x05 p) (hgate : gate (decoded s ring) ring 0x05 p = none) :
    exec (.setPriority ring p) s = .next (doSetPriority (decoded s ring) ring p) := by
  show decodeCmd s ring 0x05 p .none = _
  rw [h.decodeCmd, show gate (decoded s ring) ring (0x05 : BitVec 8).toNat p = none from hgate]
  rfl

theorem exec_nop_command {s : State} {ring : Nat} {p : Packet} (h : Decodable s ring 0x7F p) (hgate : gate (decoded s ring) ring 0x7F p = none) :
    exec (.nop ring p) s = .next (doNop (decoded s ring) ring p) := by
  show decodeCmd s ring 0x7F p .none = _
  rw [h.decodeCmd, show gate (decoded s ring) ring (0x7F : BitVec 8).toNat p = none from hgate]
  rfl

section
variable {s : State} {ring i : Nat} {p : Packet} {e : Entry} {x : Part}

/-- A live request of a partition that runs a steep is marked CANCELLING (R19, R237). -/
theorem doCancel_of_live (halone : mirroring s = false) (hleader : follower s (partNo s ring) = false) (hp : paramsOk p []) (hname : namedEntry s ring p = some (i, e))
    (hx : getPart? s (partNo s ring) = some x) (hphase : x.phase ≠ .none) (hst : e.st = .queued ∨ e.st = .steeping ∨ e.st = .headstart ∨ e.st = .pouring) :
    doCancel s ring p = finish (setEntry s i { e with st := .cancelling, newt := none }) ring p 0 0 := by
  have hrings := ringsOnly_finish (s := setEntry s i { e with st := .cancelling, newt := none }) halone ring p 0 0
  have hpart : getPart? (finish (setEntry s i { e with st := .cancelling, newt := none }) ring p 0 0) (partNo s ring) = some x :=
    (congrArg (fun q : State => getPart? q (partNo s ring)) hrings : _).trans hx
  have hpaused : e.st ≠ .paused := by rintro h; simp [h] at hst
  unfold doCancel
  dsimp only
  rw [hleader, if_neg (by decide), noParams, show p.badByte [] = none from hp]
  dsimp only
  rw [hname]
  dsimp only
  rw [if_neg hpaused, if_pos hst, setEntryM, mirror_of_alone (s := setEntry s i { e with st := .cancelling, newt := none }) halone, show stOK = 0 from rfl, hpart]
  exact if_neg hphase

theorem doCancel_of_over (hleader : follower s (partNo s ring) = false) (hp : paramsOk p []) (hname : namedEntry s ring p = some (i, e))
    (hst : e.st = .cancelling ∨ e.st = .done ∨ e.st = .failed) : doCancel s ring p = finish s ring p stTOO_LATE 0 := by
  unfold doCancel
  dsimp only
  rw [hleader, if_neg (by decide), noParams, show p.badByte [] = none from hp]
  dsimp only
  rw [hname]
  dsimp only
  obtain h | h | h := hst <;> simp [h]

theorem doSetPriority_of_live (halone : mirroring s = false) (hp : paramsOk p [(16, 1)]) (hlow : 1 ≤ p.le 16 1) (hhigh : p.le 16 1 ≤ 7) (hname : namedEntry s ring p = some (i, e))
    (hst : ¬ (e.st = .cancelling ∨ e.st = .done ∨ e.st = .failed)) :
    doSetPriority s ring p = finish (setEntry s i { e with f := { e.f with basePrio := BitVec.ofNat 3 (p.le 16 1) } }) ring p 0 0 := by
  unfold doSetPriority
  rw [show p.badByte [(16, 1)] = none from hp]
  dsimp only
  rw [if_neg (by omega), hname]
  dsimp only
  rw [if_neg hst, setEntryM, mirror_of_alone (s := setEntry s i _) halone]
  rfl

/-- A NOP of a ring with no command outstanding completes at once (R321). -/
theorem doNop_of_idle (hring : ring < 8192) (hp : paramsOk p []) (hout : (getRing s ring).outstanding = []) (hnops : (getRing s ring).nops = []) :
    ∃ s2, doNop s ring p = postCpl s2 ring p 0 true false 0 0 ∧ { s2 with rings := s.rings } = s ∧ ∀ r, getRing s2 r = getRing s r := by
  have hget : (getRing (modRing s ring (fun x => { x with nops := x.nops ++ [(p, x.outstanding)] })) ring).nops = [(p, [])] := by
    rw [getRing_modRing, if_pos rfl, hnops, hout]
    rfl
  refine ⟨modRing (modRing s ring (fun x => { x with nops := x.nops ++ [(p, x.outstanding)] })) ring (fun x => { x with nops := x.nops.filter (fun q => q.2 ≠ []) }), ?_, ?_, fun r => ?_⟩
  · unfold doNop
    rw [noParams, show p.badByte [] = none from hp]
    dsimp only
    rw [settleNops, hget]
    rfl
  · rw [modRing_of_lt hring, modRing_of_lt hring]
  · rw [getRing_modRing, getRing_modRing, if_pos rfl, getRing_modRing]
    by_cases hr : r = ring
    · subst hr
      rw [if_pos rfl]
      generalize getRing s r = x at hnops hout
      obtain ⟨⟩ := x
      dsimp only at hnops hout
      subst hnops hout
      rfl
    · rw [if_neg hr, if_neg hr]

end

/-- Settles O25: what each command does to the entry it names, and how it completes. -/
theorem expressCommandsTakeEffect : Obligations.ExpressCommandsTakeEffect := by
  unfold Obligations.ExpressCommandsTakeEffect
  intro s ring p i e x s1
  refine ⟨fun hdec hgate hleader hp hname hx hphase => ?_, fun hdec hgate hp hlow hhigh hname hcancel hdone hfailed => ?_, fun hdec hgate hp hout hnops => ?_⟩
  · have halone : mirroring s1 = false := (mirroring_decoded s ring).trans hdec.alone
    rw [exec_cancel hdec hgate]
    exact ⟨fun hst => congrArg _ (doCancel_of_live halone hleader hp hname hx hphase hst), fun hst => congrArg _ (doCancel_of_over hleader hp hname hst)⟩
  · have halone : mirroring s1 = false := (mirroring_decoded s ring).trans hdec.alone
    rw [exec_setPriority hdec hgate]
    exact congrArg _ (doSetPriority_of_live halone hp hlow hhigh hname (by simp [hcancel, hdone, hfailed]))
  · have hget : getRing s1 ring = { getRing s ring with head := (getRing s ring).head + 1, count := (getRing s ring).count + 1, live := (getRing s ring).live.drop 1 } :=
      (getRing_decoded s ring ring).trans (if_pos rfl)
    obtain ⟨s2, hnop, hrest, hrings⟩ := doNop_of_idle (s := s1) hdec.inRange hp (by rw [hget]; exact hout) (by rw [hget]; exact hnops)
    exact ⟨s2, (exec_nop_command hdec hgate).trans (congrArg _ hnop), hrest, hrings⟩

end Sys2Proof.Machine
end

section
/-! SUPPORT. What firmware carries out from the front of its queue: partitions, tenants and model images (R227-R229, R314, R318, R433, R434, R437). -/

namespace Sys2Proof.Machine

open Sys2Proof

/-! ## The firmware queue -/

theorem AtFront.exec {s : State} {c : FwCmd} {rest : List FwCmd} (h : AtFront s c rest) :
    exec .firmwareQueueDispatch s = .next (runFirmware { s with fwQueue := rest } c) := by
  obtain ⟨hfront, hready, hcores, -⟩ := h
  show execFirmwareQueueDispatch s = _
  unfold execFirmwareQueueDispatch
  rw [hfront]
  dsimp only
  rw [if_neg (by simp [hready, hcores])]

section
variable {s : State} {c : FwCmd}

theorem runFirmware_pause (h : c.opcode = 0x03) : runFirmware s c = doPause s c.ring c.p := by rw [runFirmware, h]; rfl
theorem runFirmware_resume (h : c.opcode = 0x04) : runFirmware s c = doResume s c.ring c.p := by rw [runFirmware, h]; rfl
theorem runFirmware_query {b : Bool} (h : c.opcode = 0x06) (hin : c.input = .hostOk b) : runFirmware s c = doQuery s c.ring c.p b := by rw [runFirmware, h, hin]; rfl
theorem runFirmware_partitionCreate (h : c.opcode = 0x10) : runFirmware s c = doPartitionCreate s c := by rw [runFirmware, h]; rfl
theorem runFirmware_partitionDestroy (h : c.opcode = 0x11) : runFirmware s c = doPartitionDestroy s c := by rw [runFirmware, h]; rfl
theorem runFirmware_tenantConfigure (h : c.opcode = 0x12) : runFirmware s c = doTenantConfigure s c := by rw [runFirmware, h]; rfl
theorem runFirmware_modelLoad {r : ImageRead} (h : c.opcode = 0x13) (hin : c.input = .image r) : runFirmware s c = doModelLoad s c.ring c.p r := by rw [runFirmware, h, hin]; rfl
theorem runFirmware_modelUnload (h : c.opcode = 0x14) : runFirmware s c = doModelUnload s c.ring c.p := by rw [runFirmware, h]; rfl
theorem runFirmware_pin (h : c.opcode = 0x15) : runFirmware s c = doPin s c.ring c.p := by rw [runFirmware, h]; rfl
theorem runFirmware_unpin (h : c.opcode = 0x16) : runFirmware s c = doUnpin s c.ring c.p := by rw [runFirmware, h]; rfl

end

/-! ## Tiles of a partition, and power domains -/

theorem modTiles_frame (ts : List Nat) (f : Tile → Tile) (s : State) : { modTiles s ts f with tiles := s.tiles } = s := by
  unfold modTiles
  induction ts generalizing s with
  | nil => rfl
  | cons t r ih => exact (congrArg (fun e : State => { e with tiles := s.tiles }) (ih (modTile s t f)) :)

theorem getTile_modTiles {ts : List Nat} (h : ts.Nodup) (f : Tile → Tile) (s : State) (u : Nat) :
    getTile (modTiles s ts f) u = if u ∈ ts then f (getTile s u) else getTile s u := by
  unfold modTiles
  induction ts generalizing s with
  | nil => simp
  | cons t r ih =>
    obtain ⟨hnew, hrest⟩ := List.nodup_cons.1 h
    rw [List.foldl_cons, ih hrest, getTile_modTile]
    by_cases hu : u = t
    · subst hu
      rw [if_neg hnew, if_pos rfl, if_pos (List.mem_cons_self ..)]
    · rw [if_neg hu]
      by_cases hr : u ∈ r
      · rw [if_pos hr, if_pos (List.mem_cons_of_mem _ hr)]
      · rw [if_neg hr, if_neg (by simp [hu, hr])]

theorem mem_maskTiles {m : BitVec 64} {t : Nat} : t ∈ maskTiles m ↔ t < 64 ∧ m.getLsbD t = true := by
  rw [maskTiles, List.mem_filter, List.mem_range]

/-- Domains that settle change power and correction counts only. -/
theorem settleDomains_frame (s : State) : { settleDomains s with tiles := s.tiles, pwr := s.pwr } = s := by
  have hup (l : List Nat) : { domainsUp s l with tiles := s.tiles } = s := by
    unfold domainsUp
    split
    · rfl
    · exact modTiles_frame _ _ s
  exact congrArg (fun e : State => { e with pwr := s.pwr }) (hup _)

theorem getTile_settleDomains (s : State) (u : Nat) : { getTile (settleDomains s) u with spadStatus := (getTile s u).spadStatus } = getTile s u := by
  have hup (l : List Nat) : { getTile (domainsUp s l) u with spadStatus := (getTile s u).spadStatus } = getTile s u := by
    unfold domainsUp
    split
    · rfl
    · rw [getTile_modTiles (List.nodup_range.filter _)]
      split <;> rfl
  exact hup _

/-! ## PARTITION_CREATE and PARTITION_DESTROY -/

theorem firstBad_eq_none {l : List (Bool × Nat)} (h : firstBad l = none) : ∀ q ∈ l, q.1 = false := by
  induction l with
  | nil => simp
  | cons q r ih =>
    obtain ⟨b, f⟩ := q
    cases b
    · rw [List.forall_mem_cons]
      exact ⟨rfl, ih (by simpa [firstBad] using h)⟩
    · simp [firstBad] at h

theorem configure_of_alone {s : State} (h : mirroring s = false) (c : FwCmd) (d : Delta) (f : State → State) : configure s c d f = f s := by
  unfold configure
  rw [sendDelta_of_alone h]

/-- The record of a partition that is created (R314). -/
def createdPart (a : CreateArgs) (rb pb : Nat) (gen : BitVec 32) : Part :=
  { tileMask := a.mask, ringBase := rb, ringQuota := a.rings, pushBase := pb, pushUnits := a.push, dramPages := a.pages, entryQuota := a.entries, tenantQuota := a.tenants,
    keyGen := gen, keyContext := a.context, regulator := BitVec.ofNat 64 (a.share * 2 ^ 32 + a.rm * 2 ^ 16 + a.wr * 2 ^ 8 + a.rd), caddyWays := BitVec.ofNat 64 a.ways }

section createPart
variable {s : State} {a : CreateArgs}

theorem createPart_ranges (h : createBad s a = none) :
    lowestRange (ringsTaken s) 2 8192 a.rings = some (createPart s a).2.1 ∧ lowestRange (pushTaken s) 128 16384 a.push = some (createPart s a).2.2 := by
  have hall := firstBad_eq_none h
  have hrings := (Bool.or_eq_false_iff.1 (hall _ (List.mem_of_getElem? (i := 1) rfl))).2
  have hpush := (Bool.or_eq_false_iff.1 (hall _ (List.mem_of_getElem? (i := 11) rfl))).2
  obtain ⟨rb, hrb⟩ := Option.isSome_iff_exists.1 (Option.isNone_eq_false_iff.1 hrings)
  obtain ⟨pb, hpb⟩ := Option.isSome_iff_exists.1 (Option.isNone_eq_false_iff.1 hpush)
  refine ⟨hrb.trans ?_, hpb.trans ?_⟩
  · show some rb = some ((lowestRange (ringsTaken s) 2 8192 a.rings).getD 2)
    rw [hrb]
    rfl
  · show some pb = some ((lowestRange (pushTaken s) 128 16384 a.push).getD 128)
    rw [hpb]
    rfl

/-- The state in which a new partition's tiles, rings and push memory are as it receives them (R434). -/
def givenState (s : State) (a : CreateArgs) : State :=
  let rb := (lowestRange (ringsTaken s) 2 8192 a.rings).getD 2
  let pb := (lowestRange (pushTaken s) 128 16384 a.push).getD 128
  { modTiles s (maskTiles a.mask) tileGiven with
    mod := { s.mod with gen := s.mod.gen + 1 }, rings := s.rings.filter (fun q => decide (q.1 < rb) || decide (rb + a.rings ≤ q.1)),
    push := clearRange s.push (pb * 2048) (a.push * 2048) }

theorem createPart_state : (createPart s a).1 = settleDomains (setPart (givenState s a) a.num (createdPart a (createPart s a).2.1 (createPart s a).2.2 (s.mod.gen + 1))) := by
  have hframe := modTiles_frame (maskTiles a.mask) tileGiven s
  have hmod : (modTiles s (maskTiles a.mask) tileGiven).mod = s.mod := (congrArg State.mod hframe :)
  have hrings : (modTiles s (maskTiles a.mask) tileGiven).rings = s.rings := (congrArg State.rings hframe :)
  have hpush : (modTiles s (maskTiles a.mask) tileGiven).push = s.push := (congrArg State.push hframe :)
  unfold createPart givenState createdPart
  dsimp only
  rw [hmod, hrings, hpush]

theorem getPart_createPart (q : Nat) : getPart? (createPart s a).1 q =
    if q = a.num then some (createdPart a (createPart s a).2.1 (createPart s a).2.2 (s.mod.gen + 1)) else getPart? s q := by
  have hparts : (givenState s a).parts = s.parts := (congrArg State.parts (modTiles_frame (maskTiles a.mask) tileGiven s) :)
  have hset := getPart_setPart (givenState s a) a.num q (createdPart a (createPart s a).2.1 (createPart s a).2.2 (s.mod.gen + 1))
  rw [show getPart? (givenState s a) q = getPart? s q from congrArg (fun l => tabGet? q l) hparts] at hset
  rw [createPart_state, ← hset]
  generalize setPart (givenState s a) a.num _ = s1
  exact (congrArg (fun e : State => getPart? e q) (settleDomains_frame s1) :)

theorem gen_createPart : (createPart s a).1.mod.gen = s.mod.gen + 1 := by
  have hset : (setPart (givenState s a) a.num (createdPart a (createPart s a).2.1 (createPart s a).2.2 (s.mod.gen + 1))).mod.gen = s.mod.gen + 1 := rfl
  rw [createPart_state]
  generalize setPart (givenState s a) a.num _ = s1 at hset ⊢
  exact ((congrArg (fun e : State => e.mod.gen) (settleDomains_frame s1) :)).trans hset

theorem push_createPart : (createPart s a).1.push = clearRange s.push ((createPart s a).2.2 * 2048) (a.push * 2048) := by
  have hset : (setPart (givenState s a) a.num (createdPart a (createPart s a).2.1 (createPart s a).2.2 (s.mod.gen + 1))).push = clearRange s.push ((createPart s a).2.2 * 2048) (a.push * 2048) := rfl
  rw [createPart_state]
  generalize setPart (givenState s a) a.num _ = s1 at hset ⊢
  exact ((congrArg State.push (settleDomains_frame s1) :)).trans hset

theorem getTile_createPart {t : Nat} (ht : t < 64) (hmask : a.mask.getLsbD t = true) :
    { getTile (createPart s a).1 t with spadStatus := (getTile s t).spadStatus } = tileGiven (getTile s t) := by
  have hgiven : getTile (givenState s a) t = tileGiven (getTile s t) := by
    refine (getTile_modTiles (nodup_maskTiles _) tileGiven s t).trans (if_pos (mem_maskTiles.2 ⟨ht, hmask⟩))
  have hsettle : { getTile (createPart s a).1 t with spadStatus := (getTile (givenState s a) t).spadStatus } = getTile (givenState s a) t := by
    rw [createPart_state]
    exact getTile_settleDomains (setPart (givenState s a) a.num _) t
  rw [hgiven] at hsettle
  exact hsettle

/-- PARTITION_CREATE takes effect (R314). -/
theorem doPartitionCreate_ok {c : FwCmd} (halone : mirroring s = false) (hp : paramsOk c.p [(16, 1), (18, 19), (38, 8), (48, 8)]) (hgood : createBad s (createArgs c.p) = none)
    (hgen : s.mod.gen ≠ BitVec.allOnes 32) : doPartitionCreate s c = finish (createPart s (createArgs c.p)).1 c.ring c.p 0
      (BitVec.ofNat 128 ((createPart s (createArgs c.p)).2.1 + (createPart s (createArgs c.p)).2.2 * 2 ^ 16)) := by
  unfold doPartitionCreate
  dsimp only
  rw [show c.p.badByte [(16, 1), (18, 19), (38, 8), (48, 8)] = none from hp]
  dsimp only
  rw [if_neg (fun h => h.elim (by simp [hgood]) hgen), configure_of_alone halone, createNow, hgood]
  dsimp only
  rw [if_neg hgen, resAt, resAt, Nat.shiftLeft_eq, Nat.shiftLeft_eq]
  norm_num
  rfl

end createPart

theorem foldl_emit_frame {α : Type} (f : α → Out) (l : List α) (s : State) : { l.foldl (fun s g => emit s (f g)) s with out := s.out } = s := by
  induction l generalizing s with
  | nil => rfl
  | cons g r ih => exact (congrArg (fun e : State => { e with out := s.out }) (ih (emit s (f g))) :)

section destroyPart
variable (s : State) (n : Nat) (x : Part)

/-- The state in which a partition's tiles are cleared and its records gone (R434, R435). -/
def goneState : State :=
  let mine := fun (r : Nat) => decide (x.ringBase ≤ r) && decide (r < x.ringBase + x.ringQuota)
  let s := modTiles { s with iod := { s.iod with caddy := s.iod.caddy.filter (fun k => decide (k.part ≠ n)) } } (maskTiles x.tileMask) tileClear
  { s with
    parts := tabErase n s.parts
    rings := s.rings.filter (fun q => !mine q.1)
    fwQueue := s.fwQueue.filter (fun c => !mine c.ring)
    sigs := s.sigs.filter (fun g => g.part ≠ n)
    remotes := s.remotes.filter (fun r => r.part ≠ n)
    fab := { s.fab with groups := s.fab.groups.filter (fun g => g.2.part ≠ n) }
    pair := { s.pair with held := s.pair.held.filter (fun q => !mine q.2.ring), configs := s.pair.configs.filter (fun q => !mine q.2.ring), pairWrites := s.pair.pairWrites.filter (fun q => q.2.1 ≠ n) }
    pwr := { s.pwr with tolCmds := s.pwr.tolCmds.filter (fun q => !mine q.1) } }

theorem destroyPart_eq : destroyPart s n x =
    settleDomains (((s.fab.groups.filter (fun g => g.2.part = n)).map Prod.fst).foldl (fun s g => emit s (.groupMsg g 4 0)) (goneState s n x)) := rfl

theorem destroyPart_frame : { destroyPart s n x with tiles := (goneState s n x).tiles, pwr := (goneState s n x).pwr, out := (goneState s n x).out } = goneState s n x := by
  have hemit := foldl_emit_frame (fun g => .groupMsg g 4 0) ((s.fab.groups.filter (fun g => g.2.part = n)).map Prod.fst) (goneState s n x)
  rw [destroyPart_eq]
  generalize List.foldl _ _ _ = s1 at hemit ⊢
  exact (congrArg (fun e : State => { e with tiles := (goneState s n x).tiles, pwr := (goneState s n x).pwr, out := (goneState s n x).out }) (settleDomains_frame s1) : _).trans
    (congrArg (fun e : State => { e with tiles := (goneState s n x).tiles, pwr := (goneState s n x).pwr }) hemit)

theorem getTile_destroyPart {t : Nat} (ht : t < 64) (hmask : x.tileMask.getLsbD t = true) :
    { getTile (destroyPart s n x) t with spadStatus := (getTile s t).spadStatus } = tileClear (getTile s t) := by
  have hgone : getTile (goneState s n x) t = tileClear (getTile s t) :=
    (getTile_modTiles (nodup_maskTiles _) tileClear { s with iod := _ } t).trans (if_pos (mem_maskTiles.2 ⟨ht, hmask⟩))
  have hemit := foldl_emit_frame (fun g => .groupMsg g 4 0) ((s.fab.groups.filter (fun g => g.2.part = n)).map Prod.fst) (goneState s n x)
  rw [destroyPart_eq]
  generalize List.foldl _ _ _ = s1 at hemit ⊢
  have hsettle := getTile_settleDomains s1 t
  rw [show getTile s1 t = getTile (goneState s n x) t from (congrArg (fun e : State => getTile e t) hemit :), hgone] at hsettle
  exact hsettle

end destroyPart

section
variable {s : State} {c : FwCmd}

/-- PARTITION_DESTROY takes effect (R314). -/
theorem doPartitionDestroy_ok {x : Part} (halone : mirroring s = false) (hp : paramsOk c.p [(16, 1)]) (hx : getPart? s (c.p.le 16 1) = some x)
    (hfree : destroyHeld s (c.p.le 16 1) x = false) :
    doPartitionDestroy s c = finish (keepCounts (destroyPart s (c.p.le 16 1) x) x s.rings) c.ring c.p 0 0 := by
  unfold doPartitionDestroy
  rw [show c.p.badByte [(16, 1)] = none from hp]
  dsimp only
  rw [hx]
  dsimp only
  rw [hfree, if_neg (by decide), configure_of_alone halone, destroyNow, hx]
  dsimp only
  rw [hfree, if_neg (by decide)]
  rfl

/-! ## TENANT_CONFIGURE -/

theorem mirrorRing_of_alone (h : mirroring s = false) (n : Nat) : mirrorRing s n = s := by
  unfold mirrorRing
  split
  · rfl
  · dsimp only
    split <;> exact mirror_of_alone h _

theorem ringsOnly_bindRing (h : mirroring s = false) (x : Part) (i t : Nat) : RingsOnly s (bindRing s x i t) := by
  unfold bindRing
  dsimp only
  split
  · rfl
  · have hmod := ringsOnly_modRing s (x.ringBase + i) (fun y => { y with cfg := setBits y.cfg 55 44 t })
    rw [mirrorRing_of_alone (hmod.mirroring.trans h)]
    exact hmod

/-- TENANT_CONFIGURE that creates or updates takes effect (R314, R437). -/
theorem doTenantConfigure_ok {x : Part} (halone : mirroring s = false) (hp : paramsOk c.p [(16, 3), (20, 6), (28, 4)]) (hx : getPart? s (partNo s c.ring) = some x)
    (hgood : tenantBad s (partNo s c.ring) x c.p = none) : doTenantConfigure s c = finish (setTenant s (partNo s c.ring) x c.p) c.ring c.p 0 0 := by
  unfold doTenantConfigure
  dsimp only
  rw [show c.p.badByte [(16, 3), (20, 6), (28, 4)] = none from hp]
  dsimp only
  rw [hx, Option.map_some, hgood]
  dsimp only
  rw [configure_of_alone halone, tenantNow, hx]
  dsimp only
  rw [hgood]
  rfl

theorem ringsOnly_setTenant {n : Nat} {x : Part} {p : Packet} (halone : mirroring s = false) (hact : p.le 18 1 = 0) :
    RingsOnly (setPart s n { x with tenants := tabInsert (p.le 16 2) { variant := BitVec.ofNat 16 (p.le 20 2), pinQuota := p.le 28 4, subRing := p.le 22 2, cplRing := p.le 24 2 } x.tenants })
      (setTenant s n x p) := by
  unfold setTenant
  dsimp only
  rw [if_neg (by omega)]
  have hone := ringsOnly_bindRing (s := setPart s n { x with tenants := tabInsert (p.le 16 2) { variant := BitVec.ofNat 16 (p.le 20 2), pinQuota := p.le 28 4, subRing := p.le 22 2, cplRing := p.le 24 2 } x.tenants })
    halone x (p.le 22 2) (p.le 16 2)
  exact hone.trans (ringsOnly_bindRing (hone.mirroring.trans halone) x (p.le 24 2) (p.le 16 2))

end

/-! ## MODEL_LOAD and MODEL_UNLOAD -/

theorem loadPrograms_frame (s : State) (n : Nat) : { loadPrograms s n with tiles := s.tiles } = s := by
  have hfold (l : List Nat) (f : Nat → Tile → Tile) (s : State) : { l.foldl (fun s t => modTile s t (f t)) s with tiles := s.tiles } = s := by
    induction l generalizing s with
    | nil => rfl
    | cons t r ih => exact (congrArg (fun e : State => { e with tiles := s.tiles }) (ih (modTile s t (f t))) :)
  unfold loadPrograms
  split
  · rfl
  · split
    · rfl
    · exact hfold _ _ s

/-- The bytes of an image are placed below its size (R228). -/
theorem smGet_placed {img : Image} (l : List (Nat × Byte)) (m : SMap 8) {a : Nat} (ha : img.size ≤ a) :
    smGet (l.foldl (fun m q => if q.1 < img.size then smSet m q.1 q.2 else m) m) a = smGet m a := by
  induction l generalizing m with
  | nil => rfl
  | cons q r ih =>
    refine (ih _).trans ?_
    dsimp only
    split
    · next hlt => exact smGet_smSet_other m q.2 (by omega)
    · rfl

/-- The record of a partition whose image has been placed (R228, R431). -/
def loadedPart (x : Part) (img : Image) : Part :=
  let pool := (List.range (x.dramPages - imagePages img)).map (· + imagePages img)
  { x with image := some img, imageBase := 0, imageCharges := 0, imageCharged := false,
           mem := img.bytes.foldl (fun m q => if q.1 < img.size then smSet m q.1 q.2 else m) (clearRange x.mem 0 img.size), pool := pool, returned := [], lent := [], memberPages := [],
           poolPages := BitVec.ofNat 32 pool.length, syncStatus := setBits x.syncStatus 23 0 (if img.waitLimit = 0 then 2000 else img.waitLimit) }

theorem loadedPart_kept (x : Part) (img : Image) : (loadedPart x img).ctrs = x.ctrs ∧ (loadedPart x img).creditRm = x.creditRm := by
  unfold loadedPart
  exact ⟨rfl, rfl⟩

theorem loadedPart_fields (x : Part) (img : Image) : let y := loadedPart x img
    y.image = some img ∧ y.imageBase = 0 ∧ y.imageCharges = 0 ∧ y.poolPages = BitVec.ofNat 32 y.pool.length ∧ y.pool = (List.range (x.dramPages - imagePages img)).map (· + imagePages img) ∧
      y.tenants = x.tenants ∧ y.targets = x.targets ∧ y.mem = img.bytes.foldl (fun m q => if q.1 < img.size then smSet m q.1 q.2 else m) (clearRange x.mem 0 img.size) := by
  unfold loadedPart
  exact ⟨rfl, rfl, rfl, rfl, rfl, rfl, rfl, rfl⟩

theorem placeImage_eq {s : State} (halone : mirroring s = false) (n : Nat) (x : Part) (img : Image) :
    placeImage s n x img = chargePaced (partCtr (loadPrograms (setPart s n (loadedPart x img)) n) n 0x120 img.size) n (2 * img.size) := by
  have hload := loadPrograms_frame (setPart s n (loadedPart x img)) n
  have hkept (s1 : State) : mirroring (chargePaced (partCtr s1 n 0x120 img.size) n (2 * img.size)) = mirroring s1 :=
    (congrArg mirroring (modPart_frame (partCtr s1 n 0x120 img.size) n _) : _).trans (congrArg mirroring (modPart_frame s1 n _) : _)
  have hloaded : mirroring (loadPrograms (setPart s n (loadedPart x img)) n) = false := by
    generalize loadPrograms (setPart s n (loadedPart x img)) n = s1 at hload ⊢
    exact (congrArg mirroring hload : _).trans halone
  exact mirror_of_alone ((hkept _).trans hloaded) _

/-- The traffic of a placed image is charged to its partition's counters and credit only (R190). -/
theorem getPart_charged {s : State} {n k : Nat} {x z : Part} (hone : getPart? s n = some z) (hctrs : z.ctrs = x.ctrs) (hcredit : z.creditRm = x.creditRm) :
    ∃ y, getPart? (chargePaced (partCtr s n 0x120 k) n (2 * k)) n = some y ∧ { y with ctrs := x.ctrs, creditRm := x.creditRm } = z :=
  ⟨_, getPart_modPart_self (getPart_modPart_self hone _) _, by rw [← hctrs, ← hcredit]; rfl⟩

/-- The state once an image has been placed: its partition's record, and no other store than tiles and credits. -/
theorem placeImage_frame {s : State} (halone : mirroring s = false) (n : Nat) (x : Part) (img : Image) :
    { placeImage s n x img with tiles := s.tiles, parts := s.parts } = s ∧ (∀ q, q ≠ n → getPart? (placeImage s n x img) q = getPart? s q) ∧
      ∃ y, getPart? (placeImage s n x img) n = some y ∧ { y with ctrs := x.ctrs, creditRm := x.creditRm } = loadedPart x img := by
  obtain ⟨hctrs, hcredit⟩ := loadedPart_kept x img
  rw [placeImage_eq halone]
  generalize loadedPart x img = z at hctrs hcredit ⊢
  have hload := loadPrograms_frame (setPart s n z) n
  generalize loadPrograms (setPart s n z) n = s1 at hload ⊢
  have hone : getPart? s1 n = some z := (congrArg (fun e : State => getPart? e n) hload : _).trans ((getPart_setPart _ _ _ _).trans (if_pos rfl))
  refine ⟨?_, fun q hq => ?_, getPart_charged hone hctrs hcredit⟩
  · have hctr : { partCtr s1 n 0x120 img.size with parts := s1.parts } = s1 := modPart_frame s1 n _
    generalize partCtr s1 n 0x120 img.size = s2 at hctr ⊢
    have hcharge : { chargePaced s2 n (2 * img.size) with parts := s2.parts } = s2 := modPart_frame s2 n _
    generalize chargePaced s2 n (2 * img.size) = s3 at hcharge ⊢
    exact ((congrArg (fun e : State => { e with tiles := s.tiles, parts := s.parts }) hcharge :)).trans (((congrArg (fun e : State => { e with tiles := s.tiles, parts := s.parts }) hctr :)).trans
      (congrArg (fun e : State => { e with parts := s.parts }) hload))
  · refine (getPart_modPart_of_ne hq _).trans ((getPart_modPart_of_ne (s := s1) hq _).trans ?_)
    exact (congrArg (fun e : State => getPart? e q) hload : _).trans ((getPart_setPart _ _ _ _).trans (if_neg hq))

section
variable {s : State} {ring : Nat} {p : Packet} {x : Part}

/-- MODEL_LOAD of an image that passes its checks takes effect (R227, R228, R315). -/
theorem doModelLoad_ok {img : Image} {expected : BitVec 384} (hx : getPart? s (partNo s ring) = some x) (hp : paramsOk p [(16, 17), (40, 8)]) (hkind : p.le 32 1 = 0)
    (hnone : x.image = none) (hheader : img.headerLen = p.le 24 8) (hmeas : p.le 40 8 = 0 ∨ expected = img.measurement) (hok : imageOk x img = true)
    (hfits : imagePages img + totalPages img img.contextMax ≤ x.dramPages) :
    doModelLoad s ring p (.image img expected) = finish (placeImage s (partNo s ring) x img) ring p 0
      (BitVec.ofNat 128 (resAt 17 (ceilDiv (largestRecord img) 1048576) + resAt 20 (x.dramPages - imagePages img) + resAt 24 (img.measurement.toNat % 2 ^ 64))) := by
  unfold doModelLoad
  dsimp only
  rw [hx]
  dsimp only
  rw [show p.badByte [(16, 17), (40, 8)] = none from hp]
  dsimp only
  rw [if_neg (by omega), hnone, if_neg (by decide), if_neg (by omega), if_neg (not_not.2 hheader),
    if_neg (by rintro ⟨hne, hdiff⟩; exact hmeas.elim hne hdiff), hok, if_neg (by decide), if_neg (by omega)]
  rfl

/-- The record of a partition whose image has been taken away (R229). -/
def unloadedPart (x : Part) : Part :=
  { x with image := none, imageCharges := 0, imageCharged := false, pool := [], returned := [], lent := [], memberPages := [], poolPages := 0, freePages := 0,
           next := none, targets := x.targets.map (fun q => (q.1, { q.2 with queue := [], recIdx := 0, crcs := [] })) }

/-- MODEL_UNLOAD of an image that nothing holds takes effect (R229). -/
theorem doModelUnload_ok (halone : mirroring s = false) (hx : getPart? s (partNo s ring) = some x) (hp : paramsOk p []) (himg : x.image.isSome = true)
    (hfree : ∀ q ∈ entriesOf s (partNo s ring), boundLive q.2.st = false) (hwait : ∀ q ∈ s.pair.waitingEntries, q.2.partition.toNat ≠ partNo s ring) (hpins : x.pins = []) :
    doModelUnload s ring p = finish (setPart s (partNo s ring) (unloadedPart x)) ring p 0 0 := by
  have hnone : x.image.isNone = false := by rw [← Option.not_isSome, himg]; rfl
  have hheld : ¬ ((entriesOf s (partNo s ring)).any (fun q => boundLive q.2.st) = true ∨ s.pair.waitingEntries.any (fun q => decide (q.2.partition.toNat = partNo s ring)) = true ∨ x.pins ≠ []) := by
    rintro (h | h | h)
    · obtain ⟨q, hq, hlive⟩ := List.any_eq_true.1 h
      rw [hfree q hq] at hlive
      cases hlive
    · obtain ⟨q, hq, heq⟩ := List.any_eq_true.1 h
      exact hwait q hq (of_decide_eq_true heq)
    · exact h hpins
  unfold doModelUnload
  dsimp only
  rw [hx]
  dsimp only
  rw [noParams, show p.badByte [] = none from hp]
  dsimp only
  rw [hnone, if_neg (by decide), if_neg hheld, mirror_of_alone (s := setPart s (partNo s ring) _) halone]
  rfl

end

/-! ## The set-up commands from the firmware queue -/

section
variable {s : State} {c : FwCmd} {rest : List FwCmd}

theorem dispatch_partitionCreate (hfront : AtFront s c rest) :
    let s1 := { s with fwQueue := rest }
    c.opcode = 0x10 → paramsOk c.p [(16, 1), (18, 19), (38, 8), (48, 8)] → createBad s1 (createArgs c.p) = none → s.mod.gen ≠ BitVec.allOnes 32 →
      ∃ s2 x rb pb, exec .firmwareQueueDispatch s = .next (finish s2 c.ring c.p 0 (BitVec.ofNat 128 (rb + pb * 2 ^ 16))) ∧ getPart? s2 (c.p.le 16 1) = some x ∧
        (∀ q, q ≠ c.p.le 16 1 → getPart? s2 q = getPart? s q) ∧ x.ringBase = rb ∧ x.pushBase = pb ∧ x.tileMask = BitVec.ofNat 64 (c.p.le 20 8) ∧ x.ringQuota = c.p.le 18 2 ∧
        x.dramPages = c.p.le 28 4 ∧ x.keyGen = s.mod.gen + 1 ∧ s2.mod.gen = s.mod.gen + 1 ∧ x.image = none ∧ x.tenants = [] ∧ x.targets = [] ∧ x.pins = [] ∧
        lowestRange (ringsTaken s1) 2 8192 (c.p.le 18 2) = some rb ∧ lowestRange (pushTaken s1) 128 16384 (c.p.le 44 2) = some pb ∧
        (∀ t, t < 64 → (BitVec.ofNat 64 (c.p.le 20 8)).getLsbD t = true → (getTile s2 t).spad = [] ∧ (getTile s2 t).acc = [] ∧ (getTile s2 t).ctrs = []) ∧
        ∀ a, smGet s2.push a = if pb * 2048 ≤ a ∧ a < (pb + c.p.le 44 2) * 2048 then 0 else smGet s.push a := by
  intro s1 hop hp hgood hgen
  obtain ⟨hrb, hpb⟩ := createPart_ranges hgood
  have hpart := getPart_createPart (s := s1) (a := createArgs c.p)
  have htile (t : Nat) (ht : t < 64) (hmask : (BitVec.ofNat 64 (c.p.le 20 8)).getLsbD t = true) := getTile_createPart (s := s1) (a := createArgs c.p) ht hmask
  have hdo := doPartitionCreate_ok (s := s1) hfront.alone hp hgood hgen
  refine ⟨_, _, _, _, hfront.exec.trans (congrArg _ ((runFirmware_partitionCreate hop).trans hdo)), (hpart _).trans (if_pos rfl),
    fun q hq => (hpart q).trans (if_neg hq), rfl, rfl, rfl, rfl, rfl, rfl, gen_createPart, rfl, rfl, rfl, rfl, hrb, hpb,
    fun t ht hmask => ⟨(congrArg Tile.spad (htile t ht hmask) :), (congrArg Tile.acc (htile t ht hmask) :), (congrArg Tile.ctrs (htile t ht hmask) :)⟩, fun a => ?_⟩
  rw [push_createPart, smGet_clearRange, Nat.add_mul]
  rfl

theorem goneState_stores (s : State) (n : Nat) (x : Part) :
    (goneState s n x).table = s.table ∧ (goneState s n x).push = s.push ∧ (goneState s n x).parts = tabErase n s.parts := by
  have hmod := modTiles_frame (maskTiles x.tileMask) tileClear { s with iod := { s.iod with caddy := s.iod.caddy.filter (fun k => decide (k.part ≠ n)) } }
  unfold goneState
  dsimp only
  generalize modTiles _ _ tileClear = s1 at hmod ⊢
  exact ⟨(congrArg State.table hmod :), (congrArg State.push hmod :), (congrArg (fun e : State => tabErase n e.parts) hmod :)⟩

theorem dispatch_partitionDestroy (hfront : AtFront s c rest) :
    let s1 := { s with fwQueue := rest }
    c.opcode = 0x11 → paramsOk c.p [(16, 1)] → ∀ x : Part, getPart? s (c.p.le 16 1) = some x → destroyHeld s1 (c.p.le 16 1) x = false →
      ∃ s2, exec .firmwareQueueDispatch s = .next (finish s2 c.ring c.p 0 0) ∧ getPart? s2 (c.p.le 16 1) = none ∧ (∀ q, q ≠ c.p.le 16 1 → getPart? s2 q = getPart? s q) ∧
        (∀ t, t < 64 → x.tileMask.getLsbD t = true → (getTile s2 t).spad = [] ∧ (getTile s2 t).acc = []) ∧ s2.push = s.push ∧ s2.table = s.table := by
  intro s1 hop hp x hx hfree
  have hframe := destroyPart_frame s1 (c.p.le 16 1) x
  obtain ⟨htable, hpush, hparts⟩ := goneState_stores s1 (c.p.le 16 1) x
  have hparts' : (keepCounts (destroyPart s1 (c.p.le 16 1) x) x s1.rings).parts = tabErase (c.p.le 16 1) s1.parts := (congrArg State.parts hframe : _).trans hparts
  have hdo := doPartitionDestroy_ok (s := s1) hfront.alone hp hx hfree
  refine ⟨_, hfront.exec.trans (congrArg _ ((runFirmware_partitionDestroy hop).trans hdo)), ?_, fun q hq => ?_, fun t ht hmask => ?_,
    (congrArg State.push hframe : _).trans hpush, (congrArg State.table hframe : _).trans htable⟩
  · rw [getPart?, hparts', tabGet_erase_self]
  · rw [getPart?, hparts', tabGet_erase_other hq]
    rfl
  · have htile := getTile_destroyPart s1 (c.p.le 16 1) x ht hmask
    exact ⟨(congrArg Tile.spad htile :), (congrArg Tile.acc htile :)⟩

theorem dispatch_tenantConfigure (hfront : AtFront s c rest) :
    let s1 := { s with fwQueue := rest }
    c.opcode = 0x12 → paramsOk c.p [(16, 3), (20, 6), (28, 4)] → ∀ x : Part, getPart? s1 (partNo s1 c.ring) = some x → tenantBad s1 (partNo s1 c.ring) x c.p = none → c.p.le 18 1 = 0 →
      ∃ s2 y, exec .firmwareQueueDispatch s = .next (finish s2 c.ring c.p 0 0) ∧ getPart? s2 (partNo s1 c.ring) = some y ∧
        y = { x with tenants := tabInsert (c.p.le 16 2) { variant := BitVec.ofNat 16 (c.p.le 20 2), pinQuota := c.p.le 28 4, subRing := c.p.le 22 2, cplRing := c.p.le 24 2 } x.tenants } ∧
        s2.table = s.table ∧ s2.tiles = s.tiles := by
  intro s1 hop hp x hx hgood hact
  have hrings := ringsOnly_setTenant (s := s1) (n := partNo s1 c.ring) (x := x) (p := c.p) hfront.alone hact
  have hdo := doTenantConfigure_ok (s := s1) hfront.alone hp hx hgood
  generalize setTenant s1 (partNo s1 c.ring) x c.p = s2 at hrings hdo
  exact ⟨s2, _, hfront.exec.trans (congrArg _ ((runFirmware_tenantConfigure hop).trans hdo)),
    (congrArg (fun e : State => getPart? e (partNo s1 c.ring)) hrings : _).trans ((getPart_setPart _ _ _ _).trans (if_pos rfl)), rfl, (congrArg State.table hrings :), (congrArg State.tiles hrings :)⟩

theorem dispatch_modelLoad (hfront : AtFront s c rest) :
    let s1 := { s with fwQueue := rest }
    let n := partNo s1 c.ring
    ∀ x : Part, getPart? s1 n = some x →
    ∀ (img : Image) (expected : BitVec 384), c.opcode = 0x13 → c.input = .image (.image img expected) → paramsOk c.p [(16, 17), (40, 8)] → c.p.le 32 1 = 0 → x.image = none →
      img.headerLen = c.p.le 24 8 → (c.p.le 40 8 = 0 ∨ expected = img.measurement) → imageOk x img = true → imagePages img + totalPages img img.contextMax ≤ x.dramPages →
      ∃ s2 y, exec .firmwareQueueDispatch s = .next (finish s2 c.ring c.p 0
          (BitVec.ofNat 128 (resAt 17 (ceilDiv (largestRecord img) 1048576) + resAt 20 (x.dramPages - imagePages img) + resAt 24 (img.measurement.toNat % 2 ^ 64)))) ∧
        getPart? s2 n = some y ∧ y.image = some img ∧ y.imageBase = 0 ∧ y.imageCharges = 0 ∧ y.poolPages.toNat = (x.dramPages - imagePages img) % 2 ^ 32 ∧
        (∀ k ∈ y.pool, imagePages img ≤ k ∧ k < x.dramPages) ∧ y.tenants = x.tenants ∧ y.targets = x.targets ∧ (∀ q, q ≠ n → getPart? s2 q = getPart? s q) ∧
        (∀ a, img.size ≤ a → smGet y.mem a = smGet x.mem a) ∧ s2.table = s.table := by
  intro s1 n x hx img expected hop hin hp hkind hnone hheader hmeas hok hfits
  obtain ⟨hframe, hothers, y, hy, hload⟩ := placeImage_frame (s := s1) hfront.alone n x img
  have hdo := doModelLoad_ok hx hp hkind hnone hheader hmeas hok hfits
  obtain ⟨himage, hbase, hcharges, hpages, hpool, htenants, htargets, hmem⟩ := loadedPart_fields x img
  generalize loadedPart x img = z at hload himage hbase hcharges hpages hpool htenants htargets hmem
  subst hload
  dsimp only at himage hbase hcharges hpages hpool htenants htargets hmem
  refine ⟨_, y, hfront.exec.trans (congrArg _ ((runFirmware_modelLoad hop hin).trans hdo)), hy, himage, hbase, hcharges, ?_, fun k hk => ?_, htenants, htargets, hothers, fun a ha => ?_,
    (congrArg State.table hframe :)⟩
  · rw [hpages, hpool]
    simp
  · rw [hpool] at hk
    obtain ⟨i, hi, rfl⟩ := List.mem_map.1 hk
    have := List.mem_range.1 hi
    omega
  · rw [hmem]
    refine (smGet_placed img.bytes _ ha).trans ?_
    rw [smGet_clearRange, if_neg (by omega)]

theorem dispatch_modelUnload (hfront : AtFront s c rest) :
    let s1 := { s with fwQueue := rest }
    let n := partNo s1 c.ring
    ∀ x : Part, getPart? s1 n = some x →
    c.opcode = 0x14 → paramsOk c.p [] → x.image.isSome = true → (∀ q ∈ entriesOf s1 n, boundLive q.2.st = false) →
      (∀ q ∈ s.pair.waitingEntries, q.2.partition.toNat ≠ n) → x.pins = [] →
      ∃ s2 y, exec .firmwareQueueDispatch s = .next (finish s2 c.ring c.p 0 0) ∧ getPart? s2 n = some y ∧ y.image = none ∧ y.pool = [] ∧ y.poolPages = 0 ∧ y.next = none ∧
        y.tenants = x.tenants ∧ y.mem = x.mem ∧ (∀ q, q ≠ n → getPart? s2 q = getPart? s q) ∧ s2.table = s.table ∧ s2.tiles = s.tiles := by
  intro s1 n x hx hop hp himg hfree hwait hpins
  have hdo := doModelUnload_ok (s := s1) hfront.alone hx hp himg hfree hwait hpins
  have hpart (q : Nat) := getPart_setPart s1 n q (unloadedPart x)
  exact ⟨_, unloadedPart x, hfront.exec.trans (congrArg _ ((runFirmware_modelUnload hop).trans hdo)),
    (hpart n).trans (if_pos rfl), rfl, rfl, rfl, rfl, rfl, rfl, fun q hq => (hpart q).trans (if_neg hq), rfl, rfl⟩

end

/-- Settles O26: the state that each command leaves, finished by its completion. -/
theorem setupCommandsTakeEffect : Obligations.SetupCommandsTakeEffect := by
  unfold Obligations.SetupCommandsTakeEffect
  exact ⟨fun s c rest hfront => ⟨dispatch_partitionCreate hfront, dispatch_partitionDestroy hfront, dispatch_tenantConfigure hfront⟩,
    fun s c rest hfront x hx => ⟨dispatch_modelLoad hfront x hx, dispatch_modelUnload hfront x hx⟩⟩

end Sys2Proof.Machine
end

section
/-! SUPPORT. What firmware carries out for requests and pinned prefixes (R237-R239, R252, R254, R312, R316). -/

namespace Sys2Proof.Machine

open Sys2Proof

section
variable {s : State} {ring n i : Nat} {p : Packet} {e : Entry} {x : Part}

theorem finish_getPart (halone : mirroring s = false) (ring : Nat) (p : Packet) (st : BitVec 16) (r : BitVec 128) (k : Nat) : getPart? (finish s ring p st r) k = getPart? s k :=
  (congrArg (fun q : State => getPart? q k) (ringsOnly_finish halone ring p st r) :)

theorem finish_table (halone : mirroring s = false) (ring : Nat) (p : Packet) (st : BitVec 16) (r : BitVec 128) : (finish s ring p st r).table = s.table :=
  (congrArg State.table (ringsOnly_finish halone ring p st r) :)

/-- A PAUSE of a running request waits for the next composition (R9, R238). -/
theorem doPause_of_live (hx : getPart? s (partNo s ring) = some x) (hleader : follower s (partNo s ring) = false) (hphase : x.phase ≠ .none)
    (hname : namedEntry s ring p = some (i, e)) (hp : paramsOk p []) (hst : e.st = .queued ∨ e.st = .steeping ∨ e.st = .headstart) :
    doPause s ring p = setEntry s i { e with pauseAsked := e.pauseAsked ++ [(ring, p, if x.phase = .final then x.steepNo + 1 else x.steepNo)] } := by
  have hpaused : e.st ≠ .paused := by rintro h; simp [h] at hst
  have hnumber : pauseNumber x = if x.phase = .final then x.steepNo + 1 else x.steepNo := by simp [pauseNumber, hphase]
  unfold doPause
  dsimp only
  rw [hleader, if_neg (by decide), noParams, show p.badByte [] = none from hp]
  dsimp only
  rw [hname, hx]
  dsimp only
  rw [if_neg hpaused, if_pos hst, hnumber, if_neg (fun h => hphase h.1)]

/-- RESUME queues a PAUSED request again from its start (R237-R239). -/
theorem doResume_of_paused (halone : mirroring s = false) (hx : getPart? s (partNo s ring) = some x) (hleader : follower s (partNo s ring) = false) (hphase : x.phase ≠ .none)
    (hname : namedEntry s ring p = some (i, e)) (hp : paramsOk p []) (hst : e.st = .paused) :
    doResume s ring p = finish (setPart (setEntry s i { e with st := .queued, computed := startPos x e.f, f := { e.f with nextPos := BitVec.ofNat 21 (startPos x e.f) } })
      (partNo s ring) { x with stir := true }) ring p 0 0 := by
  unfold doResume
  dsimp only
  rw [hleader, if_neg (by decide), noParams, show p.badByte [] = none from hp]
  dsimp only
  rw [hname, hx]
  dsimp only
  rw [if_pos hst]
  generalize he : ({ e with st := .queued, computed := startPos x e.f, f := { e.f with nextPos := BitVec.ofNat 21 (startPos x e.f) } } : Entry) = e'
  rw [setEntryM, mirror_of_alone (s := setEntry s i e') halone, stirPart, modPart_of_some (s := setEntry s i e') hx]
  exact idleCompose_of_running ((finish_getPart (s := setPart (setEntry s i e') (partNo s ring) { x with stir := true }) halone ..).trans
    ((getPart_setPart ..).trans (if_pos rfl))) hphase

/-- QUERY_REQUEST of a request in the table (R312, R316). -/
theorem doQuery_of_named (hostOk : Bool) (hname : namedEntry s ring p = some (i, e)) (hp : paramsOk p [(16, 8)]) (haligned : p.le 16 8 % 64 = 0) :
    doQuery s ring p hostOk = if hostOk then finish (emit s (.hostWrite (ringFunc s ring) (BitVec.ofNat 64 (p.le 16 8)) (queryBytes i e))) ring p 0 (queryResult e)
      else finish (emit s (.hostUndefined (BitVec.ofNat 64 (p.le 16 8)) 128)) ring p 0x0401 0 := by
  unfold doQuery
  rw [show p.badByte [(16, 8)] = none from hp]
  dsimp only
  rw [if_neg (not_not.2 haligned), hname]
  rfl

/-- The fields of the job that a PREFIX_PIN starts (R252). -/
def pinFields (s : State) (n ring : Nat) (x : Part) (img : Image) (p : Packet) : ReqFields :=
  { submitFields s n ring x img { p with params := 0 } with kind := 0, length := BitVec.ofNat 21 (p.le 24 4), basePrio := BitVec.ofNat 3 (p.le 28 1), effPrio := BitVec.ofNat 3 (p.le 28 1), tokenAddr := BitVec.ofNat 64 (p.le 16 8), isPin := true, pin := 0, nextPos := 0 }

theorem doPin_ok {img : Image} {j : Nat} (hx : getPart? s (partNo s ring) = some x) (hleader : follower s (partNo s ring) = false) (hp : paramsOk p [(16, 13)])
    (himg : x.image = some img) (hchecks : pinChecks s (partNo s ring) x img p = none) (hfree : freeEntry s = some j) :
    doPin s ring p = admitRequest s j (pinFields s (partNo s ring) ring x img p) := by
  unfold doPin
  dsimp only
  rw [hx]
  dsimp only
  rw [hleader, if_neg (by decide), show p.badByte [(16, 13)] = none from hp]
  dsimp only
  rw [himg]
  dsimp only
  rw [hchecks]
  dsimp only
  rw [hfree]
  rfl

/-- What an admitted request leaves in the table and the partitions. -/
theorem admitRequest_stores {f : ReqFields} (halone : mirroring s = false) (hf : f.partition.toNat = n) (hx : getPart? s n = some x) (hphase : x.phase ≠ .none) :
    (∀ k, getEntry? (admitRequest s i f) k = if k = i then some (admittedEntry f) else getEntry? s k) ∧
    ∀ k, getPart? (admitRequest s i f) k = if k = n then some { x with stir := true } else getPart? s k := by
  rw [admitRequest_of_running halone hf hx hphase]
  have hpost := ringsOnly_postCpl (s := admitted s n i x f) halone (reqRing (admittedEntry f)) (reqPacket f) stACCEPTED false false 0
    (BitVec.ofNat 128 (resAt 16 i + resAt 20 f.admitAt.toNat))
  generalize postCpl (admitted s n i x f) _ _ _ _ _ _ _ = s2 at hpost ⊢
  exact ⟨fun k => (congrArg (fun q : State => getEntry? q k) hpost : _).trans (getEntry_setEntry s i k _),
    fun k => (congrArg (fun q : State => getPart? q k) hpost : _).trans (getPart_setPart (setEntry s i (admittedEntry f)) n k _)⟩

/-! ## Pins that retire -/

theorem tabGet_filter_of_kept {α : Type} {k : Nat} {f : Nat × α → Bool} {l : List (Nat × α)} (h : ∀ v, f (k, v) = true) : tabGet? k (l.filter f) = tabGet? k l := by
  induction l with
  | nil => rfl
  | cons q r ih =>
    obtain ⟨j, v⟩ := q
    rw [List.filter_cons]
    by_cases hj : k = j
    · subst hj
      rw [if_pos (h v)]
      simp [tabGet?]
    · split <;> simp [tabGet?, hj, ih]

theorem phase_returnList (x : Part) (l : List Nat) : (returnList x l).phase = x.phase := by
  unfold returnList
  split
  · rfl
  · split <;> rfl

theorem phase_foldl_returnList (l : List (Nat × Pin)) (x : Part) : (l.foldl (fun y q => returnList y q.2.pages) x).phase = x.phase := by
  induction l generalizing x with
  | nil => rfl
  | cons q r ih => exact (ih _).trans (phase_returnList x q.2.pages)

theorem foldl_mirror_of_alone {α : Type} (d : α → Delta) (l : List α) (h : mirroring s = false) : l.foldl (fun s q => mirror s (d q)) s = s := by
  induction l with
  | nil => rfl
  | cons q r ih => rw [List.foldl_cons, mirror_of_alone h, ih]

/-- Pins that settle leave the table, the partition's phase, and every pin that a request of the table names (R254). -/
theorem settlePins_keeps {key : Nat} (halone : mirroring s = false) (hx : getPart? s n = some x)
    (hused : ∃ r ∈ entriesOf s n, r.2.f.pin.getLsbD 14 = true ∧ r.2.f.pin.toNat % 2 ^ 14 = key) :
    ∃ y, getPart? (settlePins s n) n = some y ∧ y.phase = x.phase ∧ tabGet? key y.pins = tabGet? key x.pins ∧ (settlePins s n).table = s.table := by
  obtain ⟨r, hr, hpinned, hkey⟩ := hused
  have hany : (entriesOf s n).any (fun q => q.2.f.pin.getLsbD 14 && q.2.f.pin.toNat % 2 ^ 14 = key) = true := List.any_eq_true.2 ⟨r, hr, Bool.and_eq_true_iff.2 ⟨hpinned, decide_eq_true hkey⟩⟩
  unfold settlePins
  rw [hx]
  dsimp only
  rw [foldl_mirror_of_alone (s := setPart s n _) _ _ halone]
  refine ⟨_, (getPart_setPart ..).trans (if_pos rfl), phase_foldl_returnList _ x, tabGet_filter_of_kept (fun v => ?_), rfl⟩
  dsimp only
  rw [hany]
  simp

/-- PREFIX_UNPIN of a pin that a request names marks it retiring and keeps it (R254). -/
theorem doUnpin_of_used {q : Pin} (halone : mirroring s = false) (hx : getPart? s (partNo s ring) = some x) (hphase : x.phase ≠ .none) (hp : paramsOk p [(16, 2)])
    (hq : tabGet? (p.le 16 2) x.pins = some q) (htenant : ringLevel s ring = 0 → q.tenant = p.tenant)
    (hused : ∃ r ∈ entriesOf s (partNo s ring), r.2.f.pin.getLsbD 14 = true ∧ r.2.f.pin.toNat % 2 ^ 14 = p.le 16 2) :
    ∃ y, getPart? (doUnpin s ring p) (partNo s ring) = some y ∧ (tabGet? (p.le 16 2) y.pins).map (·.retiring) = some true ∧ (doUnpin s ring p).table = s.table := by
  generalize hs1 : setPart s (partNo s ring) { x with pins := tabInsert (p.le 16 2) { q with retiring := true } x.pins } = s1
  have halone1 : mirroring s1 = false := by rw [← hs1]; exact halone
  have hpart1 : getPart? s1 (partNo s ring) = some { x with pins := tabInsert (p.le 16 2) { q with retiring := true } x.pins } := by
    rw [← hs1, getPart_setPart, if_pos rfl]
  have htable1 : s1.table = s.table := by rw [← hs1]; rfl
  have hdo : doUnpin s ring p = idleCompose (settlePins (finish s1 ring p stOK 0) (partNo s ring)) (partNo s ring) := by
    unfold doUnpin
    dsimp only
    rw [hx]
    dsimp only
    rw [show p.badByte [(16, 2)] = none from hp]
    dsimp only
    rw [hq]
    dsimp only
    rw [if_neg (fun h => h.2 (htenant h.1)), hs1]
  have htable2 := (finish_table halone1 ring p stOK 0).trans htable1
  obtain ⟨y, hy, hyphase, hypin, hytable⟩ := settlePins_keeps ((ringsOnly_finish halone1 ring p stOK 0).mirroring.trans halone1) ((finish_getPart halone1 ring p stOK 0 _).trans hpart1)
    (key := p.le 16 2) (by rw [entriesOf, htable2]; exact hused)
  rw [hdo, idleCompose_of_running hy (by rw [hyphase]; exact hphase)]
  exact ⟨y, hy, by rw [hypin, tabGet_insert_self]; rfl, hytable.trans htable2⟩

end

/-- Settles O27: each command at the front of the queue, by the state that its meaning leaves. -/
theorem requestCommandsTakeEffect : Obligations.RequestCommandsTakeEffect := by
  unfold Obligations.RequestCommandsTakeEffect
  constructor
  · intro s c rest i e x hfront s1 n hx hleader hphase hname
    refine ⟨fun hop hp hst => ?_, fun hop hp hst => ?_, fun hostOk hop hin hp haligned => ?_⟩
    · exact hfront.exec.trans (congrArg _ ((runFirmware_pause hop).trans (doPause_of_live hx hleader hphase hname hp hst)))
    · exact hfront.exec.trans (congrArg _ ((runFirmware_resume hop).trans (doResume_of_paused (s := s1) hfront.alone hx hleader hphase hname hp hst)))
    · exact hfront.exec.trans (congrArg _ ((runFirmware_query hop hin).trans (doQuery_of_named hostOk hname hp haligned)))
  · intro s c rest x hfront s1 n hx hleader hphase
    refine ⟨fun img j hop hp himg hchecks hfree hn => ?_, fun q hop hp hq htenant hused => ?_⟩
    · have hdo := (runFirmware_pin hop).trans (doPin_ok hx hleader hp himg hchecks hfree)
      have hpartition : (pinFields s1 n c.ring x img c.p).partition.toNat = n := Nat.mod_eq_of_lt hn
      obtain ⟨hentry, hparts⟩ := admitRequest_stores (s := s1) (i := j) hfront.alone hpartition hx hphase
      exact ⟨_, _, hfront.exec.trans (congrArg _ hdo), (hentry j).trans (if_pos rfl), rfl, rfl, rfl, rfl, rfl, fun k hk => (hentry k).trans (if_neg hk),
        (hparts n).trans (if_pos rfl), fun k hk => (hparts k).trans (if_neg hk)⟩
    · have hdo := runFirmware_unpin (s := s1) hop
      obtain ⟨y, hy, hretiring, htable⟩ := doUnpin_of_used (s := s1) hfront.alone hx hphase hp hq htenant hused
      exact ⟨_, y, hfront.exec.trans (congrArg _ hdo), hy, hretiring, htable⟩

end Sys2Proof.Machine
end

section
/-! SUPPORT. Accesses through the register window: errors, halves, counters and paired registers (R287-R292, R298, R299). -/

namespace Sys2Proof.Machine

open Sys2Proof

/-! ## Words -/

theorem getLsbD_low32 : ∀ i < 64, (0xFFFFFFFF : Word64).getLsbD i = decide (i < 32) := by decide

theorem getLsbD_top2 : ∀ i < 64, (0xC000000000000000 : Word64).getLsbD i = (decide (i = 62) || decide (i = 63)) := by decide

theorem high_half (v : Word64) : v &&& ~~~(0xFFFFFFFF : Word64) = v >>> 32 <<< 32 := by
  apply BitVec.eq_of_getLsbD_eq
  intro i hi
  rw [BitVec.getLsbD_and, BitVec.getLsbD_not, getLsbD_low32 i hi, BitVec.getLsbD_shiftLeft, BitVec.getLsbD_ushiftRight]
  by_cases h : i < 32
  · simp [h]
  · simp [h, hi, show 32 + (i - 32) = i by omega]

theorem low_half (v : Word32) : (v.setWidth 64 : Word64) &&& 0xFFFFFFFF = v.setWidth 64 := by
  apply BitVec.eq_of_getLsbD_eq
  intro i hi
  rw [BitVec.getLsbD_and, getLsbD_low32 i hi, BitVec.getLsbD_setWidth]
  by_cases h : i < 32
  · simp [h]
  · simp [h, BitVec.getLsbD_of_ge v i (by omega)]

/-- A held half is there: its top bit marks it, its low 32 bits are the half (R289, R290). -/
theorem held_mark {n : Nat} (h : n < 2 ^ 32) : (BitVec.ofNat 33 (2 ^ 32 + n)).getLsbD 32 = true := by
  rw [BitVec.getLsbD_ofNat, Nat.testBit_two_pow_add_eq, Nat.testBit_lt_two_pow h]
  rfl

theorem held_half {n : Nat} (h : n < 2 ^ 32) : (((BitVec.ofNat 33 (2 ^ 32 + n)).setWidth 32 : Word32).setWidth 64 : Word64) = BitVec.ofNat 64 n := by
  apply BitVec.eq_of_toNat_eq
  simp only [BitVec.toNat_setWidth, BitVec.toNat_ofNat]
  omega

/-- The bytes of a number that is written out in base 256. -/
theorem testBit_byteSum {c : Nat → Nat} (hc : ∀ i, c i < 2 ^ 8) (n : Nat) : ((List.range n).map (fun k => c k * 2 ^ (8 * k))).sum < 2 ^ (8 * n) ∧
    ∀ i < n, ∀ j < 8, ((List.range n).map (fun k => c k * 2 ^ (8 * k))).sum.testBit (8 * i + j) = (c i).testBit j := by
  induction n with
  | zero => exact ⟨Nat.zero_lt_one, fun i hi => absurd hi (Nat.not_lt_zero i)⟩
  | succ n ih =>
    obtain ⟨hlt, hbits⟩ := ih
    have hlast := hc n
    rw [List.range_succ, List.map_append, List.sum_append, List.map_cons, List.map_nil, List.sum_cons, List.sum_nil, Nat.add_zero, Nat.add_comm, Nat.mul_comm (c n)]
    refine ⟨?_, fun i hi j hj => ?_⟩
    · rw [show 8 * (n + 1) = 8 * n + 8 by omega, Nat.pow_add]
      calc 2 ^ (8 * n) * c n + _ < 2 ^ (8 * n) * c n + 2 ^ (8 * n) := Nat.add_lt_add_left hlt _
        _ = 2 ^ (8 * n) * (c n + 1) := rfl
        _ ≤ 2 ^ (8 * n) * 2 ^ 8 := Nat.mul_le_mul_left _ hlast
    · rw [Nat.testBit_two_pow_mul_add _ hlt]
      by_cases hin : i = n
      · subst hin
        rw [if_neg (by omega), Nat.add_sub_cancel_left]
      · rw [if_pos (by omega), hbits i (by omega) j hj]

/-- The mask of a narrow read keeps whole bytes (R288). -/
theorem getLsbD_beMask (be : BitVec 8) {i j : Nat} (hi : i < 8) (hj : j < 8) : (beMask be).getLsbD (8 * i + j) = be.getLsbD i := by
  have hsum : (List.range 8).map (fun i => if be.getLsbD i then 0xFF * 2 ^ (8 * i) else 0) = (List.range 8).map (fun k => (if be.getLsbD k then 0xFF else 0) * 2 ^ (8 * k)) :=
    List.map_congr_left fun k _ => by split <;> simp
  have hones : ∀ j < 8, Nat.testBit 255 j = true := by decide
  rw [beMask, BitVec.getLsbD_ofNat, hsum, (testBit_byteSum (c := fun k => if be.getLsbD k then 0xFF else 0) (fun k => by split <;> decide) 8).2 i hi j hj,
    decide_eq_true (by omega), Bool.true_and]
  split
  · next h => rw [h, hones j hj]
  · next h => rw [Bool.not_eq_true _ |>.mp h, Nat.zero_testBit]

/-- A narrow read returns the register's bytes at the enabled places (R288). -/
theorem extract_narrow (v : Word64) (be : BitVec 8) {i j : Nat} (hi : i < 8) (hbe : be.getLsbD i = true) (hplace : i = firstByte be + j) :
    ((v &&& beMask be) >>> (8 * firstByte be)).extractLsb' (8 * j) 8 = v.extractLsb' (8 * i) 8 := by
  apply BitVec.eq_of_getLsbD_eq
  intro b hb
  rw [BitVec.getLsbD_extractLsb', BitVec.getLsbD_extractLsb', BitVec.getLsbD_ushiftRight, BitVec.getLsbD_and,
    show 8 * firstByte be + (8 * j + b) = 8 * i + b by omega, getLsbD_beMask be hi hb, hbe, Bool.and_true]

/-! ## ERR_ACCESS -/

section
variable (s : State) (fn kind bar off : Nat)

theorem errAccess_frame : { errAccess s fn kind bar off with funcs := s.funcs } = s := rfl

theorem getFunc_errAccess_other {g : Nat} (h : g ≠ fn) : getFunc (errAccess s fn kind bar off) g = getFunc s g := (getFunc_modFunc ..).trans (if_neg h)

theorem getFunc_errAccess_same : { getFunc (errAccess s fn kind bar off) fn with errAccess := (getFunc s fn).errAccess } = getFunc s fn := by
  rw [errAccess, getFunc_modFunc, if_pos rfl]
  split <;> rfl

/-- A first error is recorded (R292). -/
theorem errAccess_first (hkind : kind < 16) (hbar : bar < 4) (h : bit (getFunc s fn).errAccess 63 = false) :
    let w := (getFunc (errAccess s fn kind bar off) fn).errAccess
    bit w 63 = true ∧ bit w 62 = bit (getFunc s fn).errAccess 62 ∧ bits w 55 52 = kind ∧ bits w 51 50 = bar ∧ bits w 39 0 = off % 2 ^ 40 := by
  intro w
  have hw : w = BitVec.ofNat 64 (2 ^ 63 + (if bit (getFunc s fn).errAccess 62 then 2 ^ 62 else 0) + kind * 2 ^ 52 + bar * 2 ^ 50 + off % 2 ^ 40) := by
    show (getFunc (errAccess s fn kind bar off) fn).errAccess = _
    rw [errAccess, getFunc_modFunc, if_pos rfl, h]
    rfl
  obtain ⟨m, hm, hbit⟩ : ∃ m, (if bit (getFunc s fn).errAccess 62 then 2 ^ 62 else 0) = m * 2 ^ 62 ∧ (m = 1 ∧ bit (getFunc s fn).errAccess 62 = true ∨ m = 0 ∧ bit (getFunc s fn).errAccess 62 = false) := by
    cases bit (getFunc s fn).errAccess 62
    · exact ⟨0, rfl, .inr ⟨rfl, rfl⟩⟩
    · exact ⟨1, rfl, .inl ⟨rfl, rfl⟩⟩
  have hlow : off % 2 ^ 40 < 2 ^ 40 := Nat.mod_lt _ (by decide)
  rw [hm] at hw
  have hm1 : m ≤ 1 := by omega
  have hnat : w.toNat = 2 ^ 63 + m * 2 ^ 62 + kind * 2 ^ 52 + bar * 2 ^ 50 + off % 2 ^ 40 := by
    rw [hw, BitVec.toNat_ofNat, Nat.mod_eq_of_lt (by omega)]
  have hread (i : Nat) : bit w i = decide (w.toNat / 2 ^ i % 2 = 1) := Nat.testBit_eq_decide_div_mod_eq
  refine ⟨?_, ?_, ?_, ?_, ?_⟩
  · rw [hread, hnat]
    exact decide_eq_true (by omega)
  · rw [hread, hnat]
    obtain ⟨rfl, hb⟩ | ⟨rfl, hb⟩ := hbit
    · rw [hb]
      exact decide_eq_true (by omega)
    · rw [hb]
      exact decide_eq_false (by omega)
  · rw [bits, hnat, Nat.shiftRight_eq_div_pow]
    omega
  · rw [bits, hnat, Nat.shiftRight_eq_div_pow]
    omega
  · rw [bits, hnat, Nat.shiftRight_eq_div_pow]
    omega

/-- A further error is noted beside the record (R292). -/
theorem errAccess_again (h : bit (getFunc s fn).errAccess 63 = true) :
    let w := (getFunc (errAccess s fn kind bar off) fn).errAccess
    bit w 62 = true ∧ ∀ i, i ≠ 62 → bit w i = bit (getFunc s fn).errAccess i := by
  intro w
  have hw : w = setBit (getFunc s fn).errAccess 62 true := by
    show (getFunc (errAccess s fn kind bar off) fn).errAccess = _
    rw [errAccess, getFunc_modFunc, if_pos rfl, h]
    rfl
  rw [hw]
  refine ⟨by rw [bit_setBit, if_pos rfl]; rfl, fun i hi => by rw [bit_setBit, if_neg hi]⟩

end

/-! ## Reads -/

/-- `s'` is `s` but for what was sent and the records of function `fn`, which is enabled as before. -/
structure WindowOnly (fn : Nat) (s s' : State) : Prop where
  frame : { s' with out := s.out, funcs := s.funcs } = s
  others : ∀ g, g ≠ fn → getFunc s' g = getFunc s g
  enabled : (getFunc s' fn).enabled = (getFunc s fn).enabled

section
variable {s s' s2 : State} {fn off : Nat} {be : BitVec 8}

theorem WindowOnly.refl (fn : Nat) (s : State) : WindowOnly fn s s := ⟨rfl, fun _ _ => rfl, rfl⟩

theorem WindowOnly.trans (h : WindowOnly fn s s') (k : WindowOnly fn s' s2) : WindowOnly fn s s2 := by
  refine ⟨?_, fun g hg => (k.others g hg).trans (h.others g hg), k.enabled.trans h.enabled⟩
  exact (congrArg (fun e : State => { e with out := s.out, funcs := s.funcs }) k.frame : _).trans h.frame

theorem windowOnly_emit (fn : Nat) (s : State) (o : Out) : WindowOnly fn s (emit s o) := ⟨rfl, fun _ _ => rfl, rfl⟩

theorem windowOnly_modFunc (s : State) {f : Func → Func} (h : (f (getFunc s fn)).enabled = (getFunc s fn).enabled) : WindowOnly fn s (modFunc s fn f) :=
  ⟨rfl, fun g hg => (getFunc_modFunc ..).trans (if_neg hg), by rw [getFunc_modFunc, if_pos rfl, h]⟩

theorem windowOnly_errAccess (s : State) (fn kind bar off : Nat) : WindowOnly fn s (errAccess s fn kind bar off) :=
  windowOnly_modFunc s (by split <;> rfl)

theorem windowOnly_counterRead (s : State) (fn off : Nat) (r : Reg) (high : Bool) : WindowOnly fn s (counterRead s fn off r high) := by
  unfold counterRead
  dsimp only
  split
  · exact (windowOnly_emit fn s _).trans (windowOnly_modFunc _ rfl)
  · exact (windowOnly_emit fn s _).trans (windowOnly_modFunc _ rfl)

theorem windowOnly_regRead (s : State) (fn off : Nat) (be : BitVec 8) : WindowOnly fn s (regRead s fn off be) := by
  unfold regRead
  split
  · exact .refl fn s
  · split
    · exact (windowOnly_emit fn s _).trans (windowOnly_errAccess ..)
    · split
      · exact windowOnly_emit fn s _
      · split
        · exact windowOnly_counterRead ..
        · exact windowOnly_emit fn s _

theorem windowOnly_bar2Read (s : State) (fn off : Nat) (be : BitVec 8) : WindowOnly fn s (bar2Read s fn off be) := by
  unfold bar2Read
  split
  · exact .refl fn s
  · dsimp only
    split
    · split
      · exact windowOnly_emit fn s _
      · exact (windowOnly_emit fn s _).trans (windowOnly_errAccess ..)
    · split
      · exact (windowOnly_emit fn s _).trans (windowOnly_errAccess ..)
      · exact windowOnly_emit fn s _

/-- One of the two sides of a read (R287). -/
def sideRead (s : State) (fn : Nat) (bar2 : Bool) (off : Nat) (be : BitVec 8) : State := if bar2 then bar2Read s fn off be else regRead s fn off be

theorem windowOnly_sideRead (s : State) (fn : Nat) (bar2 : Bool) (off : Nat) (be : BitVec 8) : WindowOnly fn s (sideRead s fn bar2 off be) := by
  unfold sideRead
  split
  · exact windowOnly_bar2Read ..
  · exact windowOnly_regRead ..

theorem sideRead_nothing (s : State) (fn : Nat) (bar2 : Bool) (off : Nat) : sideRead s fn bar2 off 0 = s := by
  cases bar2
  · rfl
  · rfl

theorem WindowOnly.hostReach (h : WindowOnly fn s s') : hostReach s' fn = hostReach s fn := by
  have hmod : s'.mod = s.mod := (congrArg State.mod h.frame :)
  have hpwr : s'.pwr = s.pwr := (congrArg State.pwr h.frame :)
  unfold Machine.hostReach
  rw [hmod, hpwr, h.enabled]

end

theorem shiftRight_8 (be : BitVec 8) : be >>> 8 = 0 := BitVec.eq_of_toNat_eq (by rw [BitVec.toNat_ushiftRight, Nat.shiftRight_eq_div_pow]; exact Nat.div_eq_of_lt be.isLt)

section
variable {s : State} {fn : Fin 65}

theorem exec_unmappedRead (hlink : hostReach s fn = true) (bar2 : Bool) (offset : Nat) (be : BitVec 8) :
    exec (.unmappedRead fn ⟨bar2, offset, be⟩) s =
      .next (sideRead (sideRead s fn bar2 (offset / 8 * 8) (be <<< (offset % 8))) fn bar2 (offset / 8 * 8 + 8) (be >>> (8 - offset % 8))) := by
  show execUnmappedRead fn ⟨bar2, offset, be⟩ s = _
  rw [execUnmappedRead, if_pos hlink]
  rfl

/-- A read within one register has one side. -/
theorem exec_unmappedRead_aligned (hlink : hostReach s fn = true) (bar2 : Bool) (k : Nat) (be : BitVec 8) :
    exec (.unmappedRead fn ⟨bar2, 8 * k, be⟩) s = .next (sideRead s fn bar2 (8 * k) be) := by
  rw [exec_unmappedRead hlink, show 8 * k % 8 = 0 by omega, show 8 * k / 8 * 8 = 8 * k by omega, BitVec.shiftLeft_zero, Nat.sub_zero, shiftRight_8, sideRead_nothing]

theorem unmappedRead_split (hlink : hostReach s fn = true) (bar2 : Bool) (offset : Nat) (be : BitVec 8) :
    ∃ s', exec (.unmappedRead fn ⟨bar2, offset, be⟩) s = .next s' ∧ { s' with out := s.out, funcs := s.funcs } = s ∧ (∀ g : Nat, g ≠ fn.val → getFunc s' g = getFunc s g) ∧
      ∃ s1, exec (.unmappedRead fn ⟨bar2, offset / 8 * 8, be <<< (offset % 8)⟩) s = .next s1 ∧
        exec (.unmappedRead fn ⟨bar2, offset / 8 * 8 + 8, be >>> (8 - offset % 8)⟩) s1 = .next s' := by
  have hlow := windowOnly_sideRead s fn bar2 (offset / 8 * 8) (be <<< (offset % 8))
  have hboth := hlow.trans (windowOnly_sideRead _ fn bar2 (offset / 8 * 8 + 8) (be >>> (8 - offset % 8)))
  refine ⟨_, exec_unmappedRead hlink bar2 offset be, hboth.frame, hboth.others, sideRead s fn bar2 (offset / 8 * 8) (be <<< (offset % 8)), ?_, ?_⟩
  · rw [Nat.mul_comm (offset / 8) 8]
    exact exec_unmappedRead_aligned hlink bar2 (offset / 8) _
  · have h := exec_unmappedRead_aligned (hlow.hostReach.trans hlink) bar2 (offset / 8 + 1) (be >>> (8 - offset % 8))
    rw [show 8 * (offset / 8 + 1) = offset / 8 * 8 + 8 by omega] at h
    exact h

theorem firstByte_all : firstByte 0xFF = 0 := by decide

theorem regRead_unmapped {off : Nat} {be : BitVec 8} (hbe : be ≠ 0) (h : regAt s fn off = none) :
    regRead s fn off be = errAccess (emit s (.readData fn 0 (off + firstByte be) 0)) fn 1 0 (off + firstByte be) := by
  rw [regRead, if_neg hbe, h]

theorem regRead_whole {off : Nat} {r : Reg} (h : regAt s fn off = some r) : regRead s fn off 0xFF = emit s (.readData fn 0 off (regValue s fn r)) := by
  rw [regRead, if_neg (by decide), h]
  exact if_pos rfl

theorem regRead_narrow {off : Nat} {be : BitVec 8} {r : Reg} (hbe : be ≠ 0) (h : regAt s fn off = some r) (hnarrow : be ≠ 0xFF)
    (hplain : (be ≠ 0x0F ∧ be ≠ 0xF0) ∨ regCounter r = false) :
    regRead s fn off be = emit s (.readData fn 0 (off + firstByte be) ((regValue s fn r &&& beMask be) >>> (8 * firstByte be))) := by
  rw [regRead, if_neg hbe, h]
  dsimp only
  rw [if_neg hnarrow, if_neg]
  rintro ⟨hhalf, hcounter⟩
  obtain ⟨hlow, hhigh⟩ | hno := hplain
  · exact hhalf.elim hlow hhigh
  · rw [hno] at hcounter
    cases hcounter

theorem bar2Read_doorbell {off : Nat} {be : BitVec 8} (hbe : be ≠ 0) (hoff : off < 0x1000000) (h : doorbellHere s fn off = true) :
    bar2Read s fn off be = emit s (.readData fn 1 (off + firstByte be) 0) := by
  rw [bar2Read, if_neg hbe]
  dsimp only
  rw [if_pos hoff, if_pos h]

theorem bar2Read_no_doorbell {off : Nat} {be : BitVec 8} (hbe : be ≠ 0) (hoff : off < 0x1000000) (h : doorbellHere s fn off = false) :
    bar2Read s fn off be = errAccess (emit s (.readData fn 1 (off + firstByte be) 0)) fn 1 1 (off + firstByte be) := by
  rw [bar2Read, if_neg hbe]
  dsimp only
  rw [if_pos hoff, h, if_neg (by decide)]

theorem readBytes_eq_map (m : SMap 8) (n a : Nat) : readBytes m a n = (List.range n).map (fun i => smGet m (a + i)) := by
  induction n generalizing a with
  | zero => rfl
  | succ n ih =>
    rw [readBytes, ih, List.range_succ_eq_map, List.map_cons, List.map_map]
    exact congrArg _ (List.map_congr_left fun i _ => by rw [Function.comp_apply, show a + 1 + i = a + i.succ by omega])

/-- A whole read of push memory within the function's part (R299). -/
theorem bar2Read_push {off : Nat} (hready : s.ready = true) (hoff : 0x1000000 ≤ off) (hin : off + 8 - 0x1000000 ≤ (pushPart s fn).2) :
    bar2Read s fn off 0xFF = emit s (.readData fn 1 off (readLE s.push ((pushPart s fn).1 + (off - 0x1000000)) 8 64)) := by
  have hones : ∀ i < 8, (0xFF : BitVec 8).getLsbD i = true := by decide
  have hin' (i : Nat) (hi : i ∈ List.range 8) : ((0xFF : BitVec 8).getLsbD i && (s.ready && decide (off + i - 0x1000000 < (pushPart s fn).2))) = true ∧
      off + i - 0x1000000 = off - 0x1000000 + i := by
    have hlt := List.mem_range.1 hi
    rw [hones i hlt, hready, decide_eq_true (by omega)]
    exact ⟨rfl, by omega⟩
  have hfind : (List.range 8).find? (fun i => (0xFF : BitVec 8).getLsbD i && !(s.ready && decide (off + i - 0x1000000 < (pushPart s fn).2))) = none :=
    List.find?_eq_none.2 fun i hi => by rw [(Bool.and_eq_true_iff.1 (hin' i hi).1).2, Bool.not_true, Bool.and_false]; exact Bool.false_ne_true
  have hbytes : (List.range 8).map (fun i => if (0xFF : BitVec 8).getLsbD i && (s.ready && decide (off + i - 0x1000000 < (pushPart s fn).2)) then
      smGet s.push ((pushPart s fn).1 + (off + i - 0x1000000)) else 0) = readBytes s.push ((pushPart s fn).1 + (off - 0x1000000)) 8 := by
    rw [readBytes_eq_map]
    refine List.map_congr_left fun i hi => ?_
    rw [if_pos (hin' i hi).1, (hin' i hi).2, Nat.add_assoc]
  rw [bar2Read, if_neg (by decide)]
  dsimp only
  rw [if_neg (by omega), firstByte_all, hfind, hbytes, Nat.mul_zero, BitVec.ushiftRight_zero, Nat.add_zero, readLE]

/-! ## Counters -/

theorem counterRead_low (s : State) (fn off : Nat) (r : Reg) : counterRead s fn off r false = modFunc (emit s (.readData fn 0 off (regValue s fn r &&& 0xFFFFFFFF))) fn
    (fun f => { f with snaps := smSet f.snaps off (BitVec.ofNat 33 (2 ^ 32 + (regValue s fn r >>> 32).toNat)) }) := rfl

/-- The half that a snapshot of `v` holds comes back (R290). -/
theorem snapshot_half (v : Word64) : let snap := BitVec.ofNat 33 (2 ^ 32 + (v >>> 32).toNat)
    (if snap.getLsbD 32 then (snap.setWidth 32 : Word32).setWidth 64 else (0 : Word64)) = v >>> 32 ∧ snap.getLsbD 32 = true := by
  have hhigh : (v >>> 32).toNat < 2 ^ 32 := by
    have := v.isLt
    rw [BitVec.toNat_ushiftRight, Nat.shiftRight_eq_div_pow]
    omega
  intro snap
  have hmark : snap.getLsbD 32 = true := held_mark hhigh
  rw [hmark, if_pos rfl, held_half hhigh, BitVec.ofNat_toNat, BitVec.setWidth_eq]
  exact ⟨rfl, rfl⟩

theorem counterRead_high_of_snapshot {t : State} {f off : Nat} {r : Reg} {v : Word64} (h : smGet (getFunc t f).snaps off = BitVec.ofNat 33 (2 ^ 32 + (v >>> 32).toNat)) :
    counterRead t f off r true = modFunc (emit t (.readData f 0 (off + 4) (v >>> 32))) f (fun g => { g with snaps := smSet g.snaps off 0 }) := by
  obtain ⟨hhalf, hmark⟩ := snapshot_half v
  unfold counterRead
  dsimp only
  rw [if_neg (by decide), h, if_pos hmark]
  rw [if_pos hmark] at hhalf
  rw [hhalf]

theorem exec_counterLowRead {offset : Nat} {r : Reg} (hlink : hostReach s fn = true) (hreg : regAt s fn (offset / 8 * 8) = some r) (hcounter : regCounter r = true) :
    exec (.counterLowRead fn offset) s = .next (counterRead s fn (offset / 8 * 8) r (decide (4 ≤ offset % 8))) := by
  show execCounterLowRead fn offset s = _
  unfold execCounterLowRead
  rw [hlink, if_neg (by decide)]
  dsimp only
  rw [hreg]
  dsimp only
  rw [if_pos hcounter]

theorem counterLowRead_low {offset : Nat} {r : Reg} (hlink : hostReach s fn = true) (hreg : regAt s fn (offset / 8 * 8) = some r) (hcounter : regCounter r = true)
    (hlow : offset % 8 < 4) :
    let off := offset / 8 * 8
    ∃ s', exec (.counterLowRead fn offset) s = .next s' ∧ s'.out = s.out ++ [.readData fn 0 off (regValue s fn r &&& 0xFFFFFFFF)] ∧
      { s' with out := s.out, funcs := s.funcs } = s ∧ (∀ g : Nat, g ≠ fn.val → getFunc s' g = getFunc s g) ∧
      ∀ t r', (getFunc t fn).snaps = (getFunc s' fn).snaps → Reaches t fn offset r' → regCounter r' = true →
        ∃ t', exec (.counterLowRead fn (off + 4)) t = .next t' ∧ t'.out = t.out ++ [.readData fn 0 (off + 4) (regValue s fn r >>> 32)] ∧
          { t' with out := t.out, funcs := t.funcs } = t ∧ smGet (getFunc t' fn).snaps off = 0 := by
  intro off
  have hexec := exec_counterLowRead hlink hreg hcounter
  rw [decide_eq_false (by omega)] at hexec
  have honly := windowOnly_counterRead s fn off r false
  refine ⟨_, hexec, rfl, honly.frame, honly.others, fun t r' hsnaps hreach hcounter' => ?_⟩
  have hoff : (off + 4) / 8 * 8 = off := by omega
  have hread := exec_counterLowRead (offset := off + 4) hreach.link (by rw [hoff]; exact hreach.reg) hcounter'
  have hsnap : smGet (getFunc t fn).snaps off = BitVec.ofNat 33 (2 ^ 32 + (regValue s fn r >>> 32).toNat) := by
    rw [hsnaps, counterRead_low, getFunc_modFunc, if_pos rfl]
    exact smGet_smSet_self ..
  rw [hoff, decide_eq_true (by omega), counterRead_high_of_snapshot hsnap] at hread
  refine ⟨_, hread, rfl, rfl, ?_⟩
  rw [getFunc_modFunc, if_pos rfl]
  generalize emit t _ = t1
  exact smGet_smSet_self (getFunc t1 fn).snaps off 0

end

/-! ## Writes -/

theorem regWrite_nothing (s : State) (fn off : Nat) (v : Word64) : regWrite s fn off 0 v = s := rfl

section
variable {s : State} {fn : Fin 65}

theorem exec_registerWrite (hlink : hostReach s fn = true) (offset : Nat) (be : BitVec 8) (v : Word64) :
    exec (.registerWrite fn offset be v) s = .next (regWrite (regWrite s fn (offset / 8 * 8) (be <<< (offset % 8)) (v <<< (8 * (offset % 8)))) fn
      (offset / 8 * 8 + 8) (be >>> (8 - offset % 8)) (v >>> (8 * (8 - offset % 8)))) := by
  show execRegisterWrite fn offset be v s = _
  unfold execRegisterWrite
  dsimp only
  rw [if_pos hlink]

theorem exec_registerWrite_aligned (hlink : hostReach s fn = true) (k : Nat) (be : BitVec 8) (v : Word64) :
    exec (.registerWrite fn (8 * k) be v) s = .next (regWrite s fn (8 * k) be v) := by
  rw [exec_registerWrite hlink, show 8 * k % 8 = 0 by omega, show 8 * k / 8 * 8 = 8 * k by omega, BitVec.shiftLeft_zero, Nat.mul_zero, BitVec.shiftLeft_zero, Nat.sub_zero,
    shiftRight_8, regWrite_nothing]

theorem registerWrite_split (hlink : hostReach s fn = true) (offset : Nat) (be : BitVec 8) (v : Word64) :
    ∃ s' s1, exec (.registerWrite fn offset be v) s = .next s' ∧ exec (.registerWrite fn (offset / 8 * 8) (be <<< (offset % 8)) (v <<< (8 * (offset % 8)))) s = .next s1 ∧
      (hostReach s1 fn = true → exec (.registerWrite fn (offset / 8 * 8 + 8) (be >>> (8 - offset % 8)) (v >>> (8 * (8 - offset % 8)))) s1 = .next s') := by
  refine ⟨_, regWrite s fn (offset / 8 * 8) (be <<< (offset % 8)) (v <<< (8 * (offset % 8))), exec_registerWrite hlink offset be v, ?_, fun hlink1 => ?_⟩
  · rw [Nat.mul_comm (offset / 8) 8]
    exact exec_registerWrite_aligned hlink (offset / 8) _ _
  · have h := exec_registerWrite_aligned hlink1 (offset / 8 + 1) (be >>> (8 - offset % 8)) (v >>> (8 * (8 - offset % 8)))
    rw [show 8 * (offset / 8 + 1) = offset / 8 * 8 + 8 by omega] at h
    exact h

end

section
variable {s : State} {fn off : Nat} {be : BitVec 8} {r : Reg}

theorem regWrite_unmapped (hbe : be ≠ 0) (h : regAt s fn (off / 8 * 8) = none) (v : Word64) : regWrite s fn off be v = errAccess s fn 2 0 (firstByteAt off be) := by
  unfold regWrite
  dsimp only
  rw [if_neg hbe, h]
  rfl

theorem regWrite_ragged (hbe : be ≠ 0) (h : regAt s fn (off / 8 * 8) = some r) (hragged : be ≠ 0xFF ∧ be ≠ 0x0F ∧ be ≠ 0xF0) (v : Word64) :
    regWrite s fn off be v = errAccess s fn 3 0 (firstByteAt off be) := by
  unfold regWrite
  dsimp only
  rw [if_neg hbe, h]
  dsimp only
  rw [if_pos hragged]
  rfl

theorem half_ne_zero (hbe : be = 0xFF ∨ be = 0x0F ∨ be = 0xF0) : be ≠ 0 := by
  rintro rfl
  simp at hbe

theorem half_not_ragged (hbe : be = 0xFF ∨ be = 0x0F ∨ be = 0xF0) : ¬ (be ≠ 0xFF ∧ be ≠ 0x0F ∧ be ≠ 0xF0) := by
  rintro ⟨hall, hlow, hhigh⟩
  exact hbe.elim hall (Or.elim · hlow hhigh)

theorem regWrite_barred {k : Nat} (hbe : be = 0xFF ∨ be = 0x0F ∨ be = 0xF0) (h : regAt s fn (off / 8 * 8) = some r) (hbar : regBarred s fn r = some k) (v : Word64) :
    regWrite s fn off be v = errAccess s fn k 0 (firstByteAt off be) := by
  unfold regWrite
  dsimp only
  rw [if_neg (half_ne_zero hbe), h]
  dsimp only
  rw [if_neg (half_not_ragged hbe), hbar]
  rfl

theorem regWrite_plain (hbe : be = 0xFF ∨ be = 0x0F ∨ be = 0xF0) (h : regAt s fn (off / 8 * 8) = some r) (hbar : regBarred s fn r = none) (hpaired : regPaired r = false) (v : Word64) :
    regWrite s fn off be v = applyWrite s fn r (if be = 0xFF then BitVec.allOnes 64 else if be = 0x0F then 0xFFFFFFFF else 0xFFFFFFFF00000000) v (firstByteAt off be) := by
  unfold regWrite
  dsimp only
  rw [if_neg (half_ne_zero hbe), h]
  dsimp only
  rw [if_neg (half_not_ragged hbe), hbar]
  dsimp only
  rw [hpaired]
  rfl

/-- A paired register written whole forgets a held half (R289). -/
theorem regWrite_paired_whole (h : regAt s fn (off / 8 * 8) = some r) (hbar : regBarred s fn r = none) (hpaired : regPaired r = true) (v : Word64) :
    regWrite s fn off 0xFF v = applyWrite (dropHeld s fn (off / 8 * 8)) fn r (BitVec.allOnes 64) v (off / 8 * 8) := by
  unfold regWrite
  dsimp only
  rw [if_neg (by decide), h]
  dsimp only
  rw [if_neg (by decide), hbar]
  dsimp only
  rw [hpaired, if_pos rfl, if_pos rfl]
  rfl

theorem regWrite_paired_low (h : regAt s fn (off / 8 * 8) = some r) (hbar : regBarred s fn r = none) (hpaired : regPaired r = true) (v : Word64) :
    regWrite s fn off 0x0F v = modFunc s fn (fun f => { f with heldLow := smSet f.heldLow (off / 8 * 8) (BitVec.ofNat 33 (2 ^ 32 + (v &&& 0xFFFFFFFF).toNat)) }) := by
  unfold regWrite
  dsimp only
  rw [if_neg (by decide), h]
  dsimp only
  rw [if_neg (by decide), hbar]
  dsimp only
  rw [hpaired, if_pos rfl, if_neg (by decide), if_pos rfl]

/-- The high half of a paired register is written with the half that is held (R289). -/
theorem regWrite_paired_high {lo : Word32} (h : regAt s fn (off / 8 * 8) = some r) (hbar : regBarred s fn r = none) (hpaired : regPaired r = true) (v : Word64)
    (hheld : smGet (getFunc s fn).heldLow (off / 8 * 8) = BitVec.ofNat 33 (2 ^ 32 + lo.toNat)) :
    regWrite s fn off 0xF0 v = applyWrite (dropHeld s fn (off / 8 * 8)) fn r (BitVec.allOnes 64) ((v >>> 32 <<< 32) ||| lo.setWidth 64) (off / 8 * 8 + 4) := by
  have hlow : BitVec.ofNat 64 lo.toNat = lo.setWidth 64 := BitVec.eq_of_toNat_eq (by simp)
  unfold regWrite
  dsimp only
  rw [if_neg (by decide), h]
  dsimp only
  rw [if_neg (by decide), hbar]
  dsimp only
  rw [hpaired, if_pos rfl, if_neg (by decide), if_neg (by decide), hheld, if_pos (held_mark lo.isLt), held_half lo.isLt, high_half, hlow]
  rfl

end

/-- The bits of ERR_ACCESS written 1 are cleared (R292). -/
theorem bit_errAccess_cleared (w v : Word64) {i : Nat} (hi : i < 64) :
    bit (w &&& ~~~(v &&& BitVec.allOnes 64 &&& 0xC000000000000000)) i = (bit w i && !(bit v i && (i = 62 || i = 63))) := by
  rw [bit, BitVec.getLsbD_and, BitVec.getLsbD_not, BitVec.getLsbD_and, BitVec.getLsbD_and, getLsbD_top2 i hi, BitVec.getLsbD_allOnes, bit, bit]
  simp [hi]

theorem regAt_aligned (s : State) (fn off : Nat) : regAt s fn (off / 8 * 8) = regAt s fn off := by
  unfold regAt
  rw [show off / 8 * 8 / 8 * 8 = off / 8 * 8 by omega]

theorem pairedLowWrite_then_high {s : State} {fn : Fin 65} {offset : Nat} {r : Reg} (lo : Word32) (v : Word64) (hlink : hostReach s fn = true)
    (hreg : regAt s fn (offset / 8 * 8) = some r) (hpaired : regPaired r = true) (hbar : regBarred s fn r = none) :
    ∃ s', exec (.pairedLowWrite fn offset lo) s = .next s' ∧ { s' with funcs := s.funcs } = s ∧ (∀ g : Nat, g ≠ fn.val → getFunc s' g = getFunc s g) ∧
      ∀ t, (getFunc t fn).heldLow = (getFunc s' fn).heldLow → Reaches t fn offset r → regBarred t fn r = none →
        exec (.registerWrite fn (offset / 8 * 8) 0xF0 v) t = .next (applyWrite (dropHeld t fn (offset / 8 * 8)) fn r (BitVec.allOnes 64) ((v >>> 32 <<< 32) ||| lo.setWidth 64) (offset / 8 * 8 + 4)) := by
  have hexec : exec (.pairedLowWrite fn offset lo) s = .next (regWrite s fn offset 0x0F (lo.setWidth 64)) := by
    show execPairedLowWrite fn offset lo s = _
    unfold execPairedLowWrite
    rw [← regAt_aligned, hreg]
    dsimp only
    rw [if_pos ⟨hlink, hpaired⟩]
  rw [regWrite_paired_low hreg hbar hpaired, low_half] at hexec
  refine ⟨_, hexec, rfl, fun g hg => (getFunc_modFunc ..).trans (if_neg hg), fun t hheld hreach hbar' => ?_⟩
  have hhalf : smGet (getFunc t fn).heldLow (offset / 8 * 8) = BitVec.ofNat 33 (2 ^ 32 + lo.toNat) := by
    rw [hheld, getFunc_modFunc, if_pos rfl]
    refine (smGet_smSet_self ..).trans ?_
    rw [BitVec.toNat_setWidth, Nat.mod_eq_of_lt (show lo.toNat < 2 ^ 64 by have := lo.isLt; omega)]
  rw [Nat.mul_comm (offset / 8) 8]
  refine (exec_registerWrite_aligned hreach.link (offset / 8) _ _).trans ?_
  have hoff : 8 * (offset / 8) / 8 * 8 = offset / 8 * 8 := by omega
  rw [regWrite_paired_high (off := 8 * (offset / 8)) (by rw [hoff]; exact hreach.reg) hbar' hpaired v (by rw [hoff]; exact hhalf), hoff, Nat.mul_comm 8]

/-- Settles O28: each kind of access, by the case of the window's rule that it falls under. -/
theorem windowAccesses : Obligations.WindowAccesses := by
  unfold Obligations.WindowAccesses
  refine ⟨fun s fn kind bar off hkind hbar => ?_, fun fn bar2 offset be s hlink => unmappedRead_split hlink bar2 offset be, fun fn k be s hlink hbe => ?_,
    fun fn offset s r hlink hreg hcounter => ⟨fun hhigh => ?_, fun hlow => counterLowRead_low hlink hreg hcounter hlow⟩,
    fun fn offset be v s hlink => registerWrite_split hlink offset be v, fun fn k s hlink => ?_,
    fun fn offset lo v s r hlink hreg hpaired hbar => pairedLowWrite_then_high lo v hlink hreg hpaired hbar⟩
  · exact ⟨errAccess_frame .., fun g hg => getFunc_errAccess_other s fn kind bar off hg, getFunc_errAccess_same .., errAccess_first s fn kind bar off hkind hbar,
      errAccess_again s fn kind bar off⟩
  · intro off first
    have hread (bar2 : Bool) (be : BitVec 8) := exec_unmappedRead_aligned hlink bar2 k be
    refine ⟨fun h => (hread ..).trans (congrArg _ (regRead_unmapped hbe h)), fun r h hall => ?_, fun r h hnarrow hplain => ?_,
      fun hoff h => (hread ..).trans (congrArg _ (bar2Read_doorbell hbe hoff h)), fun hoff h => (hread ..).trans (congrArg _ (bar2Read_no_doorbell hbe hoff h)),
      fun hready hoff hin hall => ?_⟩
    · subst hall
      exact (hread ..).trans (congrArg _ (regRead_whole h))
    · exact ⟨_, (hread ..).trans (congrArg _ (regRead_narrow hbe h hnarrow hplain)), fun i hi j hj hen hplace => extract_narrow _ be hi hen hplace⟩
    · subst hall
      exact (hread ..).trans (congrArg _ (bar2Read_push hready hoff hin))
  · have hexec := exec_counterLowRead hlink hreg hcounter
    have honly := windowOnly_counterRead s fn (offset / 8 * 8) r true
    rw [decide_eq_true hhigh] at hexec
    exact ⟨_, hexec, honly.frame, _, rfl⟩
  · intro off
    have hoff : off / 8 * 8 = off := by omega
    have hwrite := exec_registerWrite_aligned hlink k
    rw [← hoff]
    refine ⟨fun be v hbe h => ?_, fun be v r h hbe hall hlow hhigh => ?_, fun be v r n h hbe hbar => ?_, fun be v r h hbe hbar hpaired => ?_, fun v h => ?_, fun v r h hpaired hbar => ?_⟩
    · rw [hoff]
      exact (hwrite be v).trans (congrArg _ (regWrite_unmapped hbe h v))
    · rw [hoff]
      exact (hwrite be v).trans (congrArg _ (regWrite_ragged hbe h ⟨hall, hlow, hhigh⟩ v))
    · rw [hoff]
      exact (hwrite be v).trans (congrArg _ (regWrite_barred hbe h hbar v))
    · rw [hoff]
      exact (hwrite be v).trans (congrArg _ (regWrite_plain hbe h hbar hpaired v))
    · rw [hoff]
      refine ⟨_, (hwrite 0xFF v).trans (congrArg _ (regWrite_plain (.inl rfl) h rfl rfl v)), rfl, fun i hi => ?_⟩
      show bit (getFunc (modFunc s fn _) fn).errAccess i = _
      rw [getFunc_modFunc, if_pos rfl]
      exact bit_errAccess_cleared _ v hi
    · rw [hoff]
      refine (hwrite 0xFF v).trans (congrArg _ ?_)
      have hwhole := regWrite_paired_whole (off := off) h hbar hpaired v
      rw [hoff] at hwhole
      exact hwhole

end Sys2Proof.Machine
end

section
/-! SUPPORT. Writes of RING_CFG, of a port's FENCED bit and of KETTLE_CTL.OFF (R297, R354, R356, R410, R421). -/

namespace Sys2Proof.Machine

open Sys2Proof

/-! ## RING_CFG -/

section
variable {s : State} {fn n off : Nat} {v : Word64}

/-- Setting ENABLE of a ring that is off zeroes its counts (R297). -/
theorem writeRingCfg_enable (halone : mirroring s = false) (hoff : ringEnabled (getRing s n) = false) (hset : bit (v &&& cfgMask) 63 = true)
    (hok : enableOk s fn n (v &&& cfgMask) = true) : writeRingCfg s fn n v off =
      modRing s n (fun x => { x with cfg := v &&& cfgMask, head := 0, tail := 0, live := [], unread := [], unsignalled := 0, intDue := false }) := by
  unfold writeRingCfg
  dsimp only
  rw [hoff, if_neg (by decide), if_pos hset, if_pos hok]
  exact mirrorRing_of_alone ((ringsOnly_modRing s n _).mirroring.trans halone) n

/-- The only change that RING_CFG takes while ENABLE is set is to clear it (R297). -/
theorem writeRingCfg_same (halone : mirroring s = false) (hon : ringEnabled (getRing s n) = true) (hsame : (v &&& cfgMask ^^^ (getRing s n).cfg) &&& 0x7FFFFFFFFFFFFFFF = 0) :
    writeRingCfg s fn n v off = modRing s n (fun x => { x with cfg := v &&& cfgMask }) := by
  unfold writeRingCfg
  dsimp only
  rw [hon, if_pos rfl, if_neg (not_not.2 hsame)]
  exact mirrorRing_of_alone ((ringsOnly_modRing s n _).mirroring.trans halone) n

theorem writeRingCfg_other (hon : ringEnabled (getRing s n) = true) (hother : (v &&& cfgMask ^^^ (getRing s n).cfg) &&& 0x7FFFFFFFFFFFFFFF ≠ 0) :
    writeRingCfg s fn n v off = errAccess s fn 6 0 off := by
  unfold writeRingCfg
  dsimp only
  rw [hon, if_pos rfl, if_pos hother]

end

theorem bit_cfgMask_top (v : Word64) : bit (v &&& cfgMask) 63 = bit v 63 := by
  have hmask : cfgMask.getLsbD 63 = true := by decide
  rw [bit, BitVec.getLsbD_and, hmask, Bool.and_true, bit]

theorem clear_enable_only (x : Word64) : (setBit x 63 false ^^^ x) &&& 0x7FFFFFFFFFFFFFFF = 0 := by
  have hmask : ∀ i < 64, (0x7FFFFFFFFFFFFFFF : Word64).getLsbD i = decide (i ≠ 63) := by decide
  apply BitVec.eq_of_getLsbD_eq
  intro i hi
  rw [BitVec.getLsbD_and, BitVec.getLsbD_xor, hmask i hi]
  by_cases h : i = 63
  · simp [h]
  · have hother : (setBit x 63 false).getLsbD i = x.getLsbD i := (bit_setBit x (i := i) (j := 63) false).trans (if_neg h)
    rw [hother]
    simp

/-- A whole write of a ring's RING_CFG. -/
theorem regWrite_ringCfg {s : State} {fn i n : Nat} (hreg : regAt s fn ((0x100000 + 64 * i) / 8 * 8) = some (.ring n 0)) (hbar : regBarred s fn (.ring n 0) = none) (v : Word64) :
    regWrite s fn (0x100000 + 64 * i) 0xFF v = writeRingCfg (dropHeld s fn (0x100000 + 64 * i)) fn n v (0x100000 + 64 * i) := by
  have haligned : (0x100000 + 64 * i) / 8 * 8 = 0x100000 + 64 * i := by omega
  have hwrite := regWrite_paired_whole hreg hbar rfl v
  rw [haligned] at hwrite
  exact hwrite

section
variable {s : State} {fn : Fin 65} {i : Nat} {v : Word64}

theorem exec_ringEnable (hlink : hostReach s fn = true) (hset : bit v 63 = true) : exec (.ringEnable fn i v) s = .next (regWrite s fn (0x100000 + 64 * i) 0xFF v) := by
  show execRingEnable fn i v s = _
  rw [execRingEnable, if_pos ⟨hlink, hset⟩]

theorem exec_ringDisable (hlink : hostReach s fn = true) (hclear : bit v 63 = false) : exec (.ringDisable fn i v) s = .next (regWrite s fn (0x100000 + 64 * i) 0xFF v) := by
  show execRingDisable fn i v s = _
  rw [execRingDisable, if_pos ⟨hlink, by rw [hclear]; rfl⟩]

end

/-- What becomes of one ring when a held half is dropped and RING_CFG is taken. -/
theorem ringCfg_taken {s : State} {n : Nat} (hn : n < 8192) (fn off : Nat) (f : Ring → Ring) : let s' := modRing (dropHeld s fn off) n f
    { s' with funcs := s.funcs, rings := s.rings } = s ∧ (∀ m, m ≠ n → getRing s' m = getRing s m) ∧ getRing s' n = f (getRing s n) := by
  have hring (m : Nat) := getRing_modRing (dropHeld s fn off) n m f
  refine ⟨by rw [modRing_of_lt hn]; rfl, fun m hm => (hring m).trans (if_neg hm), (hring n).trans (if_pos rfl)⟩

/-! ## Registers of the global status block -/

/-- The PF reaches the global status block of a READY module (R284). -/
theorem regAt_glob {s : State} {off : Nat} (hready : s.ready = true) (hlow : 0x10000 ≤ off) (hhigh : off < 0x20000) (haligned : off % 8 = 0) (hlisted : globListed (off - 0x10000) = true) :
    regAt s 0 off = some (.glob (off - 0x10000)) := by
  have hoff : off / 8 * 8 = off := by omega
  unfold regAt
  dsimp only
  rw [hoff, if_neg (by omega), if_neg (by omega), if_neg (by simp [hready]), if_pos ⟨hlow, hhigh⟩, if_pos ⟨rfl, hlisted⟩]

section
variable {s : State} {port : Nat}

theorem globListed_port (hport : port < 18) : globListed (0x200 + 8 * port) = true := by
  simp [globListed, show 512 + 8 * port < 512 + 8 * 18 by omega]

theorem regBarred_port (hport : port < 18) : regBarred s 0 (.glob (0x200 + 8 * port)) = none := by
  rw [regBarred, decide_eq_true (show 0x200 ≤ 0x200 + 8 * port by omega), decide_eq_true (show 0x200 + 8 * port < 0x300 by omega), Bool.and_true, Bool.or_true, if_pos rfl]

theorem regPaired_port : regPaired (.glob (0x200 + 8 * port)) = false := by
  rw [regPaired, decide_eq_false (show ¬ 0x200 + 8 * port ≤ 0xB8 by omega), Bool.and_false]

theorem writeGlob_port (off : Nat) : writeGlob s (0x200 + 8 * port) (BitVec.allOnes 64) 0x4000000000000000 off = unfence s port := by
  unfold writeGlob
  dsimp only
  rw [if_neg (by omega), if_neg (by omega), if_neg (by omega), if_neg (by omega), if_neg (by omega), if_neg (by omega), if_neg (by omega), if_neg (by omega), if_neg (by omega),
    if_neg (by omega), if_pos (by decide), show (0x200 + 8 * port - 0x200) / 8 = port by omega]

/-- A write of 1 to FENCED lets the port train again (R354, R356). -/
theorem exec_portUnfence (port : Fin 18) (hlink : hostReach s 0 = true) (hready : s.ready = true) : exec (.portUnfence port) s = .next (unfence s port) := by
  have hreg := regAt_glob (s := s) (off := 0x10200 + 8 * port) hready (by omega) (by omega) (by omega)
    (by rw [show 0x10200 + 8 * port.val - 0x10000 = 0x200 + 8 * port by omega]; exact globListed_port port.isLt)
  rw [show 0x10200 + 8 * port.val - 0x10000 = 0x200 + 8 * port by omega] at hreg
  have hwrite := regWrite_plain (be := 0xFF) (.inl rfl) ((regAt_aligned ..).trans hreg) (regBarred_port port.isLt) regPaired_port 0x4000000000000000
  rw [if_pos rfl] at hwrite
  show execPortUnfence port s = _
  rw [execPortUnfence, if_pos hlink, hwrite]
  exact congrArg _ (writeGlob_port _)

theorem getPort_unfence (q : Nat) : getPort (unfence s port) q = if q = port then { getPort s port with status := setBit (getPort s port).status 62 false } else getPort s q :=
  tabGetD_insert ..

/-- A write of 1 to KETTLE_CTL.OFF enters A5, or is refused (R410, R421). -/
theorem exec_kettleOff (hlink : hostReach s 0 = true) (hready : s.ready = true) : exec .kettleOff s = .next (if a4Ready s then enterA5 s else errAccess s 0 6 0 0x100CC) := by
  have hreg : regAt s 0 0x100C8 = some (.glob 0xC8) := regAt_glob hready (by decide) (by decide) (by decide) (by decide)
  have hwrite := regWrite_plain (be := 0xF0) (.inr (.inr rfl)) ((regAt_aligned ..).trans hreg) rfl rfl 0x8000000000000000
  show execKettleOff s = _
  rw [execKettleOff, if_pos hlink, hwrite, if_neg (by decide), if_neg (by decide)]
  rfl

end

/-- Settles O29: RING_CFG by its three cases, FENCED and OFF by the register each lies in. -/
theorem ringPortAndKettleSwitches : Obligations.RingPortAndKettleSwitches := by
  unfold Obligations.RingPortAndKettleSwitches
  constructor
  · intro fn i n v s hi hreach hbar hn halone x
    have hlink := hreach.link
    have hwrite := regWrite_ringCfg hreach.reg hbar v
    have halone' : mirroring (dropHeld s fn (0x100000 + 64 * i)) = false := halone
    refine ⟨fun hset hoff hok => ?_, fun hclear hon hsame => ?_, fun hset hon hother => ?_⟩
    · have hcfg := writeRingCfg_enable (v := v) (off := 0x100000 + 64 * i) halone' hoff ((bit_cfgMask_top v).trans hset) hok
      exact ⟨_, (exec_ringEnable hlink hset).trans (congrArg _ (hwrite.trans hcfg)), ringCfg_taken hn ..⟩
    · have hcfg := writeRingCfg_same (v := v) (fn := fn) (off := 0x100000 + 64 * i) halone' hon (by rw [hsame]; exact clear_enable_only x.cfg)
      rw [hsame] at hcfg
      exact ⟨_, (exec_ringDisable hlink hclear).trans (congrArg _ (hwrite.trans hcfg)), ringCfg_taken hn ..⟩
    · exact (exec_ringEnable hlink hset).trans (congrArg _ (hwrite.trans (writeRingCfg_other (s := dropHeld s fn (0x100000 + 64 * i)) hon hother)))
  · intro s hlink hready
    refine ⟨fun port => ⟨_, exec_portUnfence port hlink hready, rfl, fun q hq => (getPort_unfence q).trans (if_neg hq), (getPort_unfence _).trans (if_pos rfl)⟩, fun h => ?_, fun h => ?_⟩
    · rw [exec_kettleOff hlink hready, if_pos h]
    · rw [exec_kettleOff hlink hready, h, if_neg (by decide)]

end Sys2Proof.Machine
end

section
/-! SUPPORT. Accesses through BAR4: bytes of the partition's share (R190, R286). -/

namespace Sys2Proof.Machine

open Sys2Proof

/-! ## Partitions under reads and writes of their memory -/

section
variable {s : State} {p : Nat} {x : Part}

theorem getPart_caddyRead_of_ne (hx : getPart? s p = some x) (c : RegClass) (alloc : Bool) (l : List (Nat × Nat)) {q : Nat} (hq : q ≠ p) :
    getPart? (caddyRead s p c alloc l) q = getPart? s q := by
  unfold caddyRead
  rw [hx]
  dsimp only
  rw [getPart_chargeCredit_of_ne _ c _ hq]
  exact getPart_modPart_of_ne (s := s) hq _

theorem mem_caddyRead (hx : getPart? s p = some x) (c : RegClass) (alloc : Bool) (l : List (Nat × Nat)) :
    ∃ y, getPart? (caddyRead s p c alloc l) p = some y ∧ y.mem = x.mem := by
  unfold caddyRead
  rw [hx]
  dsimp only
  generalize (granulesOf l).filter _ = miss
  have hmod := getPart_modPart_self hx (fun x => partCtrOf (partCtrOf (partCtrOf x 0x128 ((granulesOf l).length - miss.length)) 0x130 miss.length) 0x118 (64 * miss.length))
  generalize modPart s p _ = s1 at hmod ⊢
  generalize ({ s1.iod with caddy := _ } : Iod) = iod
  exact mem_chargeCredit (s := { s1 with iod := iod }) hmod c _

end

/-! ## BAR4 -/

/-- The bytes that a mask names. -/
theorem getElem_mapIdx_enabled {α : Type} (be : List Bool) (f : Nat → α) (i : Nat) :
    ((be.mapIdx (fun i e => if e then some (f i) else none))[i]?.getD none) = if be.getD i false then some (f i) else none := by
  rw [List.getElem?_mapIdx, List.getD_eq_getElem?_getD]
  cases be[i]? <;> rfl

theorem mapIdx_of_ok {α : Type} {ok : Nat → Bool} {be : List Bool} (hok : ∀ i < be.length, ok i = true) (f : Nat → α) (d : α) :
    be.mapIdx (fun i e => if e && ok i then f i else d) = be.mapIdx (fun i e => if e then f i else d) := by
  refine List.ext_getElem (by simp) fun i hi hi' => ?_
  rw [List.getElem_mapIdx, List.getElem_mapIdx, hok i (by simpa using hi), Bool.and_true]

theorem find_not_ok {ok : Nat → Bool} {be : List Bool} (hok : ∀ i < be.length, ok i = true) : (List.range be.length).find? (fun i => be.getD i false && !ok i) = none :=
  List.find?_eq_none.2 fun i hi => by rw [hok i (List.mem_range.1 hi), Bool.not_true, Bool.and_false]; exact Bool.false_ne_true

section
variable {s : State} {x : Part} {a : Nat} {be : List Bool}

/-- A read that stays within the share returns the enabled bytes and changes no byte (R286). -/
theorem bar4Read_in_share {vf p : Nat} (hx : getPart? s p = some x) (hin : a + be.length ≤ x.dramPages * 262144) (off : Nat) :
    (bar4Read s vf p x a off be).out = s.out ++ [.readBytes vf off (be.mapIdx (fun i e => if e then smGet x.mem (a + i) else 0))] ∧
      (getPart? (bar4Read s vf p x a off be) p).map (·.mem) = some x.mem ∧ ∀ q, q ≠ p → getPart? (bar4Read s vf p x a off be) q = getPart? s q := by
  have hok : ∀ i < be.length, decide (a + i < x.dramPages * 262144) = true := fun i hi => decide_eq_true (by omega)
  unfold bar4Read
  dsimp only
  rw [find_not_ok hok, mapIdx_of_ok hok]
  dsimp only
  by_cases hn : min be.length (x.dramPages * 262144 - a) = 0
  · rw [if_pos hn]
    exact ⟨rfl, congrArg (Option.map Part.mem) hx, fun _ _ => rfl⟩
  · rw [if_neg hn]
    obtain ⟨y, hy, hymem⟩ := mem_caddyRead hx .rm false [(a, min be.length (x.dramPages * 262144 - a))]
    have hout := (congrArg State.out (caddyRead_frame s p .rm false [(a, min be.length (x.dramPages * 262144 - a))]) : _)
    refine ⟨?_, (congrArg (Option.map Part.mem) hy).trans (congrArg some hymem), fun q hq => getPart_caddyRead_of_ne hx .rm false _ hq⟩
    exact congrArg (· ++ _) hout

theorem bar4Write_eq {vf p : Nat} (hin : a + be.length ≤ x.dramPages * 262144)
    (himg : ∀ img, x.image = some img → a + be.length ≤ x.imageBase ∨ x.imageBase + img.size ≤ a) (off : Nat) (b : List Byte) :
    let l := be.mapIdx (fun i e => if e then some (b.getD i 0) else none)
    bar4Write s vf p x a off be b = if l.any Option.isSome then memWrite s p .rm false [(a, l.length)] l else s := by
  have hok {size : Nat} (hapart : a + be.length ≤ x.imageBase ∨ x.imageBase + size ≤ a ∨ size = 0) : ∀ i < be.length,
      (decide (a + i < x.dramPages * 262144) && !(decide (x.imageBase ≤ a + i) && decide (a + i < x.imageBase + size))) = true := by
    intro i hi
    rw [decide_eq_true (by omega), Bool.true_and, ← Bool.decide_and, decide_eq_false (by omega)]
    rfl
  have htake (f : Nat → Bool → Option Byte) : (be.mapIdx f).take (x.dramPages * 262144 - a) = be.mapIdx f := List.take_of_length_le (by rw [List.length_mapIdx]; omega)
  intro l
  unfold bar4Write
  dsimp only
  cases himage : x.image with
  | none =>
    have hspared := hok (size := 0) (.inr (.inr rfl))
    dsimp only
    rw [find_not_ok hspared, htake, mapIdx_of_ok hspared]
  | some img =>
    have hspared := hok (size := img.size) (by have := himg img himage; omega)
    dsimp only
    rw [find_not_ok hspared, htake, mapIdx_of_ok hspared]

/-- A write that stays within the share and off the image puts the enabled bytes and changes no other (R286). -/
theorem bar4Write_in_share {vf p : Nat} (hx : getPart? s p = some x) (hin : a + be.length ≤ x.dramPages * 262144)
    (himg : ∀ img, x.image = some img → a + be.length ≤ x.imageBase ∨ x.imageBase + img.size ≤ a) (off : Nat) (b : List Byte) :
    (bar4Write s vf p x a off be b).out = s.out ∧ (∀ q, q ≠ p → getPart? (bar4Write s vf p x a off be b) q = getPart? s q) ∧
      ∃ y, getPart? (bar4Write s vf p x a off be b) p = some y ∧
        ∀ k, smGet y.mem k = if a ≤ k ∧ be.getD (k - a) false = true then b.getD (k - a) 0 else smGet x.mem k := by
  have hwritten := getElem_mapIdx_enabled be (fun i => b.getD i 0)
  rw [bar4Write_eq hin himg]
  generalize be.mapIdx (fun i e => if e then some (b.getD i 0) else none) = l at hwritten ⊢
  by_cases hany : l.any Option.isSome = true
  · rw [if_pos hany]
    obtain ⟨y, hy, hymem⟩ := mem_memWrite hx .rm false [(a, l.length)] l
    refine ⟨(congrArg State.out (memWrite_frame hx .rm false [(a, l.length)] l) :), fun q hq => getPart_memWrite_of_ne hx .rm _ _ _ hq, y, hy, fun k => ?_⟩
    rw [hymem]
    show smGet (putOpt x.mem a (List.take l.length l)) k = _
    rw [List.take_length, smGet_putOpt, hwritten]
    by_cases hk : a ≤ k
    · rw [if_pos hk]
      cases be.getD (k - a) false <;> simp [hk]
    · rw [if_neg hk, if_neg (fun h => hk h.1)]
  · rw [if_neg hany]
    refine ⟨rfl, fun _ _ => rfl, x, hx, fun k => ?_⟩
    rw [if_neg]
    rintro ⟨-, hen⟩
    have hsome := hwritten (k - a)
    rw [hen, if_pos rfl] at hsome
    cases hget : l[k - a]? with
    | none => rw [hget] at hsome; cases hsome
    | some o =>
      rw [hget] at hsome
      exact hany (List.any_eq_true.2 ⟨o, List.mem_of_getElem? hget, by rw [show o = _ from hsome]; rfl⟩)

end

section
variable {s : State} {vf : Fin 64} {x : Part} {offset : Nat} {be : List Bool}

theorem exec_bar4Access_absent (h : Config.bar4Present = false) (w : Option (List Byte)) : exec (.bar4Access vf offset be w) s = .next s := by
  show execBar4Access vf offset be w s = _
  unfold execBar4Access
  dsimp only
  rw [if_pos (.inr (.inl (by rw [h]; rfl)))]

theorem exec_bar4Access (hlink : hostReach s (vf.val + 1) = true) (hdev : s.pwr.dev = 0) (hx : getPart? s vf = some x) (hfit : offset + be.length ≤ 2 ^ 36)
    (h : Config.bar4Present = true) (w : Option (List Byte)) : exec (.bar4Access vf offset be w) s = .next (if x.creditRm < 0 then setPart s vf { x with waitRm := true } else
      match w with
      | none => bar4Read s (vf.val + 1) vf x (bits x.bar4Base 47 30 * 2 ^ 30 + offset) offset be
      | some b => bar4Write s (vf.val + 1) vf x (bits x.bar4Base 47 30 * 2 ^ 30 + offset) offset be b) := by
  have hcredit : creditOk s vf .rm = decide (0 ≤ x.creditRm) := by
    unfold creditOk
    rw [hx]
    rfl
  have hwait : waitCredit s vf .rm = setPart s vf { x with waitRm := true } := modPart_of_some hx _
  have hreach : ¬ ((!hostReach s (vf.val + 1)) = true ∨ (!Config.bar4Present) = true ∨ 2 ^ 36 < offset + be.length) := by
    rw [hlink, h]
    rintro (h | h | h)
    · cases h
    · cases h
    · omega
  show execBar4Access vf offset be w s = _
  unfold execBar4Access
  dsimp only
  rw [if_neg hreach, wakeDevice_of_awake hdev, hx]
  dsimp only
  rw [hcredit, hwait]
  by_cases hc : x.creditRm < 0
  · rw [decide_eq_false (by omega), if_pos hc]
    rfl
  · rw [decide_eq_true (by omega), if_neg hc]
    rfl

end

/-- Settles O30: an access waits for credit, or it is the read or the write of the share's bytes. -/
theorem bar4AccessesMemory : Obligations.Bar4AccessesMemory := by
  unfold Obligations.Bar4AccessesMemory
  intro vf offset be s x hlink hdev hx hfit a hin
  refine ⟨fun w hcredit => ?_, fun hcredit => ?_, fun b hcredit himg => ?_⟩
  · cases h : Config.bar4Present
    · exact exec_bar4Access_absent h w
    · rw [exec_bar4Access hlink hdev hx hfit h, if_pos hcredit]
      rfl
  · cases h : Config.bar4Present
    · exact ⟨s, exec_bar4Access_absent h none, fun _ => rfl, fun h => absurd h (by decide)⟩
    · refine ⟨_, (exec_bar4Access hlink hdev hx hfit h none).trans (congrArg _ (if_neg (by omega))), fun h => absurd h (by decide), fun _ => ?_⟩
      exact bar4Read_in_share hx hin offset
  · cases h : Config.bar4Present
    · exact ⟨s, exec_bar4Access_absent h (some b), fun _ => rfl, fun h => absurd h (by decide)⟩
    · refine ⟨_, (exec_bar4Access hlink hdev hx hfit h (some b)).trans (congrArg _ (if_neg (by omega))), fun h => absurd h (by decide), fun _ => ?_⟩
      exact bar4Write_in_share hx hin himg offset b

end Sys2Proof.Machine
end

section
/-! SUPPORT. Doorbells that are taken, pull fetches, completion writes and interrupts (R298-R306, R309, R343). -/

namespace Sys2Proof.Machine

open Sys2Proof

/-! ## Doorbells -/

section
variable {s : State} {fn n off : Nat} {v : BitVec 16}

theorem mirrorRing_modRing (halone : mirroring s = false) (n : Nat) (f : Ring → Ring) : mirrorRing (modRing s n f) n = modRing s n f :=
  mirrorRing_of_alone ((ringsOnly_modRing s n f).mirroring.trans halone) n

/-- A new HEAD of a completion ring forgets the completions the host has taken (R298). -/
theorem takeDoorbell_completion (halone : mirroring s = false) (hon : ringEnabled (getRing s n) = true) (hcpl : ringIsCpl (getRing s n) = true)
    (hgood : (v - (getRing s n).head).toNat ≤ ((getRing s n).tail - (getRing s n).head).toNat) :
    takeDoorbell s fn n off v = modRing s n (fun y => { y with head := v, unread := keepWritten v y.unread }) := by
  unfold takeDoorbell
  dsimp only
  rw [hon, if_neg (by decide), if_pos hcpl, if_neg (by omega), mirrorRing_modRing halone]

/-- The entries of push memory that a new TAIL covers (R299, R301). -/
def coveredEntries (s : State) (fn n : Nat) (v : BitVec 16) : List (BitVec 512) :=
  if bit (getRing s n).cfg 61 then (List.range (v - (getRing s n).tail).toNat).map (fun k => pushEntry s fn (getRing s n) ((getRing s n).tail.toNat + k)) else []

/-- A new TAIL of a submission ring takes the entries it covers (R298, R299). -/
theorem takeDoorbell_submission (halone : mirroring s = false) (hon : ringEnabled (getRing s n) = true) (hsub : ringIsCpl (getRing s n) = false)
    (hforward : ((getRing s n).tail - (getRing s n).head).toNat ≤ (v - (getRing s n).head).toNat) (hroom : (v - (getRing s n).head).toNat ≤ ringSize (getRing s n)) :
    takeDoorbell s fn n off v = modRing s n (fun y => { y with tail := v, live := y.live ++ coveredEntries s fn n v }) := by
  unfold takeDoorbell
  dsimp only
  rw [hon, if_neg (by decide), hsub, if_neg (by decide), if_neg (by omega), mirrorRing_modRing halone]
  rfl

end

/-- Settles O32: the doorbell is one whole word, and its ring takes the count. -/
theorem doorbellsAreTaken : Obligations.DoorbellsAreTaken := by
  unfold Obligations.DoorbellsAreTaken
  intro fn offset n v s hlink hoff haligned hring hn hready hdev halone hv x new hon
  have hexec : exec (.doorbellWrite fn offset 0xFF v) s = .next (takeDoorbell s fn n offset new) := by
    rw [exec_doorbellWrite_one_word hlink hoff (by rw [haligned]; decide), haligned, show offset / 8 * 8 = offset by omega, Nat.mul_zero, BitVec.shiftLeft_zero, BitVec.shiftLeft_zero,
      doorbellPart_of_ring hdev hoff hring (.inl rfl), if_neg (by rw [hready]; decide), if_neg (by decide), if_pos rfl, if_neg (not_not.2 hv)]
  refine ⟨fun hcpl hgood => hexec.trans (congrArg _ (takeDoorbell_completion halone hon hcpl hgood)), fun hsub hforward hroom => ?_⟩
  refine ⟨coveredEntries s fn n new, hexec.trans (congrArg _ (takeDoorbell_submission halone hon hsub hforward hroom)), fun hpull => ?_, fun hpush => ?_⟩
  · rw [coveredEntries, if_neg (by rw [hpull]; decide)]
  · rw [coveredEntries, if_pos hpush]
    refine ⟨by rw [List.length_map, List.length_range], fun k hk => ?_⟩
    rw [List.getElem?_map, List.getElem?_range hk, Option.map_some, pushEntry, pushAt, Nat.add_assoc]

/-! ## Pull fetches -/

section
variable {s : State} {n : Nat}

/-- The entries of a pull ring that TAIL covers and that are not fetched. -/
def notFetched (x : Ring) : Nat := (x.tail - x.head).toNat - x.live.length

section
variable (hn : n < 8192) (hup : deviceUp s = true) (hon : ringEnabled (getRing s n) = true) (hsub : ringIsCpl (getRing s n) = false) (hpull : bit (getRing s n).cfg 61 = false)
include hn hup hon hsub hpull

theorem pullFetch_serves : ¬ (Config.rings ≤ n ∨ (!deviceUp s) = true ∨ (!ringEnabled (getRing s n)) = true ∨ ringIsCpl (getRing s n) = true ∨ bit (getRing s n).cfg 61 = true) := by
  rw [hup, hon, hsub, hpull, Config.rings]
  simpa using hn

/-- Entries that a pull ring has fetched join its live entries (R299). -/
theorem exec_pullFetchDone_some {l : List (BitVec 512)} (hl : l ≠ []) (hshort : l.length ≤ 8) (hleft : l.length ≤ notFetched (getRing s n)) :
    exec (.pullFetchDone n (some l)) s = .next (modRing (emits s (pullReads s n l.length)) n (fun x => { x with live := x.live ++ l })) := by
  have hin : ¬ (l = [] ∨ 8 < l.length ∨ notFetched (getRing s n) < l.length) := fun h => h.elim hl (Or.elim · (by omega) (by omega))
  show execPullFetchDone n (some l) s = _
  unfold execPullFetchDone
  dsimp only
  rw [if_neg (pullFetch_serves hn hup hon hsub hpull)]
  exact congrArg _ (if_neg hin)

theorem exec_pullFetchDone_none (hleft : notFetched (getRing s n) ≠ 0) :
    exec (.pullFetchDone n none) s = .next (fetchError (emits s (pullReads s n (min 8 (notFetched (getRing s n))))) n) := by
  show execPullFetchDone n none s = _
  unfold execPullFetchDone
  dsimp only
  rw [if_neg (pullFetch_serves hn hup hon hsub hpull)]
  exact congrArg _ (if_neg hleft)

end

/-- A fetch that fails disables its ring (R299). -/
theorem fetchError_eq (hn : n < 8192) (halone : mirroring s = false) : fetchError s n = modRing s n (fun x => { x with status := setBit x.status 60 true, cfg := setBit x.cfg 63 false }) := by
  rw [fetchError, mirrorRing_modRing halone]
  simp only [if_pos hn]

end

/-! ## Completions -/

/-- Little-endian bytes of a number give it back. -/
theorem bytesToNat_natToBytes (n v : Nat) : bytesToNat (natToBytes n v) = v % 256 ^ n := by
  induction n generalizing v with
  | zero => rw [Nat.pow_zero, Nat.mod_one]; rfl
  | succ n ih =>
    have hbyte : (BitVec.ofNat 8 v).toNat = v % 256 := BitVec.toNat_ofNat v 8
    rw [natToBytes, bytesToNat, ih, hbyte, Nat.pow_succ, Nat.mul_comm (256 ^ n), Nat.mod_mul]

theorem bytesToNat_natToBytes_of_lt {n v : Nat} (h : v < 256 ^ n) : bytesToNat (natToBytes n v) = v := (bytesToNat_natToBytes n v).trans (Nat.mod_eq_of_lt h)

section
variable (c : Completion) (count size : Nat)

/-- The 16 bits of a completion that hold PHASE and its flags (R309). -/
def cplFlags : Nat := (1 - count / size % 2) * 2 ^ 15 + b2n c.final * 2 ^ 14 + b2n c.event * 2 ^ 13 + b2n c.degraded * 2 ^ 12 + c.detail.toNat * 2 ^ 8

theorem cplBytes_eq : cplBytes c count size =
    natToBytes 4 c.seq.toNat ++ (natToBytes 2 c.status.toNat ++ (natToBytes 2 (cplFlags c count size) ++ (natToBytes 8 c.handle.toNat ++ natToBytes 16 c.result.toNat))) := by
  simp only [cplBytes, cplFlags, List.append_assoc]

theorem b2n_le (b : Bool) : b2n b ≤ 1 := by cases b <;> decide

theorem cplFlags_phase : cplFlags c count size / 256 % 256 / 128 = 1 - count / size % 2 := by
  have hfinal := b2n_le c.final
  have hevent := b2n_le c.event
  have hdegraded := b2n_le c.degraded
  have hdetail := c.detail.isLt
  rw [cplFlags]
  omega

/-- A completion is 32 bytes, each field at its place (R309). -/
theorem cplBytes_fields : let b := cplBytes c count size
    b.length = 32 ∧ bytesToNat (b.take 4) = c.seq.toNat ∧ bytesToNat ((b.drop 4).take 2) = c.status.toNat ∧ (b.getD 7 0).toNat / 128 = 1 - count / size % 2 ∧
      bytesToNat ((b.drop 8).take 8) = c.handle.toNat ∧ bytesToNat (b.drop 16) = c.result.toNat := by
  have hlen (k v : Nat) : (natToBytes k v).length = k := natToBytes_length k v
  intro b
  have hb : b = _ := cplBytes_eq c count size
  refine ⟨by rw [hb]; simp only [List.length_append, hlen], ?_, ?_, ?_, ?_, ?_⟩
  · rw [hb, List.take_append_of_le_length (by rw [hlen]), List.take_of_length_le (by rw [hlen])]
    exact bytesToNat_natToBytes_of_lt c.seq.isLt
  · rw [hb, List.drop_append_of_le_length (by rw [hlen]), List.drop_of_length_le (by rw [hlen]), List.nil_append, List.take_append_of_le_length (by rw [hlen]),
      List.take_of_length_le (by rw [hlen])]
    exact bytesToNat_natToBytes_of_lt c.status.isLt
  · rw [hb, List.getD_append_right _ _ _ _ (by rw [hlen]; decide), hlen, List.getD_append_right _ _ _ _ (by rw [hlen]; decide), hlen,
      List.getD_append _ _ _ _ (by rw [hlen]; decide), natToBytes_get 2 _ _ (by decide)]
    exact cplFlags_phase c count size
  · rw [hb, show (8 : Nat) = 4 + (2 + 2) from rfl, ← List.drop_drop, ← List.drop_drop, List.drop_left' (hlen ..), List.drop_left' (hlen ..), List.drop_left' (hlen ..),
      List.take_left' (hlen ..)]
    exact bytesToNat_natToBytes_of_lt c.handle.isLt
  · rw [hb]
    show bytesToNat (List.drop (4 + (2 + (2 + 8))) _) = _
    rw [← List.drop_drop, ← List.drop_drop, ← List.drop_drop, List.drop_left' (hlen ..), List.drop_left' (hlen ..),
      List.drop_left' (hlen ..), List.drop_left' (hlen ..)]
    exact bytesToNat_natToBytes_of_lt c.result.isLt

end

/-- A completion ring once its oldest waiting completion is written (R303, R304). -/
def writtenRing (c : Completion) (rest : List (Completion × Option Nat)) (x : Ring) : Ring :=
  { x with waiting := rest, unread := x.unread ++ [(x.tail, c)], tail := x.tail + 1, count := x.count + 1, unsignalled := x.unsignalled + 1, intDue := x.intDue || (c.final && c.int) }

/-- The state once the oldest waiting completion of ring `n` is written. -/
def cplWritten (s : State) (n : Nat) (c : Completion) (rest : List (Completion × Option Nat)) : State :=
  modRing (emit s (.hostWrite (ringFunc s n) ((getRing s n).base + BitVec.ofNat 64 (32 * ((getRing s n).tail.toNat % ringSize (getRing s n))))
    (cplBytes c (getRing s n).tail.toNat (ringSize (getRing s n))))) n (writtenRing c rest)

section
variable {s : State} {n : Nat} {c : Completion} {rest : List (Completion × Option Nat)}

theorem exec_completionWrite (hn : n < 8192) (hup : deviceUp s = true) (hwait : (getRing s n).waiting = (c, none) :: rest) (hon : ringEnabled (getRing s n) = true)
    (hcpl : ringIsCpl (getRing s n) = true) (ok : Bool) : exec (.completionWrite n ok) s =
      .next (if ringSize (getRing s n) ≤ ((getRing s n).tail - (getRing s n).head).toNat then modRing s n (fun y => { y with status := setBit y.status 61 true })
        else if !ok then fetchError s n
        else if c.final then releaseEntry (settleInt (cplWritten s n c rest) n) n c else settleInt (cplWritten s n c rest) n) := by
  show execCompletionWrite n ok s = _
  unfold execCompletionWrite
  dsimp only
  rw [hwait]
  dsimp only
  rw [if_neg (by rw [hup, hon, hcpl]; decide), if_pos hn]
  split
  · rfl
  · split
    · rfl
    · rfl

theorem getRing_cplWritten (m : Nat) : getRing (cplWritten s n c rest) m = if m = n then writtenRing c rest (getRing s n) else getRing s m := getRing_modRing ..

theorem settleInt_of_masked (h : bit (getRing s n).int 63 = true) : settleInt s n = s := by
  unfold settleInt
  dsimp only
  rw [h, if_neg (fun h => absurd h.1 (by decide))]

/-- The state in which the interrupt of ring `n` is no longer due. -/
theorem raiseInt_eq (hn : n < 8192) : raiseInt s n =
    if (getFunc s (ringFunc s n)).fnMask ∨ (getFunc s (ringFunc s n)).masked.contains (bits (getRing s n).int 42 32) then
      modFunc (modRing s n (fun x => { x with unsignalled := 0, intDue := false })) (ringFunc s n)
        (fun f => { f with pend := if f.pend.contains (bits (getRing s n).int 42 32) then f.pend else f.pend ++ [bits (getRing s n).int 42 32] })
    else emit (modRing s n (fun x => { x with unsignalled := 0, intDue := false })) (.interrupt (ringFunc s n) (bits (getRing s n).int 42 32)) := by
  unfold raiseInt
  dsimp only
  rw [if_pos hn]

/-- An interrupt that is not masked is sent on its vector (R306, R343). -/
theorem raiseInt_sent (hn : n < 8192) (hfn : (getFunc s (ringFunc s n)).fnMask = false) (hv : bits (getRing s n).int 42 32 ∉ (getFunc s (ringFunc s n)).masked) :
    raiseInt s n = emit (modRing s n (fun x => { x with unsignalled := 0, intDue := false })) (.interrupt (ringFunc s n) (bits (getRing s n).int 42 32)) := by
  rw [raiseInt_eq hn, if_neg]
  rintro (h | h)
  · rw [hfn] at h
    cases h
  · exact hv (List.contains_iff_mem.1 h)

/-- One that is masked stays pending (R343). -/
theorem raiseInt_pending (hn : n < 8192) (h : (getFunc s (ringFunc s n)).fnMask = true ∨ bits (getRing s n).int 42 32 ∈ (getFunc s (ringFunc s n)).masked) :
    raiseInt s n = modFunc (modRing s n (fun x => { x with unsignalled := 0, intDue := false })) (ringFunc s n)
      (fun f => { f with pend := if f.pend.contains (bits (getRing s n).int 42 32) then f.pend else f.pend ++ [bits (getRing s n).int 42 32] }) := by
  rw [raiseInt_eq hn, if_pos (h.imp id List.contains_iff_mem.2)]

/-- With no final completion posted, none leaves the table (R237, R305). -/
theorem releaseEntry_of_none_posted (h : ∀ q ∈ s.table, q.2.finalPosted = false) (c : Completion) : releaseEntry s n c = s := by
  unfold releaseEntry
  rw [List.find?_eq_none.2 fun q hq => by simp [h q hq]]

/-- A completion that is written while its interrupt is masked (R303-R306). -/
theorem completionWrite_quiet (hn : n < 8192) (hup : deviceUp s = true) (hwait : (getRing s n).waiting = (c, none) :: rest) (hon : ringEnabled (getRing s n) = true)
    (hcpl : ringIsCpl (getRing s n) = true) (hroom : ((getRing s n).tail - (getRing s n).head).toNat < ringSize (getRing s n)) (hfinal : c.final = false)
    (hmask : bit (getRing s n).int 63 = true) : exec (.completionWrite n true) s = .next (cplWritten s n c rest) := by
  have hring : getRing (cplWritten s n c rest) n = writtenRing c rest (getRing s n) := (getRing_cplWritten n).trans (if_pos rfl)
  rw [exec_completionWrite hn hup hwait hon hcpl, if_neg (by omega), if_neg (by decide), hfinal, if_neg (by decide), settleInt_of_masked (by rw [hring]; exact hmask)]

/-- The final completion of a command with FLAGS.INT interrupts at once (R306). -/
theorem completionWrite_final (hn : n < 8192) (hup : deviceUp s = true) (hwait : (getRing s n).waiting = (c, none) :: rest) (hon : ringEnabled (getRing s n) = true)
    (hcpl : ringIsCpl (getRing s n) = true) (hroom : ((getRing s n).tail - (getRing s n).head).toNat < ringSize (getRing s n)) (hfinal : c.final = true) (hint : c.int = true)
    (hmask : bit (getRing s n).int 63 = false) (hfn : (getFunc s (ringFunc s n)).fnMask = false) (hmasked : (getFunc s (ringFunc s n)).masked = [])
    (hposted : ∀ q ∈ s.table, q.2.finalPosted = false) : exec (.completionWrite n true) s =
      .next (emit (modRing (cplWritten s n c rest) n (fun x => { x with unsignalled := 0, intDue := false })) (.interrupt (ringFunc s n) (bits (getRing s n).int 42 32))) := by
  have hring : getRing (cplWritten s n c rest) n = writtenRing c rest (getRing s n) := (getRing_cplWritten n).trans (if_pos rfl)
  have hframe : { cplWritten s n c rest with rings := s.rings, out := s.out } = s := by rw [cplWritten, modRing_of_lt hn]; rfl
  have hfunc : ringFunc (cplWritten s n c rest) n = ringFunc s n := (congrArg (fun e : State => ringFunc e n) hframe :)
  have hfuncs (g : Nat) : getFunc (cplWritten s n c rest) g = getFunc s g := (congrArg (fun e : State => getFunc e g) hframe :)
  have hdue : (writtenRing c rest (getRing s n)).intDue = true := by
    show ((getRing s n).intDue || (c.final && c.int)) = true
    rw [hfinal, hint, Bool.and_true, Bool.or_true]
  have hsettle : settleInt (cplWritten s n c rest) n =
      emit (modRing (cplWritten s n c rest) n (fun x => { x with unsignalled := 0, intDue := false })) (.interrupt (ringFunc s n) (bits (getRing s n).int 42 32)) := by
    unfold settleInt
    dsimp only
    rw [hring, show (writtenRing c rest (getRing s n)).int = (getRing s n).int from rfl, hmask, if_pos ⟨rfl, .inl hdue⟩,
      raiseInt_sent hn (by rw [hfunc, hfuncs, hfn]) (by rw [hfunc, hfuncs, hmasked]; exact List.not_mem_nil), hfunc, hring]
    rfl
  have htable : (emit (modRing (cplWritten s n c rest) n (fun x => { x with unsignalled := 0, intDue := false })) (.interrupt (ringFunc s n) (bits (getRing s n).int 42 32))).table = s.table := by
    rw [cplWritten, modRing_of_lt hn, modRing_of_lt hn]
    rfl
  rw [exec_completionWrite hn hup hwait hon hcpl, if_neg (by omega), if_neg (by decide), if_pos hfinal, hsettle, releaseEntry_of_none_posted (by rw [htable]; exact hposted)]

theorem exec_interruptAgeExpiry (hup : deviceUp s = true) (hmask : bit (getRing s n).int 63 = false) (hage : bits (getRing s n).int 23 0 ≠ 0) (hsome : 0 < (getRing s n).unsignalled) :
    exec (.interruptAgeExpiry n) s = .next (raiseInt s n) := by
  show execInterruptAgeExpiry n s = _
  unfold execInterruptAgeExpiry
  dsimp only
  rw [if_pos ⟨by rw [hmask]; rfl, hage, hsome, hup⟩]

end

/-- Settles O34: fetches, completion writes and aged interrupts, each by the state of its ring. -/
theorem ringEvents : Obligations.RingEvents := by
  unfold Obligations.RingEvents
  refine ⟨?_, ?_, ?_⟩
  · intro n s hn hup halone x left reads hon hsub hpull
    refine ⟨fun l hl hshort hleft => exec_pullFetchDone_some hn hup hon hsub hpull hl hshort hleft, fun hleft => ?_⟩
    · refine ⟨_, exec_pullFetchDone_none hn hup hon hsub hpull hleft, ?_⟩
      rw [fetchError_eq (s := emits s _) hn halone]
      have hring (m : Nat) := getRing_modRing (emits s (pullReads s n (min 8 (notFetched (getRing s n))))) n m (fun x => { x with status := setBit x.status 60 true, cfg := setBit x.cfg 63 false })
      exact ⟨by rw [modRing_of_lt hn]; rfl, by rw [modRing_of_lt hn]; rfl, fun m hm => (hring m).trans (if_neg hm), (hring n).trans (if_pos rfl)⟩
  · intro n s c rest hn hup x hwait hon hcpl
    refine ⟨fun ok hfull => ?_, fun hroom hfinal hmask => ?_, fun hroom hfinal hint hmask hfn hmasked hposted => ?_⟩
    · rw [exec_completionWrite hn hup hwait hon hcpl, if_pos hfull]
    · obtain ⟨hlen, hseq, hstatus, hphase, hhandle, hresult⟩ := cplBytes_fields c (getRing s n).tail.toNat (ringSize (getRing s n))
      refine ⟨_, cplBytes c (getRing s n).tail.toNat (ringSize (getRing s n)), completionWrite_quiet hn hup hwait hon hcpl hroom hfinal hmask, ?_, hlen, hseq, hstatus, hphase, hhandle, hresult,
        ?_, fun m hm => (getRing_cplWritten m).trans (if_neg hm), (getRing_cplWritten n).trans ((if_pos rfl).trans ?_)⟩
      · rw [cplWritten, modRing_of_lt hn]
        rfl
      · rw [cplWritten, modRing_of_lt hn]
        rfl
      · rw [writtenRing, hfinal, Bool.false_and, Bool.or_false]
    · refine ⟨_, cplBytes c (getRing s n).tail.toNat (ringSize (getRing s n)), completionWrite_final hn hup hwait hon hcpl hroom hfinal hint hmask hfn hmasked hposted, ?_, ?_, ?_⟩
      · rw [cplWritten, modRing_of_lt hn, modRing_of_lt hn]
        exact List.append_assoc ..
      · refine (getRing_modRing (cplWritten s n c rest) n n _).trans ((if_pos rfl).trans ?_)
        rw [getRing_cplWritten, if_pos rfl]
        rfl
      · rw [cplWritten, modRing_of_lt hn, modRing_of_lt hn]
        rfl
  · intro n s hn hup hmask hage hsome fn v
    have hexec := exec_interruptAgeExpiry hup hmask hage hsome
    have hring := (getRing_modRing s n n (fun x => { x with unsignalled := 0, intDue := false })).trans (if_pos rfl)
    refine ⟨fun h => ⟨_, hexec.trans (congrArg _ (raiseInt_pending hn h)), ?_, ?_, hring⟩, fun hfn hv => ⟨_, hexec.trans (congrArg _ (raiseInt_sent hn hfn hv)), ?_, hring, ?_⟩⟩
    · rw [modRing_of_lt hn]
      rfl
    · rw [getFunc_modFunc, if_pos rfl]
      dsimp only
      split
      · next h => exact List.contains_iff_mem.1 h
      · exact List.mem_append_right _ (List.mem_singleton_self _)
    · rw [modRing_of_lt hn]
      rfl
    · rw [modRing_of_lt hn]
      rfl

end Sys2Proof.Machine
end

section
/-! SUPPORT. What firmware carries out for pour targets, wake tolerances and the power cap (R315, R322, R325, R409, R415, R473). -/

namespace Sys2Proof.Machine

open Sys2Proof

section
variable {s : State} {c : FwCmd}

theorem runFirmware_targetAdd (h : c.opcode = 0x20) : runFirmware s c = doTargetAdd s c.ring c.p := by rw [runFirmware, h]; rfl
theorem runFirmware_targetRemove (h : c.opcode = 0x21) : runFirmware s c = doTargetRemove s c.ring c.p := by rw [runFirmware, h]; rfl
theorem runFirmware_tolerance (h : c.opcode = 0x40) : runFirmware s c = doTolerance s c.ring c.p := by rw [runFirmware, h]; rfl
theorem runFirmware_powerCap (h : c.opcode = 0x41) : runFirmware s c = doPowerCap s c.ring c.p := by rw [runFirmware, h]; rfl

end

/-! ## Pour targets -/

/-- The target that POUR_TARGET_ADD adds on `port` (R315, R322). -/
def addedTarget (s : State) (p : Packet) (port : Nat) : Target :=
  { tenant := p.tenant, host := decide (p.le 18 1 = 1), ports := BitVec.ofNat 4 (p.le 19 1), destQpn := BitVec.ofNat 24 (p.le 20 3), pmtu := BitVec.ofNat 8 (p.le 23 1),
    gid := BitVec.ofNat 128 (p.le 24 16), rkey := BitVec.ofNat 32 (p.le 40 4), startPsn := BitVec.ofNat 24 (p.le 44 3), regionAddr := BitVec.ofNat 64 (p.le 48 8),
    regionLen := BitVec.ofNat 64 (p.le 56 8), qpn := if decide (p.le 18 1 = 1) then 0 else Config.localQpn s.iod.targetsAdded,
    psn := if decide (p.le 18 1 = 1) then 0 else Config.localPsn s.iod.targetsAdded, port := port, st := .active, cause := 0, moved := false, retries := 0, tries := 0, triedPorts := [],
    rnr := false, log := none, consumed := 0, pos := 0, produced := 0, queue := [], recIdx := 0, crcs := [], flights := [], cnps := 0 }

/-- The state once the target is in its partition. -/
def targetAdded (s : State) (n : Nat) (x : Part) (p : Packet) (port : Nat) : State :=
  { setPart s n { x with targets := tabInsert (p.le 16 2) (addedTarget s p port) x.targets } with iod := { s.iod with targetsAdded := s.iod.targetsAdded + 1 } }

theorem packet_le_lt (p : Packet) (off n : Nat) : p.le off n < 2 ^ (8 * n) := Nat.mod_lt _ (Nat.two_pow_pos _)

section
variable {s : State} {ring : Nat} {p : Packet} {x : Part}

theorem doTargetAdd_ok {port : Nat} (hx : getPart? s (partNo s ring) = some x) (hp : targetParams p = none) (hnew : tabGet? (p.le 16 2) x.targets = none)
    (hroom : (s.parts.map (fun q => q.2.targets.length)).sum < 1024)
    (hport : (p.le 18 1 = 1 ∧ port = 0) ∨ (p.le 18 1 = 0 ∧ leastLoaded s (portsFor s (BitVec.ofNat 4 (p.le 19 1))) = some port)) :
    ∃ r, doTargetAdd s ring p = finish (targetAdded s (partNo s ring) x p port) ring p 0 r := by
  have hchosen : (if decide (p.le 18 1 = 1) then some 0 else leastLoaded s (portsFor s (BitVec.ofNat 4 (p.le 19 1)))) = some port := by
    obtain ⟨hhost, rfl⟩ | ⟨hrdma, hleast⟩ := hport
    · rw [decide_eq_true hhost, if_pos rfl]
    · rw [decide_eq_false (by omega), if_neg (by decide), hleast]
  unfold doTargetAdd
  dsimp only
  rw [hx]
  dsimp only
  rw [hp]
  dsimp only
  rw [hnew, if_neg (by decide), if_neg (by omega), hchosen]
  exact ⟨_, rfl⟩

theorem doTargetAdd_no_port (hx : getPart? s (partNo s ring) = some x) (hp : targetParams p = none) (hnew : tabGet? (p.le 16 2) x.targets = none)
    (hroom : (s.parts.map (fun q => q.2.targets.length)).sum < 1024) (hrdma : p.le 18 1 = 0) (hports : portsFor s (BitVec.ofNat 4 (p.le 19 1)) = []) :
    doTargetAdd s ring p = finish s ring p 0x0401 0 := by
  have hchosen : (if decide (p.le 18 1 = 1) then some 0 else leastLoaded s (portsFor s (BitVec.ofNat 4 (p.le 19 1)))) = none := by
    rw [decide_eq_false (by omega), if_neg (by decide), hports]
    rfl
  unfold doTargetAdd
  dsimp only
  rw [hx]
  dsimp only
  rw [hp]
  dsimp only
  rw [hnew, if_neg (by decide), if_neg (by omega), hchosen]
  rfl

/-- Lent page lists that no pour reads any more are given back. -/
def lentSettled (x : Part) : Part :=
  { x with returned := x.returned ++ ((x.lent.filter (fun l => !poursRead x l)).flatMap id), lent := x.lent.filter (poursRead x), stir := x.stir || x.lent.any (fun l => !poursRead x l) }

/-- The partition without a target, its lent pages settled (R473). -/
def withoutTarget (x : Part) (k : Nat) : Part := { lentSettled { x with targets := tabErase k x.targets } with cancelled := [] }

theorem settleLent_eq {n : Nat} (hx : getPart? s n = some x) : settleLent s n = setPart s n (lentSettled x) := modPart_of_some hx _

/-- A partition with nothing cancelled posts nothing when its flights settle. -/
theorem settleCancelled_of_nil {n : Nat} (hx : getPart? s n = some x) (hc : x.cancelled = []) : settleCancelled s n = setPart s n { x with cancelled := [] } := by
  unfold settleCancelled
  rw [hx]
  dsimp only
  rw [hc]
  rfl

/-- POUR_TARGET_REMOVE of a target that no request needs (R473). -/
theorem doTargetRemove_ok {t : Target} (hx : getPart? s (partNo s ring) = some x) (hp : paramsOk p [(16, 2)]) (ht : tabGet? (p.le 16 2) x.targets = some t)
    (htenant : ringLevel s ring = 0 → t.tenant = p.tenant) (hfree : ∀ q ∈ entriesOf s (partNo s ring), lives q.2 = true → names q.2 (p.le 16 2) = false)
    (hwait : s.pair.waitingEntries = []) (hc : x.cancelled = []) :
    ∃ s2, doTargetRemove s ring p = finish s2 ring p 0 0 ∧ { s2 with parts := s.parts } = s ∧
      ∀ q, getPart? s2 q = if q = partNo s ring then some (withoutTarget x (p.le 16 2)) else getPart? s q := by
  generalize hs1 : setPart s (partNo s ring) { x with targets := tabErase (p.le 16 2) x.targets } = s1
  have hpart1 : getPart? s1 (partNo s ring) = some { x with targets := tabErase (p.le 16 2) x.targets } := by rw [← hs1, getPart_setPart, if_pos rfl]
  have hlent : getPart? (settleLent s1 (partNo s ring)) (partNo s ring) = some (lentSettled { x with targets := tabErase (p.le 16 2) x.targets }) := by
    rw [settleLent_eq hpart1, getPart_setPart, if_pos rfl]
  have hcancelled := settleCancelled_of_nil hlent hc
  have hany : (entriesOf s (partNo s ring)).any (fun q => lives q.2 && names q.2 (p.le 16 2)) = false :=
    List.any_eq_false.2 fun q hq h => by
      obtain ⟨hlives, hnames⟩ := Bool.and_eq_true_iff.1 h
      rw [hfree q hq hlives] at hnames
      cases hnames
  refine ⟨settleCancelled (settleLent s1 (partNo s ring)) (partNo s ring), ?_, ?_, fun q => ?_⟩
  · unfold doTargetRemove
    dsimp only
    rw [hx]
    dsimp only
    rw [show p.badByte [(16, 2)] = none from hp]
    dsimp only
    rw [ht]
    dsimp only
    rw [if_neg (fun h => h.2 (htenant h.1)), hany, hwait, if_neg (by simp), hs1]
    rfl
  · rw [hcancelled, settleLent_eq hpart1, ← hs1]
    rfl
  · rw [hcancelled, getPart_setPart]
    by_cases hq : q = partNo s ring
    · rw [if_pos hq, if_pos hq]
      rfl
    · rw [if_neg hq, if_neg hq, settleLent_eq hpart1, getPart_setPart, if_neg hq, ← hs1, getPart_setPart, if_neg hq]

/-! ## Wake tolerances -/

theorem mem_of_tabGet {α : Type} {k : Nat} {v : α} {t : List (Nat × α)} (h : tabGet? k t = some v) : (k, v) ∈ t := by
  induction t with
  | nil => cases h
  | cons q r ih =>
    obtain ⟨j, w⟩ := q
    by_cases hj : k = j
    · subst hj
      rw [tabGet?, if_pos rfl] at h
      rw [Option.some.inj h]
      exact List.mem_cons_self ..
    · rw [tabGet?, if_neg hj] at h
      exact List.mem_cons_of_mem _ (ih h)

/-- Every partition is in A0 and none is on its way there. -/
def AllAwake (s : State) : Prop := ∀ q ∈ s.parts, q.2.pstate = 0 ∧ q.2.waking = none

/-- With nobody on the way to A0, a tolerance command completes at once (R409). -/
theorem settleTol_of_awake (hawake : AllAwake s) (hcmds : s.pwr.tolCmds = [(ring, p)]) : settleTol s = finish { s with pwr := { s.pwr with tolCmds := [] } } ring p 0 0 := by
  have hall : s.parts.all (fun r => r.2.waking.isNone) = true := List.all_eq_true.2 fun r hr => by rw [(hawake r hr).2]; rfl
  have hpart (n : Nat) : (getPart? s n).elim true (fun x => x.waking.isNone) = true := by
    cases hx : getPart? s n with
    | none => rfl
    | some x => rw [Option.elim_some, (hawake _ (mem_of_tabGet hx)).2]; rfl
  unfold settleTol
  dsimp only
  rw [hcmds]
  cases hring : ringPart s ring with
  | none => simp [hring, hall]; rfl
  | some n => simp [hring, hpart]; rfl

/-- A tolerance that no partition has to wake for completes at once (R409). -/
theorem tolerance_settles {f : State → Nat × Part → State} (hawake : AllAwake s) (hnone : s.pwr.tolCmds = []) (hf : ∀ q, f s q = s) (l : List (Nat × Part)) :
    settleTol { l.foldl f s with pwr := { (l.foldl f s).pwr with tolCmds := (l.foldl f s).pwr.tolCmds ++ [(ring, p)] } } = finish s ring p 0 0 := by
  have hsame : { s with pwr := { s.pwr with tolCmds := [] } } = s := by rw [← hnone]
  rw [List.foldl_fixed' hf, settleTol_of_awake (s := { s with pwr := { s.pwr with tolCmds := s.pwr.tolCmds ++ [(ring, p)] } }) hawake (by rw [hnone]; rfl)]
  exact congrArg (fun e => finish e ring p 0 0) hsame

theorem doTolerance_device (hring : ringPart s ring = none) (hp : paramsOk p [(16, 4)]) (hawake : AllAwake s) (hnone : s.pwr.tolCmds = []) :
    doTolerance s ring p = finish { s with pwr := { s.pwr with tolUs := BitVec.ofNat 32 (p.le 16 4) } } ring p 0 0 := by
  unfold doTolerance
  rw [show p.badByte [(16, 4)] = none from hp]
  dsimp only
  rw [hring]
  refine tolerance_settles (s := { s with pwr := { s.pwr with tolUs := BitVec.ofNat 32 (p.le 16 4) } }) hawake hnone (fun q => ?_) _
  dsimp only
  split
  · next x hx =>
    have hp0 : x.pstate = 0 := (hawake _ (mem_of_tabGet hx)).1
    rw [if_neg (by omega), if_neg (by omega)]
  · rfl

theorem doTolerance_part {n : Nat} (hring : ringPart s ring = some n) (hx : getPart? s n = some x) (hp : paramsOk p [(16, 4)]) (hawake : AllAwake s) (hnone : s.pwr.tolCmds = []) :
    doTolerance s ring p = finish (setPart s n { x with tolUs := BitVec.ofNat 32 (p.le 16 4) }) ring p 0 0 := by
  have hawake' : AllAwake (setPart s n { x with tolUs := BitVec.ofNat 32 (p.le 16 4) }) := by
    intro q hq
    obtain rfl | hold := mem_tabInsert hq
    · have hold := hawake _ (mem_of_tabGet hx)
      exact hold
    · exact hawake q hold
  unfold doTolerance
  rw [show p.badByte [(16, 4)] = none from hp]
  dsimp only
  rw [hring]
  dsimp only
  rw [modPart_of_some hx]
  refine tolerance_settles hawake' hnone (fun q => ?_) _
  split
  · next y hy =>
    have hp0 : y.pstate = 0 := (hawake' _ (mem_of_tabGet hy)).1
    rw [if_neg (by omega), if_neg (by omega)]
  · rfl

/-! ## The power cap -/

theorem doPowerCap_ok (hp : paramsOk p [(16, 2)]) (hlow : 800 ≤ p.le 16 2) (hhigh : p.le 16 2 ≤ 2600) :
    doPowerCap s ring p = { s with pwr := { s.pwr with capW := BitVec.ofNat 16 (p.le 16 2), capCmds := s.pwr.capCmds ++ [(ring, p)] } } := by
  unfold doPowerCap
  rw [show p.badByte [(16, 2)] = none from hp]
  dsimp only
  rw [if_neg (by omega)]

theorem doPowerCap_bad (hp : paramsOk p [(16, 2)]) (hout : p.le 16 2 < 800 ∨ 2600 < p.le 16 2) : doPowerCap s ring p = badParam s ring p 16 := by
  unfold doPowerCap
  rw [show p.badByte [(16, 2)] = none from hp]
  dsimp only
  rw [if_pos hout]

end

/-- Settles O35: each command at the front of the queue, by the state that its meaning leaves. -/
theorem targetAndPowerCommands : Obligations.TargetAndPowerCommands := by
  unfold Obligations.TargetAndPowerCommands
  constructor
  · intro s c rest hfront s1 n x hx
    refine ⟨fun hop hp hnew hroom => ⟨fun port hport => ?_, fun hrdma hports => ?_⟩, fun hop hp t ht htenant hfree hwait hc => ?_⟩
    · obtain ⟨r, hdo⟩ := doTargetAdd_ok (s := s1) hx hp hnew hroom hport
      have htoNat {w k : Nat} (hk : k < 2 ^ w) : (BitVec.ofNat w k).toNat = k := Nat.mod_eq_of_lt hk
      exact ⟨_, addedTarget s1 c.p port, r, hfront.exec.trans (congrArg _ ((runFirmware_targetAdd hop).trans hdo)), (getPart_setPart s1 n n _).trans (if_pos rfl),
        rfl, rfl, rfl, rfl, htoNat (packet_le_lt ..), htoNat (packet_le_lt ..), rfl, rfl, rfl, rfl, rfl, rfl⟩
    · exact hfront.exec.trans (congrArg _ ((runFirmware_targetAdd hop).trans (doTargetAdd_no_port (s := s1) hx hp hnew hroom hrdma hports)))
    · obtain ⟨s2, hdo, hframe, hparts⟩ := doTargetRemove_ok (s := s1) hx hp ht htenant hfree hwait hc
      exact ⟨s2, withoutTarget x (c.p.le 16 2), hfront.exec.trans (congrArg _ ((runFirmware_targetRemove hop).trans hdo)), (hparts n).trans (if_pos rfl), rfl, rfl, rfl, rfl,
        (congrArg State.table hframe :), fun q hq => (hparts q).trans (if_neg hq)⟩
  · intro s c rest hfront s1
    refine ⟨fun hop hp hring hawake hnone => ?_, fun n x hop hp hring hx hawake hnone => ?_, fun hop hp hlow hhigh => ?_, fun hop hp hout => ?_⟩
    · exact hfront.exec.trans (congrArg _ ((runFirmware_tolerance hop).trans (doTolerance_device (s := s1) hring hp hawake hnone)))
    · exact hfront.exec.trans (congrArg _ ((runFirmware_tolerance hop).trans (doTolerance_part (s := s1) hring hx hp hawake hnone)))
    · exact hfront.exec.trans (congrArg _ ((runFirmware_powerCap hop).trans (doPowerCap_ok hp hlow hhigh)))
    · exact hfront.exec.trans (congrArg _ ((runFirmware_powerCap hop).trans (doPowerCap_bad hp hout)))

end Sys2Proof.Machine
end

section
/-! SUPPORT. What firmware carries out as service commands: telemetry, the fault log, self-tests and firmware images (R316, R398, R400, R423, R424). -/

namespace Sys2Proof.Machine

open Sys2Proof

section
variable {s : State} {c : FwCmd}

theorem runFirmware_telemetry {b : Bool} (h : c.opcode = 0x60) (hin : c.input = .hostOk b) : runFirmware s c = doTelemetry s c.ring c.p b := by rw [runFirmware, h, hin]; rfl
theorem runFirmware_logRead {b : Bool} (h : c.opcode = 0x61) (hin : c.input = .hostOk b) : runFirmware s c = doLogRead s c.ring c.p b := by rw [runFirmware, h, hin]; rfl
theorem runFirmware_selftest {m : BitVec 8} (h : c.opcode = 0x70) (hin : c.input = .mask m) : runFirmware s c = doSelftest s c.ring c.p m := by rw [runFirmware, h, hin]; rfl
theorem runFirmware_stage {i : Option FwImage} (h : c.opcode = 0x71) (hin : c.input = .fw i) : runFirmware s c = doStage s c.ring c.p i := by rw [runFirmware, h, hin]; rfl
theorem runFirmware_activate {a b : Bool} (h : c.opcode = 0x72) (hin : c.input = .activate a b) : runFirmware s c = doActivate s c.ring c.p a b := by rw [runFirmware, h, hin]; rfl

end

/-! ## Records of one size -/

section
variable {α β : Type} {f : α → List β} {m : Nat}

theorem length_flatMap_const (hf : ∀ a, (f a).length = m) (l : List α) : (l.flatMap f).length = m * l.length := by
  induction l with
  | nil => rfl
  | cons a r ih => rw [List.flatMap_cons, List.length_append, hf, ih, List.length_cons, Nat.mul_succ, Nat.add_comm]

/-- Record `k` of a run of records of one size stands at `m * k`. -/
theorem drop_flatMap_const (hf : ∀ a, (f a).length = m) {l : List α} {k : Nat} {a : α} (h : l[k]? = some a) : ∃ rest, (l.flatMap f).drop (m * k) = f a ++ rest := by
  induction l generalizing k with
  | nil => cases h
  | cons b r ih =>
    rw [List.flatMap_cons]
    cases k with
    | zero =>
      rw [Option.some.inj h]
      exact ⟨_, rfl⟩
    | succ k =>
      obtain ⟨rest, hrest⟩ := ih h
      refine ⟨rest, ?_⟩
      rw [Nat.mul_succ, Nat.add_comm, ← List.drop_drop, List.drop_left' (hf b), hrest]

end

/-! ## TELEMETRY_READ and LOG_READ -/

/-- A counter as TELEMETRY_READ writes it: its offset and its value (R316). -/
def counterBytes (q : Nat × Word64) : List Byte := natToBytes 8 q.1 ++ natToBytes 8 q.2.toNat

theorem counterBytes_length (q : Nat × Word64) : (counterBytes q).length = 16 := by rw [counterBytes, List.length_append, natToBytes_length, natToBytes_length]

theorem recordBytes_length (r : LogRec) : (recordBytes r).length = 64 := by
  simp only [recordBytes, List.length_append, natToBytes_length, List.length_replicate, List.length_cons, List.length_nil]

/-- Counter `k` of those written stands at 16 `k`, its offset before its value. -/
theorem counterBytes_at {l : List (Nat × Word64)} {k o : Nat} {v : Word64} (h : l[k]? = some (o, v)) (ho : o < 2 ^ 64) :
    bytesToNat (((l.flatMap counterBytes).drop (16 * k)).take 8) = o ∧ bytesToNat (((l.flatMap counterBytes).drop (16 * k + 8)).take 8) = v.toNat := by
  obtain ⟨rest, hrest⟩ := drop_flatMap_const counterBytes_length h
  have hlen (n : Nat) : (natToBytes 8 n).length = 8 := natToBytes_length 8 n
  rw [← List.drop_drop, hrest, counterBytes, List.append_assoc, List.take_left' (hlen _), List.drop_left' (hlen _), List.take_left' (hlen _)]
  exact ⟨bytesToNat_natToBytes_of_lt ho, bytesToNat_natToBytes_of_lt v.isLt⟩

section
variable {s : State} {ring : Nat} {p : Packet}

theorem doTelemetry_ok (hp : paramsOk p [(16, 14)]) (haddr : p.le 16 8 % 64 = 0) (hlen : p.le 24 4 % 16 = 0) (hmax : p.le 24 4 ≤ 1048576) (hkind : p.le 28 2 = 0) :
    let b := ((countersOf s (ringFunc s ring)).take (p.le 24 4 / 16)).flatMap counterBytes
    doTelemetry s ring p true = finish (emit s (.hostWrite (ringFunc s ring) (BitVec.ofNat 64 (p.le 16 8)) b)) ring p 0 (BitVec.ofNat 128 (b.length + s.pwr.timebase.toNat * 2 ^ 64)) := by
  intro b
  have hresult : resAt 16 b.length + resAt 24 s.pwr.timebase.toNat = b.length + s.pwr.timebase.toNat * 2 ^ 64 := by
    rw [resAt, resAt, Nat.shiftLeft_eq, Nat.shiftLeft_eq]
    norm_num
  unfold doTelemetry
  dsimp only
  rw [show p.badByte [(16, 14)] = none from hp]
  dsimp only
  rw [if_neg (not_not.2 haddr), if_neg (by omega), if_neg (by omega), if_neg (by omega), if_pos rfl,
    show (if p.le 28 2 = 1 then sensorsOf s else countersOf s (ringFunc s ring)) = countersOf s (ringFunc s ring) from if_neg (by omega), ← hresult]
  rfl

/-- The records LOG_READ writes to a global reader (R400). -/
def readRecords (s : State) (p : Packet) : List LogRec := (s.log.filter (fun r => decide (p.le 28 8 ≤ r.seq))).take (p.le 24 4 / 64)

theorem doLogRead_ok (hp : paramsOk p [(16, 20)]) (hlen : p.le 24 4 % 64 = 0) (hlevel : ringLevel s ring = 2) :
    ∃ r, doLogRead s ring p true = finish (emit s (.hostWrite (ringFunc s ring) (BitVec.ofNat 64 (p.le 16 8)) ((readRecords s p).flatMap recordBytes))) ring p 0 r ∧
      r.toNat % 2 ^ 32 = (readRecords s p).length % 2 ^ 32 := by
  have hsees : (s.log.filter (fun r => decide (p.le 28 8 ≤ r.seq) && (ringLevel s ring = 2 || r.part.toNat = 0xFF || r.part.toNat = partNo s ring))).take (p.le 24 4 / 64) = readRecords s p := by
    rw [readRecords]
    exact congrArg (List.take _) (List.filter_congr fun r _ => by simp [hlevel])
  have hlow (n lost next : Nat) : (BitVec.ofNat 128 (resAt 16 n + resAt 20 (lost % 2 ^ 32) + resAt 24 (next % 2 ^ 64))).toNat % 2 ^ 32 = n % 2 ^ 32 := by
    rw [BitVec.toNat_ofNat, resAt, resAt, resAt, Nat.shiftLeft_eq, Nat.shiftLeft_eq, Nat.shiftLeft_eq]
    norm_num
    omega
  unfold doLogRead
  dsimp only
  rw [show p.badByte [(16, 20)] = none from hp]
  dsimp only
  rw [if_neg (not_not.2 hlen), if_pos rfl, hsees]
  exact ⟨_, rfl, hlow _ _ _⟩

/-! ## SELFTEST, FIRMWARE_STAGE and FIRMWARE_ACTIVATE -/

theorem doSelftest_ok (hp : paramsOk p [(16, 1)]) (hm : p.le 16 1 ≤ 15) (pass : BitVec 8) : doSelftest s ring p pass =
    finish s ring p 0 (BitVec.ofNat 128 ((BitVec.ofNat 8 (p.le 16 1) &&& pass).toNat + (BitVec.ofNat 8 (p.le 16 1) &&& ~~~pass).toNat * 256)) := by
  unfold doSelftest
  rw [show p.badByte [(16, 1)] = none from hp]
  dsimp only
  rw [if_neg (by omega), resAt, resAt, Nat.shiftLeft_eq, Nat.shiftLeft_eq]
  norm_num
  rfl

theorem doStage_ok {i : FwImage} (hp : paramsOk p [(16, 12)]) (hlen : p.le 24 4 ≤ 33554432) (hwp : s.mod.flashWp = false) (hi : imageVerified s i = true) :
    doStage s ring p (some i) = finish { s with mod := { s.mod with staged := some i } } ring p 0 0 := by
  unfold doStage
  rw [show p.badByte [(16, 12)] = none from hp]
  dsimp only
  rw [if_neg (by omega), hwp, if_neg (by decide), if_pos hi]
  rfl

theorem faultLog_frame (s : State) (cls code part action unit : Nat) (phys : BitVec 16) (detail : BitVec 128) :
    { faultLog s cls code part action unit phys detail with log := s.log, logNext := s.logNext, logLost := s.logLost } = s := by
  unfold faultLog
  dsimp only
  split
  · rfl
  · split <;> rfl

theorem doActivate_ok {i : FwImage} (b : Bool) (hp : paramsOk p [(16, 2)]) (hstaged : s.mod.staged = some i) (hversion : i.version.toNat = p.le 16 2) (hsolo : s.pair.partner = none) :
    doActivate s ring p true b = finish (faultLog { s with mod := { s.mod with fwSlot := !s.mod.fwSlot, fwVersion := i.version, fwSvn := i.svn, staged := none, sessions := 0 } } 16 0 0xFF 0 0 0xFFFF 0) ring p 0 0 := by
  unfold doActivate
  rw [show p.badByte [(16, 2)] = none from hp]
  dsimp only
  rw [hstaged]
  dsimp only
  rw [if_neg (not_not.2 hversion), hsolo, if_neg (by simp), if_neg (by decide)]
  rfl

end

/-- Settles O36: each command at the front of the queue, by the state that its meaning leaves. -/
theorem serviceCommandsTakeEffect : Obligations.ServiceCommandsTakeEffect := by
  unfold Obligations.ServiceCommandsTakeEffect
  intro s c rest hfront s1 fn
  refine ⟨fun hop hin hp haddr hlen hmax hkind => ?_, fun hop hin hp hlen hlevel => ?_, fun pass hop hin hp hm => ?_, fun i hop hin hp hlen hwp hi => ?_,
    fun i b hop hin hp hstaged hversion hsolo => ?_⟩
  · have hdo := doTelemetry_ok (s := s1) (ring := c.ring) hp haddr hlen hmax hkind
    have hlength := length_flatMap_const counterBytes_length ((countersOf s1 fn).take (c.p.le 24 4 / 16))
    refine ⟨_, by rw [hlength, List.length_take], fun k o v hk hin ho => counterBytes_at ?_ ho, hfront.exec.trans (congrArg _ ((runFirmware_telemetry hop hin).trans hdo))⟩
    rw [hlength, List.length_take] at hin
    rw [List.getElem?_take_of_lt (by omega), hk]
  · obtain ⟨r, hdo, hr⟩ := doLogRead_ok (s := s1) (ring := c.ring) hp hlen hlevel
    exact ⟨r, hfront.exec.trans (congrArg _ ((runFirmware_logRead hop hin).trans hdo)), hr, length_flatMap_const recordBytes_length _⟩
  · exact hfront.exec.trans (congrArg _ ((runFirmware_selftest hop hin).trans (doSelftest_ok hp hm pass)))
  · exact hfront.exec.trans (congrArg _ ((runFirmware_stage hop hin).trans (doStage_ok (s := s1) hp hlen hwp hi)))
  · have hdo := doActivate_ok (s := s1) (ring := c.ring) b hp hstaged hversion hsolo
    have hframe := faultLog_frame { s1 with mod := { s.mod with fwSlot := !s.mod.fwSlot, fwVersion := i.version, fwSvn := i.svn, staged := none, sessions := 0 } } 16 0 0xFF 0 0 0xFFFF 0
    exact ⟨_, hfront.exec.trans (congrArg _ ((runFirmware_activate hop hin).trans hdo)), (congrArg State.mod hframe :), (congrArg (fun e : State => { e with mod := s.mod }) hframe :)⟩

end Sys2Proof.Machine
end

section
/-! SUPPORT. What firmware carries out for groups, and a group that does not form in time (R358, R359). -/

namespace Sys2Proof.Machine

open Sys2Proof

section
variable {s : State} {c : FwCmd}

theorem runFirmware_groupCreate {l : Option MemberList} (h : c.opcode = 0x30) (hin : c.input = .members l) : runFirmware s c = doGroupCreate s c.ring c.p l := by rw [runFirmware, h, hin]; rfl
theorem runFirmware_groupDestroy (h : c.opcode = 0x31) : runFirmware s c = doGroupDestroy s c.ring c.p := by rw [runFirmware, h]; rfl

end

/-! ## Groups that are freed -/

/-- What freeing a group changes: the list of groups, what is sent, and the rings, own or adopted, that complete its commands. -/
structure GroupFreed (g : Nat) (s s' : State) : Prop where
  groups : s'.fab.groups = tabErase g s.fab.groups
  alone : mirroring s' = false
  frame : { s' with fab := s.fab, out := s.out, rings := s.rings, pair := s.pair } = s

section
variable {s : State}

theorem GroupFreed.finish {s' : State} {g : Nat} (h : GroupFreed g s s') (ring : Nat) (p : Packet) (st : BitVec 16) (r : BitVec 128) :
    GroupFreed g s (finish s' ring p st r) := by
  have hrings := ringsOnly_finish h.alone ring p st r
  refine ⟨(congrArg (fun e : State => e.fab.groups) hrings : _).trans h.groups, hrings.mirroring.trans h.alone, ?_⟩
  exact (congrArg (fun e : State => { e with fab := s.fab, out := s.out, rings := s.rings, pair := s.pair }) hrings : _).trans h.frame

theorem groupFreed_freeGroup (halone : mirroring s = false) (g : Nat) (q : Group) : GroupFreed g s (freeGroup s g q) := by
  have herased : GroupFreed g s (emit { s with fab := { s.fab with groups := tabErase g s.fab.groups } } (.groupMsg g 4 0)) := ⟨rfl, halone, rfl⟩
  unfold freeGroup
  dsimp only
  cases q.cmd with
  | none =>
    cases q.endCmd with
    | none => exact herased
    | some c => exact herased.finish ..
  | some c =>
    cases q.endCmd with
    | none => exact herased.finish ..
    | some d => exact (herased.finish ..).finish ..

/-- What freeing some groups leaves: none of them is there, and the frame of each. -/
theorem foldl_freeGroup (l : List (Nat × Group)) (halone : mirroring s = false) :
    { l.foldl (fun s g => freeGroup s g.1 g.2) s with fab := s.fab, out := s.out, rings := s.rings, pair := s.pair } = s ∧
      ∀ k, (k ∈ l.map Prod.fst ∨ tabGet? k s.fab.groups = none) → tabGet? k (l.foldl (fun s g => freeGroup s g.1 g.2) s).fab.groups = none := by
  induction l generalizing s with
  | nil => exact ⟨rfl, fun k h => h.resolve_left (by simp)⟩
  | cons a r ih =>
    have hfreed := groupFreed_freeGroup halone a.1 a.2
    obtain ⟨hframe, hgone⟩ := ih hfreed.alone
    rw [List.foldl_cons]
    refine ⟨(congrArg (fun e : State => { e with fab := s.fab, out := s.out, rings := s.rings, pair := s.pair }) hframe : _).trans hfreed.frame, fun k hk => hgone k ?_⟩
    rw [hfreed.groups]
    by_cases hka : k = a.1
    · exact .inr (by rw [hka, tabGet_erase_self])
    · rw [tabGet_erase_other hka]
      exact hk.imp (fun h => (List.mem_cons.1 h).resolve_left hka) id

/-! ## GROUP_CREATE and GROUP_DESTROY -/

/-- Every level is one of the three that 7 allows. -/
theorem memberLevel_allowed (s : State) (id : BitVec 64) : ¬ (7 >>> memberLevel s id) % 2 = 0 := by
  unfold memberLevel
  split
  · decide
  · split <;> decide

/-- The group that GROUP_CREATE forms (R358). -/
structure Formed (s : State) (n ring : Nat) (p : Packet) (l : MemberList) (g : Group) : Prop where
  st : g.st = .forming
  part : g.part = n
  rank : g.rank = p.le 20 2
  key : g.key = BitVec.ofNat 64 (p.le 32 8)
  joined : g.joined = 1
  cmd : g.cmd = some (ring, p)
  list : g.list = l

theorem doGroupCreate_ok {ring : Nat} {p : Packet} {x : Part} {img : Image} {l : MemberList} (hx : getPart? s (partNo s ring) = some x) (hp : paramsOk p [(16, 6), (24, 16)])
    (hslot : p.le 16 1 ≤ 15) (himg : x.image = some img) (hfree : tabGet? (p.le 16 1) s.fab.groups = none) (hlevels : p.le 17 1 = 7) (hlow : 2 ≤ p.le 18 2) (hhigh : p.le 18 2 ≤ 4096)
    (hlist : listBad (partNo s ring) img p l = none) :
    ∃ g, Formed s (partNo s ring) ring p l g ∧
      doGroupCreate s ring p (some l) = emit { s with fab := { s.fab with groups := tabInsert (p.le 16 1) g s.fab.groups } } (.groupMsg (p.le 16 1) 0 l.crc.toNat) := by
  have hallowed (others : List Nat) (f : Nat → BitVec 64) : (others.map (fun r => memberLevel s (f r))).any (fun k => (7 >>> k) % 2 = 0) = false := by
    rw [List.any_map, List.any_eq_false]
    intro r _
    rw [Function.comp_apply, decide_eq_true_eq]
    exact memberLevel_allowed s (f r)
  unfold doGroupCreate
  dsimp only
  rw [hx]
  dsimp only
  rw [show p.badByte [(16, 6), (24, 16)] = none from hp]
  dsimp only
  rw [if_neg (by omega), himg]
  dsimp only
  rw [hfree, if_neg (by decide), if_neg (by omega), if_neg (by omega)]
  rw [hlist]
  dsimp only
  rw [hlevels, hallowed, if_neg (by decide)]
  exact ⟨_, ⟨rfl, rfl, rfl, rfl, rfl, rfl, rfl⟩, rfl⟩

/-- GROUP_DESTROY of a partition with no steep running frees the group (R359). -/
theorem doGroupDestroy_idle {ring : Nat} {p : Packet} {x : Part} {g : Group} (halone : mirroring s = false) (hx : getPart? s (partNo s ring) = some x) (hp : paramsOk p [(16, 1)])
    (hg : tabGet? (p.le 16 1) s.fab.groups = some g) (hpart : g.part = partNo s ring) (hdest : g.destroying = false) (hphase : x.phase = .none) :
    tabGet? (p.le 16 1) (doGroupDestroy s ring p).fab.groups = none ∧ (doGroupDestroy s ring p).table = s.table ∧ (doGroupDestroy s ring p).tiles = s.tiles := by
  generalize hs1 : ({ s with fab := { s.fab with groups := tabInsert (p.le 16 1) { g with destroying := true, endCmd := some (ring, p) } s.fab.groups } } : State) = s1
  have hdo : doGroupDestroy s ring p = settleGroups s1 (partNo s ring) := by
    unfold doGroupDestroy
    dsimp only
    rw [hx, show p.badByte [(16, 1)] = none from hp]
    dsimp only
    rw [hg]
    dsimp only
    rw [if_neg (not_not.2 hpart), hdest, if_neg (by decide), if_pos hphase, hs1]
  have halone1 : mirroring s1 = false := by rw [← hs1]; exact halone
  have hin : p.le 16 1 ∈ (s1.fab.groups.filter (fun g => decide (g.2.part = partNo s ring) && g.2.destroying)).map Prod.fst := by
    refine List.mem_map.2 ⟨(p.le 16 1, { g with destroying := true, endCmd := some (ring, p) }), List.mem_filter.2 ⟨mem_of_tabGet ?_, ?_⟩, rfl⟩
    · rw [← hs1]
      exact tabGet_insert_self ..
    · exact Bool.and_eq_true_iff.2 ⟨decide_eq_true hpart, rfl⟩
  obtain ⟨hframe, hgone⟩ := foldl_freeGroup (s1.fab.groups.filter (fun g => decide (g.2.part = partNo s ring) && g.2.destroying)) halone1
  rw [hdo, settleGroups]
  refine ⟨hgone _ (.inl hin), (congrArg State.table hframe : _).trans (by rw [← hs1]), (congrArg State.tiles hframe : _).trans (by rw [← hs1])⟩

end

theorem exec_groupFormTimeout {s : State} {g : Fin 16} {q : Group} (hq : tabGet? g s.fab.groups = some q) (hst : q.st = .forming) : exec (.groupFormTimeout g) s = .next (freeGroup s g q) := by
  show execGroupFormTimeout g s = _
  unfold execGroupFormTimeout
  rw [hq]
  exact if_pos hst

/-- Settles O37: the group that is formed, the groups that are freed, and the timeout. -/
theorem groupCommandsTakeEffect : Obligations.GroupCommandsTakeEffect := by
  unfold Obligations.GroupCommandsTakeEffect
  constructor
  · intro s c rest hfront s1 n x hx
    refine ⟨fun img l hop hin hp hslot himg hfree hlevels hlow hhigh hlist => ?_, fun g hop hp hg hpart hdest hphase => ?_⟩
    · obtain ⟨g, hg, hdo⟩ := doGroupCreate_ok (s := s1) hx hp hslot himg hfree hlevels hlow hhigh hlist
      have hkey : g.key.toNat = c.p.le 32 8 := by rw [hg.key]; exact Nat.mod_eq_of_lt (packet_le_lt ..)
      exact ⟨_, g, hfront.exec.trans (congrArg _ ((runFirmware_groupCreate hop hin).trans hdo)), rfl, rfl, rfl, hg.st, hg.part, hg.rank, hkey, hg.joined, hg.cmd, hg.list⟩
    · exact ⟨_, hfront.exec.trans (congrArg _ (runFirmware_groupDestroy hop)), doGroupDestroy_idle (s := s1) hfront.alone hx hp hg hpart hdest hphase⟩
  · exact fun s g q hq hst => exec_groupFormTimeout hq hst

end Sys2Proof.Machine
end

section
/-! SUPPORT. The reads of a composition and the writing of its row maps (R11, R19, R240, R241, R253, R267). -/

namespace Sys2Proof.Machine

open Sys2Proof

/-! ## Completions and deltas -/

/-- From `s` to `s'` only completions were posted and deltas sent: rings, the deltas that wait for the partner, and what was sent. -/
def PostsOnly (s s' : State) : Prop :=
  { s' with rings := s.rings, out := s.out, pair := { s'.pair with adopted := s.pair.adopted, nextDelta := s.pair.nextDelta, sent := s.pair.sent } } = s

theorem PostsOnly.refl (s : State) : PostsOnly s s := rfl

theorem PostsOnly.trans {s s1 s2 : State} (h : PostsOnly s s1) (k : PostsOnly s1 s2) : PostsOnly s s2 := by
  unfold PostsOnly at *
  rw [← h, ← k]

theorem postsOnly_foldl {α : Type} {f : State → α → State} (hf : ∀ s a, PostsOnly s (f s a)) (l : List α) (s : State) : PostsOnly s (l.foldl f s) := by
  induction l generalizing s with
  | nil => rfl
  | cons a r ih => exact (hf s a).trans (ih (f s a))

theorem postsOnly_sendDelta (s : State) (d : Delta) : PostsOnly s (sendDelta s d).1 := by
  unfold sendDelta
  split <;> rfl

theorem postsOnly_mirror (s : State) (d : Delta) : PostsOnly s (mirror s d) := postsOnly_sendDelta s d

theorem postsOnly_modRing (s : State) (r : Nat) (f : Ring → Ring) : PostsOnly s (modRing s r f) := by
  unfold modRing
  split <;> rfl

theorem postsOnly_enqueueCpl (s : State) (r : Nat) (c : Completion) : PostsOnly s (enqueueCpl s r c) :=
  (postsOnly_sendDelta s _).trans (postsOnly_modRing ..)

theorem postsOnly_postCpl (s : State) (r : Nat) (p : Packet) (status : BitVec 16) (final event : Bool) (detail : BitVec 4) (result : BitVec 128) :
    PostsOnly s (postCpl s r p status final event detail result) := postsOnly_enqueueCpl ..

theorem postsOnly_settleNops (s : State) (r : Nat) : PostsOnly s (settleNops s r) :=
  (postsOnly_modRing s r _).trans (postsOnly_foldl (fun s (q : Packet × List (BitVec 32)) => postsOnly_postCpl s r q.1 stOK true false 0 0) _ _)

theorem postsOnly_commandDone (s : State) (r : Nat) (seq : BitVec 32) : PostsOnly s (commandDone s r seq) := (postsOnly_modRing s r _).trans (postsOnly_settleNops ..)

theorem postsOnly_postReq (s : State) (e : Entry) (status : BitVec 16) (final event : Bool) (detail : BitVec 4) (result : BitVec 128) :
    PostsOnly s (postReq s e status final event detail result) := by
  unfold postReq
  split
  · exact (postsOnly_postCpl ..).trans (postsOnly_commandDone ..)
  · exact postsOnly_postCpl ..

theorem postsOnly_postEvent (s : State) (e : Entry) (status : BitVec 16) : PostsOnly s (postEvent s e status) := by
  unfold postEvent
  split
  · exact postsOnly_postReq ..
  · exact .refl s

/-! ## Preemption and the groups -/

theorem fab_modPart (s : State) (p : Nat) (f : Part → Part) : (modPart s p f).fab = s.fab := (congrArg State.fab (modPart_frame s p f) :)

theorem fab_setEntryM (s : State) (i : Nat) (e : Entry) : (setEntryM s i e).fab = s.fab := (congrArg State.fab (postsOnly_mirror (setEntry s i e) (.request i e.st e.f)) :)

/-- Preempting a request leaves the fabric alone. -/
theorem fab_preemptNow (s : State) (p i : Nat) : (preemptNow s p i).fab = s.fab := by
  unfold preemptNow
  split
  · dsimp only
    rw [partCtr, fab_modPart]
    refine (congrArg State.fab (postsOnly_postEvent _ _ _) : _).trans ?_
    rw [fab_setEntryM, stirPart, fab_modPart, returnPages, fab_modPart]
  · rfl

theorem fab_settleMarks (s : State) (p : Nat) (l : List Nat) : (settleMarks s p l).fab = s.fab := by
  unfold settleMarks
  induction l generalizing s with
  | nil => rfl
  | cons i r ih =>
    rw [List.foldl_cons, ih]
    split
    · split
      · exact fab_preemptNow s p i
      · rfl
    · rfl

/-! ## What a composition reads -/

section
variable {s : State} {e : Fin 32768} {q : Entry} {x : Part} {r : Placement} {img : Image} (hq : getEntry? s e = some q) (hx : getPart? s (entryPart q) = some x)
  (hr : placedOf x e = some r) (himg : x.image = some img)
include hq hx hr himg

/-- The rows of the composition that hold tokens of entry `i` take them (R240). -/
def rowsWithTokens (i pos : Nat) (l : List Word32) (x : Part) : Part :=
  { x with next := x.next.map (fun st => { st with rows := st.rows.map (fun z => if z.entry = i ∧ !z.head then { z with tokens := l.drop pos } else z) }) }

omit hq hx hr himg in
theorem dueTokens {b : Bool} (h : b = true) : ¬ (!b) = true := by rw [h]; decide

/-- Tokens that pass their checks join the request's (R240, R253). -/
theorem exec_tokenReadDone_good (hdue : tokensDue q r = true) {l : List Word32} (hlen : l.length = r.pos + r.count - q.tokens.length) (hgood : tokensBad x img.vocab q l = false) :
    exec (.tokenReadDone e (some l)) s = .next (modPart (setEntryM s e (takeTokens q l)) (entryPart q) (rowsWithTokens e r.pos (q.tokens ++ l))) := by
  show execTokenReadDone e (some l) s = _
  unfold execTokenReadDone
  rw [hq]
  dsimp only
  rw [hx]
  dsimp only
  rw [hr, himg]
  dsimp only
  rw [if_neg (dueTokens hdue), if_neg (not_not.2 hlen), hgood, if_neg (by decide)]
  rfl

/-- Tokens that cannot be read or fail a check fail their request, and the composition goes on without it (R241). -/
theorem exec_tokenReadDone_bad (hdue : tokensDue q r = true) {o : Option (List Word32)}
    (hbad : o = none ∨ ∃ l, o = some l ∧ l.length = r.pos + r.count - q.tokens.length ∧ tokensBad x img.vocab q l = true) :
    exec (.tokenReadDone e o) s = .next (recomposeWithout s (entryPart q) e (fun s => failRequest s e 0x0201 false)) := by
  show execTokenReadDone e o s = _
  unfold execTokenReadDone
  rw [hq]
  dsimp only
  rw [hx]
  dsimp only
  rw [hr, himg]
  dsimp only
  rw [if_neg (dueTokens hdue)]
  obtain rfl | ⟨l, rfl, hlen, hbad⟩ := hbad
  · rfl
  · dsimp only
    rw [if_neg (not_not.2 hlen), if_pos hbad]
    rfl

theorem exec_hsBlockReadDone (hdue : blockDue q r = true) (b : BitVec 2048) : exec (.hsBlockReadDone e (some b)) s =
    .next (if q.f.stopSet.toNat < bits x.hsTable 63 48 ∧ blockOk b img.vocab then setEntry s e { q with block := some b }
      else recomposeWithout s (entryPart q) e (fun s => failRequest s e 0x0201 false)) := by
  show execHsBlockReadDone e (some b) s = _
  unfold execHsBlockReadDone
  rw [hq]
  dsimp only
  rw [hx]
  dsimp only
  rw [hr, himg]
  dsimp only
  rw [if_neg (dueTokens hdue)]
  split <;> rfl

end

/-- What the tokens that are taken leave of the request's state and mark (R240). -/
theorem takeTokens_fields (q : Entry) (l : List Word32) : (takeTokens q l).tokens = q.tokens ++ l ∧ (takeTokens q l).st = q.st ∧
    (q.f.crcHwm.toNat < (q.tokens ++ l).length → (q.tokens ++ l).length < 2 ^ 21 →
      (takeTokens q l).f.crcHwm.toNat = (q.tokens ++ l).length ∧ (takeTokens q l).f.tokenCrc = crc32c (tokBytes (q.tokens ++ l))) := by
  refine ⟨rfl, rfl, fun hmore hlt => ?_⟩
  unfold takeTokens
  dsimp only
  rw [if_pos hmore]
  exact ⟨Nat.mod_eq_of_lt hlt, rfl⟩

/-! ## Row maps -/

theorem writeRowMaps_frame (s : State) (p : Nat) (st : Steep) : { writeRowMaps s p st with tiles := s.tiles } = s := by
  unfold writeRowMaps writeRows
  generalize rowsOfSteep s st = rows
  induction List.range st.tiles.length generalizing s with
  | nil => rfl
  | cons i l ih => exact (congrArg (fun e : State => { e with tiles := s.tiles }) (ih (modTile s (st.tiles.getD i 0) _)) :)

/-- The state once the row maps of a composition are written (R11). -/
def mapsWritten (s : State) (p : Nat) (x : Part) (st : Steep) : State :=
  writeRowMaps (setPart s p { x with next := some { st with composed := true }, delayed := x.delayed || (decide (x.phase = .none) && decide (st.frozenAt + 8000 < now s)) }) p
    { st with composed := true }

theorem exec_compositionDone {s : State} {p : Fin 64} {x : Part} {st : Steep} (hx : getPart? s p = some x) (hst : x.next = some st) (hcomposed : st.composed = false)
    (halone : groupsOf s p = []) (hin : ∀ r ∈ st.rows, r.dead = false → ∀ e, getEntry? s r.entry = some e → tokensDue e r = false ∧ blockDue e r = false) :
    exec (.compositionDone p) s = .next (if x.phase = .none then settleMarks (mapsWritten s p x st) p st.marks else mapsWritten s p x st) := by
  have hfab : (mapsWritten s p x st).fab = s.fab := (congrArg State.fab (writeRowMaps_frame (setPart s p _) p _) :)
  have hgroups : groupsOf (if x.phase = .none then settleMarks (mapsWritten s p x st) p st.marks else mapsWritten s p x st) p = [] := by
    have hsame : (if x.phase = .none then settleMarks (mapsWritten s p x st) p st.marks else mapsWritten s p x st).fab = s.fab := by
      split
      · rw [fab_settleMarks, hfab]
      · exact hfab
    rw [groupsOf, hsame]
    exact halone
  show execCompositionDone p s = _
  unfold execCompositionDone
  rw [hx]
  dsimp only
  rw [hst]
  dsimp only
  rw [hcomposed, if_neg]
  · unfold mapsWritten at hgroups ⊢
    rw [hgroups]
  · rintro (h | h)
    · cases h
    · rw [Bool.not_eq_true', List.all_eq_false] at h
      obtain ⟨r, hr, h⟩ := h
      refine h ?_
      cases hdead : r.dead with
      | true => rfl
      | false =>
        rw [Bool.false_or]
        split
        · next e he =>
          obtain ⟨htokens, hblock⟩ := hin r hr hdead e he
          rw [htokens, hblock]
          rfl
        · rfl

/-- Settles O39: the reads by what they return, the row maps by the state in which they are written. -/
theorem compositionReads : Obligations.CompositionReads := by
  unfold Obligations.CompositionReads
  constructor
  · intro s e q x r img hq hx hr himg
    refine ⟨fun hdue halone l hlen hgood => ?_, fun hdue o hbad => exec_tokenReadDone_bad hq hx hr himg hdue hbad, fun hdue b hin hok => ?_, fun hdue b hbad => ?_⟩
    · have hexec := exec_tokenReadDone_good hq hx hr himg hdue hlen hgood
      rw [setEntryM, mirror_of_alone (s := setEntry s e (takeTokens q l)) halone] at hexec
      have hentry (j : Nat) : getEntry? (modPart (setEntry s e (takeTokens q l)) (entryPart q) (rowsWithTokens e r.pos (q.tokens ++ l))) j =
          if j = e.val then some (takeTokens q l) else getEntry? s j :=
        (congrArg (fun s : State => getEntry? s j) (modPart_frame ..) : _).trans (getEntry_setEntry s e j _)
      obtain ⟨htokens, hst, hmark⟩ := takeTokens_fields q l
      exact ⟨_, takeTokens q l, hexec, (hentry e).trans (if_pos rfl), htokens, hst, fun j hj => (hentry j).trans (if_neg hj), hmark,
        (congrArg State.tiles (modPart_frame (setEntry s e (takeTokens q l)) _ _) :), fun n hn => getPart_modPart_of_ne hn _⟩
    · rw [exec_hsBlockReadDone hq hx hr himg hdue b, if_pos ⟨hin, hok⟩]
    · rw [exec_hsBlockReadDone hq hx hr himg hdue b, if_neg]
      rintro ⟨hin, hok⟩
      obtain hout | hbad := hbad
      · omega
      · rw [hok] at hbad
        cases hbad
  · intro s p x st hx hst hcomposed halone hin late
    have hframe := writeRowMaps_frame (setPart s p { x with next := some { st with composed := true }, delayed := x.delayed || late }) p { st with composed := true }
    have hpart (n : Nat) := getPart_setPart s p n { x with next := some { st with composed := true }, delayed := x.delayed || late }
    have hparts (n : Nat) := (congrArg (fun e : State => getPart? e n) hframe :)
    exact ⟨mapsWritten s p x st, exec_compositionDone hx hst hcomposed halone hin, (hparts p).trans ((hpart p).trans (if_pos rfl)), fun n hn => (hparts n).trans ((hpart n).trans (if_neg hn)),
      (congrArg State.table hframe :), (congrArg State.rings hframe :), (congrArg State.out hframe :)⟩

end Sys2Proof.Machine
end

section
/-! SUPPORT. Newts that take the output rows of a completed steep (R190, R233, R234, R263, R269-R276). -/

namespace Sys2Proof.Machine

open Sys2Proof

/-! ## What a newt's read leaves -/

section
variable {s : State} {p : Nat} {x : Part}

/-- A read in the newts' class keeps the partition's phase and the counters of the I/O die. -/
theorem caddyRead_newt (hx : getPart? s p = some x) (alloc : Bool) (l : List (Nat × Nat)) :
    (∃ y, getPart? (caddyRead s p .newt alloc l) p = some y ∧ y.phase = x.phase) ∧ (caddyRead s p .newt alloc l).iod.ctrs = s.iod.ctrs := by
  unfold caddyRead
  rw [hx]
  dsimp only
  generalize (granulesOf l).filter _ = miss
  have hmod := getPart_modPart_self hx (fun x => partCtrOf (partCtrOf (partCtrOf x 0x128 ((granulesOf l).length - miss.length)) 0x130 miss.length) 0x118 (64 * miss.length))
  have hiod : (modPart s p (fun x => partCtrOf (partCtrOf (partCtrOf x 0x128 ((granulesOf l).length - miss.length)) 0x130 miss.length) 0x118 (64 * miss.length))).iod.ctrs = s.iod.ctrs :=
    (congrArg (fun e : State => e.iod.ctrs) (modPart_frame s p _) :)
  generalize modPart s p _ = s1 at hmod hiod ⊢
  exact ⟨⟨_, hmod, rfl⟩, hiod⟩

theorem table_caddyRead (s : State) (p : Nat) (c : RegClass) (alloc : Bool) (l : List (Nat × Nat)) : (caddyRead s p c alloc l).table = s.table :=
  (congrArg State.table (caddyRead_frame s p c alloc l) :)

/-- An entry that is written and mirrored: the table has it, and nothing but posts differs. -/
theorem getEntry_setEntryM (s : State) (i j : Nat) (e : Entry) : getEntry? (setEntryM s i e) j = if j = i then some e else getEntry? s j :=
  (congrArg (fun q : State => getEntry? q j) (postsOnly_mirror (setEntry s i e) (.request i e.st e.f)) : _).trans (getEntry_setEntry s i j e)

theorem setEntryM_frame (s : State) (i : Nat) (e : Entry) : { setEntryM s i e with table := s.table, pair := s.pair, out := s.out, rings := s.rings } = s :=
  (congrArg (fun q : State => { q with table := s.table, pair := s.pair, out := s.out, rings := s.rings }) (postsOnly_mirror (setEntry s i e) (.request i e.st e.f)) :)

theorem getPart_setEntryM (s : State) (i : Nat) (e : Entry) (n : Nat) : getPart? (setEntryM s i e) n = getPart? s n :=
  (congrArg (fun q : State => getPart? q n) (setEntryM_frame s i e) :)

end

/-! ## The state after the rows are taken -/

/-- The addresses and lengths of the rows that a sample takes from the logit buffer. -/
def sampleRuns (img : Image) (w : Sample) : List (Nat × Nat) :=
  (List.range (sampleSpan img w).2.1).map (fun k => ((sampleSpan img w).1 + k * (4 * max img.vocab img.embedDim), 4 * (sampleSpan img w).2.2))

/-- The rows themselves. -/
def sampleWords (x : Part) (img : Image) (w : Sample) : List (List Word32) :=
  (List.range (sampleSpan img w).2.1).map (fun k => memWords x.mem ((sampleSpan img w).1 + k * (4 * max img.vocab img.embedDim)) (sampleSpan img w).2.2)

/-- The state once a newt has taken the rows of a sample. -/
def rowsTaken (s : State) (i : Nat) (q : Entry) (x : Part) (img : Image) (w : Sample) (rest : List Sample) : State :=
  let s1 := caddyRead s (entryPart q) .newt false (sampleRuns img w)
  match w with
  | .first _ => sampleTokens s1 (entryPart q) i q img rest (sampleWords x img w) false
  | .round _ _ => sampleTokens s1 (entryPart q) i q img rest (sampleWords x img w) true
  | .score pos _ _ => sampleRows s1 i q img rest pos true (sampleWords x img w)
  | .embed pos _ _ => sampleRows s1 i q img rest pos false (sampleWords x img w)

section
variable {s : State} {e : Fin 32768} {q : Entry} {x : Part} {img : Image} {w : Sample} {rest : List Sample} {chk : Check}
  (hq : getEntry? s e = some q) (hx : getPart? s (entryPart q) = some x) (himg : x.image = some img) (hw : q.samples = w :: rest) (hready : sampleReady q w = true)
include hq hx himg hw hready

/-- A cancelled request's rows are dropped (R19). -/
theorem exec_newtSample_cancelling (hst : q.st = .cancelling) (bad : List Nat) : exec (.newtSample e bad chk) s = .next (setEntry s e { q with samples := rest }) := by
  show execNewtSample e bad chk s = _
  unfold execNewtSample
  rw [hq]
  dsimp only
  rw [hx, hw]
  dsimp only
  rw [himg]
  dsimp only
  rw [hready, if_neg (by decide), if_pos hst]

/-- A newt without credit waits (R190). -/
theorem exec_newtSample_no_credit (hst : q.st ≠ .cancelling) (hcredit : creditOk s (entryPart q) .newt = false) (bad : List Nat) : exec (.newtSample e bad chk) s = .next s := by
  show execNewtSample e bad chk s = _
  unfold execNewtSample
  rw [hq]
  dsimp only
  rw [hx, hw]
  dsimp only
  rw [himg]
  dsimp only
  rw [hready, if_neg (by decide), if_neg hst, hcredit, if_pos (by decide)]

/-- A newt whose check fails is lost (R263, R279). -/
theorem exec_newtSample_fail (hst : q.st ≠ .cancelling) (hcredit : creditOk s (entryPart q) .newt = true) {n : Nat} (hn : q.newt = some n) (bad : List Nat) (f : CheckFail)
    (loc : Option (BitVec 8 × BitVec 12)) : exec (.newtSample e bad (.fail f loc)) s = .next (loseNewt s n) := by
  show execNewtSample e bad (.fail f loc) s = _
  unfold execNewtSample
  rw [hq]
  dsimp only
  rw [hx, hw]
  dsimp only
  rw [himg]
  dsimp only
  rw [hready, if_neg (by decide), if_neg hst, hcredit, if_neg (by decide), hn]

/-- A newt whose check passes takes the rows, and the granules reported on the way are reported. -/
theorem exec_newtSample_passed (hst : q.st ≠ .cancelling) (hcredit : creditOk s (entryPart q) .newt = true) (hchk : checkPassed chk = true) (bad : List Nat) :
    exec (.newtSample e bad chk) s =
      .next (reportRead (rowsTaken s e q x img w rest) ((bad.filterMap (fun k => (granulesOf (sampleRuns img w))[k]?)).map (fun k => firstGranule (entryPart q) + k))) := by
  show execNewtSample e bad chk s = _
  unfold execNewtSample
  rw [hq]
  dsimp only
  rw [hx, hw]
  dsimp only
  rw [himg]
  dsimp only
  rw [hready, if_neg (by decide), if_neg hst, hcredit, if_neg (by decide)]
  cases chk with
  | fail f loc => cases hchk
  | pass => cases w <;> rfl
  | retryPass => cases w <;> rfl
  | corrected => cases w <;> rfl
  | cells a b => cases w <;> rfl

theorem exec_newtSample_clean (hst : q.st ≠ .cancelling) (hcredit : creditOk s (entryPart q) .newt = true) (hchk : checkPassed chk = true) :
    exec (.newtSample e [] chk) s = .next (rowsTaken s e q x img w rest) :=
  (exec_newtSample_passed hq hx himg hw hready hst hcredit hchk []).trans (congrArg _ (reportRead_nil _))

end

/-! ## Tokens and values -/

section
variable {s : State} {p i : Nat} {q : Entry} {x : Part} {img : Image} {rest : List Sample} {rows : List (List Word32)}

/-- A first token that does not end the request (R269). -/
theorem sampleTokens_first {b : BitVec 2048} (hb : q.block = some b) (hst : q.st = .headstart)
    (hstop : stopCode img q.f b [BitVec.ofNat 32 (sampleLogits b q.f.seed q.f.length.toNat 0 1 (rows.headD []))] = 0) :
    sampleTokens s p i q img rest rows false = modWaiting
      (setEntryM s i { q with samples := rest, emitted := [BitVec.ofNat 32 (sampleLogits b q.f.seed q.f.length.toNat 0 1 (rows.headD []))], stop := 0, base := q.f.length.toNat }) p i
      (fun j => { j with wait := false }) := by
  have hgo : ¬ ((0 : BitVec 8) ≠ 0 ∨ q.st = .pouring) := by rw [hst]; decide
  unfold sampleTokens
  rw [hb]
  dsimp only
  rw [if_pos (by decide), firstToken]
  dsimp only
  rw [hstop, if_neg hgo]

/-- The request after a round (R270-R276). -/
def roundTaken (q : Entry) (img : Image) (b : BitVec 2048) (rest : List Sample) (rows : List (List Word32)) : Entry :=
  { q with samples := rest, emitted := (decideRound img q.f b q.tokens rows q.proposals q.emitted 0).1, stop := 0, rounds := q.rounds + 1, roundOut := false, base := q.f.length.toNat + (decideRound img q.f b q.tokens rows q.proposals q.emitted 0).1.length - 1 }

/-- A round that does not end the request, while a steep runs. -/
theorem sampleTokens_round {b : BitVec 2048} (hx : getPart? s p = some x) (hphase : x.phase ≠ .none) (hb : q.block = some b)
    (hstop : (decideRound img q.f b q.tokens rows q.proposals q.emitted 0).2.1 = 0) :
    sampleTokens s p i q img rest rows true = stirPart (iodCtr (iodCtr (setEntryM s i (roundTaken q img b rest rows)) 0x100 1) 0x110
      (decideRound img q.f b q.tokens rows q.proposals q.emitted 0).2.2) p := by
  have hstirred (s1 : State) (a : Nat) (h : getPart? s1 p = some x) : idleCompose (stirPart (iodCtr (iodCtr s1 0x100 1) 0x110 a) p) p = stirPart (iodCtr (iodCtr s1 0x100 1) 0x110 a) p :=
    idleCompose_of_running (getPart_modPart_self (s := iodCtr (iodCtr s1 0x100 1) 0x110 a) h (fun x => { x with stir := true })) hphase
  have hidle (y : Entry) (a : Nat) := hstirred (setEntryM s i y) a ((getPart_setEntryM s i y p).trans hx)
  unfold sampleTokens
  rw [hb]
  dsimp only
  rw [if_neg (by decide), hstop, if_neg (by decide), hidle, roundTaken, hb]

/-- A round counts itself and the proposals it accepts. -/
theorem ctrs_of_round (s : State) (a p : Nat) : let s' := stirPart (iodCtr (iodCtr s 0x100 1) 0x110 a) p
    smGet s'.iod.ctrs 0x100 = smGet s.iod.ctrs 0x100 + 1 ∧ smGet s'.iod.ctrs 0x110 = smGet s.iod.ctrs 0x110 + BitVec.ofNat 64 a := by
  intro s'
  have hiod : s'.iod = (iodCtr (iodCtr s 0x100 1) 0x110 a).iod := (congrArg State.iod (modPart_frame (iodCtr (iodCtr s 0x100 1) 0x110 a) p _) :)
  rw [hiod]
  refine ⟨(smGet_smSet_other _ _ (by decide)).trans (smGet_smSet_self ..), (smGet_smSet_self ..).trans ?_⟩
  exact congrArg (· + _) (smGet_smSet_other _ _ (by decide))

/-- The request after SCORE or EMBED rows, its values gathered (R233, R234). -/
def gatheredEntry (q : Entry) (img : Image) (rest : List Sample) (g : List Word32) : Entry :=
  if rest = [] ∧ q.st = .pouring then closeRows img { q with samples := rest, gathered := g } else { q with samples := rest, gathered := g }

theorem sampleRows_score (pos : Nat) : sampleRows s i q img rest pos true rows =
    setEntryM s i (gatheredEntry q img rest (q.gathered ++ rows.mapIdx (fun k l => scoreLp l (q.tokens.getD (pos + k + 1) 0).toNat))) := rfl

theorem sampleRows_embed (pos : Nat) : sampleRows s i q img rest pos false rows = setEntryM s i (gatheredEntry q img rest (if img.poolMean then rows.foldl poolAdd q.gathered else rows.getLastD [])) := rfl

theorem samples_gatheredEntry (g : List Word32) : (gatheredEntry q img rest g).samples = rest := by
  unfold gatheredEntry
  split <;> rfl

theorem gatheredEntry_open (g : List Word32) (h : rest ≠ [] ∨ q.st ≠ .pouring) : gatheredEntry q img rest g = { q with samples := rest, gathered := g } :=
  if_neg (fun k => h.elim (· k.1) (· k.2))

theorem gatheredEntry_closed (g : List Word32) (hrest : rest = []) (hst : q.st = .pouring) : gatheredEntry q img rest g = closeRows img { q with samples := rest, gathered := g } := if_pos ⟨hrest, hst⟩

/-- A SCORE result is the values gathered (R234). -/
theorem closeRows_score {g : List Word32} (hkind : q.f.kind = 2) : closeRows img { q with samples := rest, gathered := g } =
    { q with samples := rest, gathered := g, outBytes := tokBytes g, resultDue := true } := by
  unfold closeRows
  dsimp only
  rw [hkind]
  rfl

/-- An EMBED result is the last row, or the mean of the rows (R233). -/
theorem closeRows_embed {g : List Word32} (hkind : q.f.kind = 1) : closeRows img { q with samples := rest, gathered := g } =
    { q with samples := rest, gathered := if img.poolMean then g.map (fun v => fdiv v (toF32 (.fin false q.f.length.toNat 0))) else g, outBytes := vectorBytes img.embedFmt.toNat (if img.poolMean then g.map (fun v => fdiv v (toF32 (.fin false q.f.length.toNat 0))) else g), resultDue := true } := by
  unfold closeRows
  dsimp only
  rw [hkind]
  rfl

theorem gathered_score (g : List Word32) (hkind : q.f.kind = 2) : (gatheredEntry q img rest g).gathered = g := by
  unfold gatheredEntry
  split
  · rw [closeRows_score hkind]
  · rfl

end

/-! ## The sample as a whole -/

section
variable {s : State} {e : Fin 32768} {q : Entry} {x : Part} {img : Image} {w : Sample} {rest : List Sample}

/-- The entry that the taken rows leave, with every other entry and the tiles as before. -/
structure EntryTaken (s s' : State) (i : Nat) (y : Entry) : Prop where
  entry : getEntry? s' i = some y
  others : ∀ k, k ≠ i → getEntry? s' k = getEntry? s k
  tiles : s'.tiles = s.tiles

theorem entryTaken_setEntryM (s : State) (i : Nat) (y : Entry) : EntryTaken s (setEntryM s i y) i y :=
  ⟨(getEntry_setEntryM ..).trans (if_pos rfl), fun _ hne => (getEntry_setEntryM ..).trans (if_neg hne), (congrArg State.tiles (setEntryM_frame s i y) :)⟩

/-- A state that differs in neither table nor tiles takes an entry as the other does. -/
theorem EntryTaken.transport {s s1 s2 s3 : State} {i : Nat} {y : Entry} (h : EntryTaken s1 s2 i y) (htable : s1.table = s.table) (htiles : s1.tiles = s.tiles) (htable' : s3.table = s2.table)
    (htiles' : s3.tiles = s2.tiles) : EntryTaken s s3 i y :=
  ⟨by rw [getEntry?, htable']; exact h.entry, fun _ hne => by rw [getEntry?, htable']; exact (h.others _ hne).trans (by rw [getEntry?, htable]; rfl), htiles'.trans (h.tiles.trans htiles)⟩

theorem tiles_caddyRead (s : State) (p : Nat) (c : RegClass) (alloc : Bool) (l : List (Nat × Nat)) : (caddyRead s p c alloc l).tiles = s.tiles :=
  (congrArg State.tiles (caddyRead_frame s p c alloc l) :)

theorem entryTaken_rows (p : Nat) (y : Entry) (l : List (Nat × Nat)) {s' : State} (htable : s'.table = (setEntryM (caddyRead s p .newt false l) e y).table)
    (htiles : s'.tiles = (setEntryM (caddyRead s p .newt false l) e y).tiles) : EntryTaken s s' e y :=
  (entryTaken_setEntryM (caddyRead s p .newt false l) e y).transport (table_caddyRead ..) (tiles_caddyRead ..) htable htiles

theorem rowsTaken_first {buf : Nat} {b : BitVec 2048} (hw : w = .first buf) (hb : q.block = some b) (hst : q.st = .headstart)
    (hstop : stopCode img q.f b [BitVec.ofNat 32 (sampleLogits b q.f.seed q.f.length.toNat 0 1 ((sampleWords x img w).headD []))] = 0) :
    EntryTaken s (rowsTaken s e q x img w rest) e
      { q with samples := rest, emitted := [BitVec.ofNat 32 (sampleLogits b q.f.seed q.f.length.toNat 0 1 ((sampleWords x img w).headD []))], stop := 0, base := q.f.length.toNat } := by
  subst hw
  have htaken := sampleTokens_first (s := caddyRead s (entryPart q) .newt false (sampleRuns img (.first buf))) (p := entryPart q) (i := e) (rest := rest) hb hst hstop
  show EntryTaken s (sampleTokens _ _ _ _ _ _ _ _) e _
  rw [htaken]
  exact entryTaken_rows _ _ _ (congrArg State.table (modPart_frame _ (entryPart q) _) :) (congrArg State.tiles (modPart_frame _ (entryPart q) _) :)

theorem entryTaken_round (s : State) (p i a : Nat) (y : Entry) : EntryTaken s (stirPart (iodCtr (iodCtr (setEntryM s i y) 0x100 1) 0x110 a) p) i y := by
  have hentered := entryTaken_setEntryM s i y
  generalize setEntryM s i y = s1 at hentered ⊢
  exact hentered.transport rfl rfl (congrArg State.table (modPart_frame (iodCtr (iodCtr s1 0x100 1) 0x110 a) p _) :) (congrArg State.tiles (modPart_frame (iodCtr (iodCtr s1 0x100 1) 0x110 a) p _) :)

theorem rowsTaken_eq_round {d buf : Nat} : rowsTaken s e q x img (.round d buf) rest =
    sampleTokens (caddyRead s (entryPart q) .newt false (sampleRuns img (.round d buf))) (entryPart q) e q img rest (sampleWords x img (.round d buf)) true := rfl

theorem rowsTaken_round {d buf : Nat} {b : BitVec 2048} (hx : getPart? s (entryPart q) = some x) (hphase : x.phase ≠ .none) (hw : w = .round d buf) (hb : q.block = some b)
    (hstop : (decideRound img q.f b q.tokens (sampleWords x img w) q.proposals q.emitted 0).2.1 = 0) :
    EntryTaken s (rowsTaken s e q x img w rest) e (roundTaken q img b rest (sampleWords x img w)) ∧
      smGet (rowsTaken s e q x img w rest).iod.ctrs 0x100 = smGet s.iod.ctrs 0x100 + 1 ∧
      smGet (rowsTaken s e q x img w rest).iod.ctrs 0x110 = smGet s.iod.ctrs 0x110 + BitVec.ofNat 64 (decideRound img q.f b q.tokens (sampleWords x img w) q.proposals q.emitted 0).2.2 := by
  subst hw
  obtain ⟨⟨y, hy, hyphase⟩, hctrs⟩ := caddyRead_newt hx false (sampleRuns img (.round d buf))
  have htable := table_caddyRead s (entryPart q) .newt false (sampleRuns img (.round d buf))
  have htiles := tiles_caddyRead s (entryPart q) .newt false (sampleRuns img (.round d buf))
  rw [rowsTaken_eq_round]
  generalize caddyRead s (entryPart q) .newt false (sampleRuns img (.round d buf)) = s1 at *
  rw [sampleTokens_round hy (by rw [hyphase]; exact hphase) hb hstop]
  obtain ⟨hrounds, haccepted⟩ := ctrs_of_round (setEntryM s1 e (roundTaken q img b rest (sampleWords x img (.round d buf))))
    (decideRound img q.f b q.tokens (sampleWords x img (.round d buf)) q.proposals q.emitted 0).2.2 (entryPart q)
  rw [(congrArg (fun e : State => e.iod.ctrs) (setEntryM_frame s1 e _) : _), hctrs] at hrounds haccepted
  exact ⟨(entryTaken_round ..).transport htable htiles rfl rfl, hrounds, haccepted⟩

theorem rowsTaken_score {pos n buf : Nat} (hw : w = .score pos n buf) : EntryTaken s (rowsTaken s e q x img w rest) e
    (gatheredEntry q img rest (q.gathered ++ (sampleWords x img w).mapIdx (fun k l => scoreLp l (q.tokens.getD (pos + k + 1) 0).toNat))) := by
  subst hw
  exact entryTaken_rows (entryPart q) _ (sampleRuns img (.score pos n buf)) rfl rfl

theorem rowsTaken_embed {pos n buf : Nat} (hw : w = .embed pos n buf) : EntryTaken s (rowsTaken s e q x img w rest) e
    (gatheredEntry q img rest (if img.poolMean then (sampleWords x img w).foldl poolAdd q.gathered else (sampleWords x img w).getLastD [])) := by
  subst hw
  exact entryTaken_rows (entryPart q) _ (sampleRuns img (.embed pos n buf)) rfl rfl

theorem length_sampleWords_score {pos n buf : Nat} (x : Part) (img : Image) : (sampleWords x img (.score pos n buf)).length = n := by
  rw [sampleWords, List.length_map, List.length_range]
  rfl

end

/-- Settles O41: a sample is dropped, waits, loses its newt, or leaves the entry that its kind says. -/
theorem newtsSample : Obligations.NewtsSample := by
  unfold Obligations.NewtsSample
  intro s e q x img w rest chk hq hx himg hw hready
  refine ⟨fun bad hst => exec_newtSample_cancelling hq hx himg hw hready hst bad, fun bad hst hcredit => exec_newtSample_no_credit hq hx himg hw hready hst hcredit bad, fun hst hcredit => ?_⟩
  intro rows others span
  have hclean := exec_newtSample_clean (chk := chk) hq hx himg hw hready hst hcredit
  refine ⟨fun bad n f loc hn hchk => ?_, fun hchk => ?_, ?_, ?_, fun pos n buf hchk hkind hscore => ?_, fun pos n buf hchk hkind hembed => ?_⟩
  · rw [hchk]
    exact exec_newtSample_fail hq hx himg hw hready hst hcredit hn bad f loc
  · exact ⟨_, hclean hchk, fun bad => exec_newtSample_passed hq hx himg hw hready hst hcredit hchk bad⟩
  · intro buf b hchk hkind hb hhead tok hstop
    have htaken := rowsTaken_first (s := s) (e := e) (x := x) (rest := rest) hkind hb hhead hstop
    exact ⟨_, hclean hchk, htaken.entry, htaken.others, htaken.tiles⟩
  · intro d buf b hchk hkind hb hphase o hstop
    obtain ⟨htaken, hrounds, haccepted⟩ := rowsTaken_round (e := e) (rest := rest) hx hphase hkind hb hstop
    exact ⟨_, hclean hchk, htaken.entry, ⟨htaken.others, htaken.tiles⟩, hrounds, haccepted⟩
  · have htaken := rowsTaken_score (s := s) (e := e) (q := q) (x := x) (img := img) (rest := rest) hkind
    refine ⟨_, _, hclean hchk, htaken.entry, samples_gatheredEntry _, ?_, fun k l hk => ?_, ⟨htaken.others, htaken.tiles⟩, fun hopen => ?_, fun hrest hpour => ?_⟩
    · rw [gathered_score _ hscore, List.length_append, List.length_mapIdx, hkind, length_sampleWords_score]
    · rw [gathered_score _ hscore, List.getElem?_append_right (by omega), Nat.add_sub_cancel_left, List.getElem?_mapIdx]
      show Option.map _ rows[k]? = _
      rw [hk]
      rfl
    · rw [gatheredEntry_open _ hopen]
    · rw [gatheredEntry_closed _ hrest hpour, closeRows_score hscore]
      exact ⟨rfl, rfl⟩
  · have htaken := rowsTaken_embed (s := s) (e := e) (q := q) (x := x) (img := img) (rest := rest) hkind
    refine ⟨_, _, hclean hchk, htaken.entry, samples_gatheredEntry _, ⟨htaken.others, htaken.tiles⟩, fun hopen => ?_, fun hrest hpour => ?_⟩
    · rw [gatheredEntry_open _ hopen]
      exact ⟨rfl, rfl⟩
    · rw [gatheredEntry_closed _ hrest hpour, closeRows_embed hembed]
      refine ⟨rfl, rfl, ?_⟩
      cases himean : img.poolMean <;> rfl

end Sys2Proof.Machine
end


section

/-! SUPPORT. The failures of the pour path: NAKs, ACK timeouts, RNR and ports (R334-R338). -/

namespace Sys2Proof.Machine

open Sys2Proof

/-! ## Targets of a partition -/

section
variable {s : State} {p k : Nat} {x : Part} {t : Target}

theorem getTarget_of_some (hx : getPart? s p = some x) (ht : tabGet? k x.targets = some t) : getTarget s p k = some t := by
  rw [getTarget, hx]
  exact ht

theorem modTarget_of_some (hx : getPart? s p = some x) (ht : tabGet? k x.targets = some t) (f : Target → Target) :
    modTarget s p k f = setPart s p { x with targets := tabInsert k (f t) x.targets } := by
  rw [modTarget, modPart_of_some hx, ht]

theorem movePair_of_least {tried : List Nat} {port : Nat} (hx : getPart? s p = some x) (ht : tabGet? k x.targets = some t)
    (hport : leastLoaded s ((portsFor s t.ports).filter (fun i => !tried.contains i && s.iod.portsMacsec.getLsbD i = s.iod.portsMacsec.getLsbD t.port)) = some port) :
    movePair s p k tried = emit (setPart s p { x with targets := tabInsert k { t with port := port, moved := true, tries := 0, triedPorts := tried } x.targets }) (.retransmit p k port (oldestFlight t)) := by
  unfold movePair
  rw [getTarget_of_some hx ht]
  dsimp only
  rw [hport]
  dsimp only
  rw [modTarget_of_some hx ht]

end

section
variable {s : State} {p : Fin 64} {k : Fin 1024} {x : Part} {t : Target} (hx : getPart? s p = some x) (ht : tabGet? k x.targets = some t) (hhost : t.host = false)
include hx ht hhost

theorem exec_targetNak (cause : Fin 3) : exec (.targetNak p k cause) s = .next (errTarget s p k (cause.val + 1)) := by
  show execTargetNak p k cause s = _
  unfold execTargetNak
  rw [getTarget_of_some hx ht]
  dsimp only
  rw [if_neg (by rw [hhost]; decide)]

/-- Up to seven timeouts send the writes that have no acknowledgement again (R334). -/
theorem exec_transportAckTimeout_again (hst : t.st ≠ .errored) (hflights : t.flights ≠ []) (htries : t.tries < 7) : exec (.transportAckTimeout p k) s =
    .next (emit (setPart s p { x with targets := tabInsert k { t with tries := t.tries + 1, retries := min 255 (t.retries + 1) } x.targets }) (.retransmit p k t.port (oldestFlight t))) := by
  show execTransportAckTimeout p k s = _
  unfold execTransportAckTimeout
  rw [getTarget_of_some hx ht]
  dsimp only
  rw [if_neg (by simp [hhost, hst, hflights]), if_pos htries, modTarget_of_some hx ht]

/-- The eighth moves the queue pair to the least loaded port that it may use and has not tried (R336). -/
theorem exec_transportAckTimeout_move {port : Nat} (hst : t.st ≠ .errored) (hflights : t.flights ≠ []) (htries : 7 ≤ t.tries)
    (hport : leastLoaded s ((portsFor s t.ports).filter (fun i => !(t.triedPorts ++ [t.port]).contains i && s.iod.portsMacsec.getLsbD i = s.iod.portsMacsec.getLsbD t.port)) = some port) :
    exec (.transportAckTimeout p k) s = .next (emit (setPart s p { x with targets := tabInsert k { t with port := port, moved := true, tries := 0, triedPorts := t.triedPorts ++ [t.port] } x.targets })
      (.retransmit p k port (oldestFlight t))) := by
  show execTransportAckTimeout p k s = _
  unfold execTransportAckTimeout
  rw [getTarget_of_some hx ht]
  dsimp only
  rw [if_neg (by simp [hhost, hst, hflights]), if_neg (Nat.not_lt.mpr htries), movePair_of_least hx ht hport]

theorem exec_cnpReceived : exec (.cnpReceived p k) s = .next (setPart s p { x with targets := tabInsert k { t with cnps := t.cnps + 1 } x.targets }) := by
  show execCnpReceived p k s = _
  rw [execCnpReceived, modTarget_of_some hx ht, if_neg (by rw [hhost]; decide)]

theorem exec_rnrNak (hst : t.st ≠ .errored) (hflights : t.flights ≠ []) : exec (.rnrNak p k) s = .next (setPart s p { x with targets := tabInsert k { t with rnr := true } x.targets }) := by
  show execRnrNak p k s = _
  rw [execRnrNak, modTarget_of_some hx ht, if_neg (by simp [hhost, hst, hflights])]

omit hhost in
theorem exec_rnrTimerExpiry (hrnr : t.rnr = true) : exec (.rnrTimerExpiry p k) s =
    .next (emit (setPart s p { x with targets := tabInsert k { t with rnr := false } x.targets }) (.retransmit p k t.port (oldestFlight t))) := by
  show execRnrTimerExpiry p k s = _
  unfold execRnrTimerExpiry
  rw [getTarget_of_some hx ht]
  dsimp only
  rw [if_pos hrnr, modTarget_of_some hx ht]

end

/-! ## Ports -/

theorem foldl_of_fixed {α β : Type} {f : β → α → β} {b : β} {l : List α} (h : ∀ a ∈ l, f b a = b) : l.foldl f b = b := by
  induction l with
  | nil => rfl
  | cons a l ih =>
    rw [List.foldl_cons, h a (List.mem_cons_self ..)]
    exact ih (fun c hc => h c (List.mem_cons_of_mem _ hc))

/-- A port that fails is fenced; no queue pair moves where none uses it (R337). -/
theorem exec_pourPortFail_unused {s : State} {port : Fin 4} (hup : s.iod.portsUp.getLsbD port = true)
    (hunused : ∀ q ∈ s.parts, ∀ r ∈ q.2.targets, r.2.port = port.val → r.2.host = true ∨ r.2.st = .errored) :
    exec (.pourPortFail port) s = .next (faultLog { s with iod := { s.iod with portsUp := setBit s.iod.portsUp port false, portsFenced := setBit s.iod.portsFenced port true } } 6 0 0xFF 4 (32 + port.val) 0xFFFF 0) := by
  have hlog := faultLog_frame { s with iod := { s.iod with portsUp := setBit s.iod.portsUp port false, portsFenced := setBit s.iod.portsFenced port true } } 6 0 0xFF 4 (32 + port.val) 0xFFFF 0
  have hparts := (congrArg State.parts hlog : _)
  show execPourPortFail port s = _
  unfold execPourPortFail
  rw [if_neg (by rw [hup]; decide)]
  dsimp only
  generalize faultLog _ _ _ _ _ _ _ _ = s1 at *
  refine congrArg Host.Outcome.next (foldl_of_fixed fun q hq => foldl_of_fixed fun r hr => ?_)
  have hkept := hunused q (hparts ▸ hq) r hr
  refine if_neg fun h => ?_
  obtain ⟨hhost, hst, hport⟩ := h
  exact (hkept hport).elim (fun e => by simp [e] at hhost) hst

theorem exec_pourPortReturn {s : State} {port : Fin 4} (hfenced : s.iod.portsFenced.getLsbD port = true) :
    exec (.pourPortReturn port) s = .next { s with iod := { s.iod with portsUp := setBit s.iod.portsUp port true, portsFenced := setBit s.iod.portsFenced port false } } := by
  show execPourPortReturn port s = _
  rw [execPourPortReturn, if_pos hfenced]

/-- Settles O45: each failure changes the target or the port that it names. -/
theorem pourFailures : Obligations.PourFailures := by
  unfold Obligations.PourFailures
  refine ⟨?_, fun s port => ⟨fun hup hunused => ?_, exec_pourPortReturn⟩⟩
  · intro s p k x t hx ht hhost put
    exact ⟨exec_targetNak hx ht hhost, exec_transportAckTimeout_again hx ht hhost, fun _ => exec_transportAckTimeout_move hx ht hhost, exec_cnpReceived hx ht hhost, exec_rnrNak hx ht hhost,
      exec_rnrTimerExpiry hx ht⟩
  · have hlog := faultLog_frame { s with iod := { s.iod with portsUp := setBit s.iod.portsUp port false, portsFenced := setBit s.iod.portsFenced port true } } 6 0 0xFF 4 (32 + port.val) 0xFFFF 0
    exact ⟨_, exec_pourPortFail_unused hup hunused, (congrArg State.iod hlog : _), (congrArg (fun e : State => { e with iod := s.iod }) hlog : _)⟩

end Sys2Proof.Machine

end


section

/-! SUPPORT. The lockstep of a group (R360). -/

namespace Sys2Proof.Machine

open Sys2Proof

section
variable {s : State} {p : Fin 64} {x : Part} {n : Nat} {g : Group} {l : List (Nat × Group)} (hx : getPart? s p = some x) (hg : groupsOf s p = (n, g) :: l)

theorem groupRank_of_cons {p : Nat} (hg : groupsOf s p = (n, g) :: l) : (groupRank s p).getD 0 = g.rank := by
  rw [groupRank, hg]
  rfl

section
variable {rank free : Nat} (hlead : g.rank = 0) (hrank : rank ≠ 0) (hmember : rank < g.list.members)
include hx hg hlead hrank hmember

/-- The leader keeps a member's count. -/
theorem exec_lockstepPageCount_kept (hawait : x.awaitCounts = false) : exec (.lockstepPageCount p rank free) s = .next (setPart s p { x with counts := tabInsert rank free x.counts }) := by
  show execLockstepPageCount p rank free s = _
  unfold execLockstepPageCount
  rw [hg, hx]
  dsimp only
  rw [if_neg (by omega), if_neg (by simp [hawait])]

/-- The last count that the leader waits for lets it compose. -/
theorem exec_lockstepPageCount_last (hawait : x.awaitCounts = true) (hall : g.list.members ≤ (tabInsert rank free x.counts).length + 1) :
    exec (.lockstepPageCount p rank free) s = .next (composeFrozen (setPart s p { x with counts := tabInsert rank free x.counts, awaitCounts := false }) p) := by
  show execLockstepPageCount p rank free s = _
  unfold execLockstepPageCount
  rw [hg, hx]
  dsimp only
  rw [if_neg (by omega), if_pos ⟨hawait, hall⟩]

end

include hg in
theorem exec_lockstepRelease_member (hrank : g.rank ≠ 0) : exec (.lockstepRelease p) s = .next (releaseSteep s p) := by
  show execLockstepRelease p s = _
  rw [execLockstepRelease, groupRank_of_cons hg, if_neg hrank]

include hg in
theorem exec_lockstepRelease_leader (hrank : g.rank = 0) : exec (.lockstepRelease p) s = .next s := by
  show execLockstepRelease p s = _
  rw [execLockstepRelease, groupRank_of_cons hg, if_pos hrank]

include hx hg in
theorem exec_lockstepAbort (charged : Bool) (rows : List (Fin 32768)) (hphase : x.phase ≠ .none) : exec (.lockstepAbort p charged rows) s =
    .next (abortHere s p (if charged = false ∨ g.rank ≠ 0 then .none else if rows = [] then .image else .entries (rows.map (·.val)))) := by
  show execLockstepAbort p charged rows s = _
  unfold execLockstepAbort
  rw [hx]
  dsimp only
  rw [if_neg (by simp [hg, hphase]), groupRank_of_cons hg]
  simp only [Bool.not_eq_true']

end

/-! ## Row maps a member receives -/

/-- The valid rows with their places. -/
def memberRows (rows : List RowEntry) : List (Nat × RowEntry) :=
  (List.range rows.length).filterMap (fun i => (rows[i]?).bind (fun r => if r.valid then some (i, r) else none))

theorem length_memberRows (rows : List RowEntry) : (memberRows rows).length = (rows.filter (·.valid)).length := by
  induction rows using List.reverseRecOn with
  | nil => rfl
  | append_singleton rows r ih =>
    have hinit : (List.range rows.length).filterMap (fun i => ((rows ++ [r])[i]?).bind (fun r => if r.valid then some (i, r) else none)) = memberRows rows :=
      List.filterMap_congr fun i hi => by rw [List.getElem?_append_left (List.mem_range.mp hi)]
    rw [memberRows, List.length_append, List.length_singleton, List.range_succ, List.filterMap_append, hinit, List.length_append, ih, List.filter_append, List.length_append]
    congr 1
    cases hr : r.valid <;> simp [hr]

theorem memberTake_frame (img : Image) (x : Part) (e hi : Nat) : { memberTake img x e hi with memberPages := x.memberPages, pool := x.pool } = x := by
  unfold memberTake
  rfl

theorem foldl_memberTake_frame (img : Image) (x : Part) (l : List (Nat × RowEntry)) :
    { l.foldl (fun x q => memberTake img x q.2.entry.toNat (q.2.position.toNat + 1)) x with memberPages := x.memberPages, pool := x.pool } = x := by
  induction l generalizing x with
  | nil => rfl
  | cons q l ih =>
    rw [List.foldl_cons]
    have htake := memberTake_frame img x q.2.entry.toNat (q.2.position.toNat + 1)
    generalize memberTake img x q.2.entry.toNat (q.2.position.toNat + 1) = y at htake
    exact ((congrArg (fun y : Part => { y with memberPages := x.memberPages, pool := x.pool }) (ih y) :)).trans htake

theorem writeRows_frame (s : State) (st : Steep) (l : List (Nat × RowEntry)) : { writeRows s st l with tiles := s.tiles } = s := by
  unfold writeRows
  induction List.range st.tiles.length generalizing s with
  | nil => rfl
  | cons i is ih => exact (congrArg (fun e : State => { e with tiles := s.tiles }) (ih (modTile s (st.tiles.getD i 0) _)) :)

/-- The member's next steep, of the valid rows. -/
def memberSteep (s : State) (x : Part) (rpt : Nat) (rows : List RowEntry) : Steep :=
  { n := x.steepNo + 1, rpt := rpt, tiles := maskTiles x.tileMask,
    rows := (memberRows rows).map (fun q => { entry := q.2.entry.toNat, first := q.1, count := 1, pos := q.2.position.toNat, head := q.2.head, d := 0, dead := false, filled := true, tokens := [q.2.token.setWidth 32] }),
    frozen := { heads := [], prompts := [], cfg := 0 }, marks := [], undo := [], frozenAt := now s, composed := true, released := 0 }

theorem length_memberSteep_rows (s : State) (x : Part) (rpt : Nat) (rows : List RowEntry) : (memberSteep s x rpt rows).rows.length = (rows.filter (·.valid)).length :=
  (List.length_map ..).trans (length_memberRows rows)

/-- The member's partition with the pages of its valid rows taken. -/
def memberPart (x : Part) (img : Image) (rows : List RowEntry) : Part :=
  (memberRows rows).foldl (fun x q => memberTake img x q.2.entry.toNat (q.2.position.toNat + 1)) { x with pool := sortBy (fun a b => decide (a ≤ b)) (x.pool ++ x.returned), returned := [] }

theorem memberPart_frame (x : Part) (img : Image) (rows : List RowEntry) : { memberPart x img rows with memberPages := x.memberPages, pool := x.pool, returned := x.returned } = x :=
  (congrArg (fun y : Part => { y with pool := x.pool, returned := x.returned }) (foldl_memberTake_frame img { x with pool := sortBy (fun a b => decide (a ≤ b)) (x.pool ++ x.returned), returned := [] } (memberRows rows)) :)

theorem exec_lockstepRowMaps {s : State} {p : Fin 64} {x : Part} {img : Image} {rpt : Nat} {rows : List RowEntry} (hx : getPart? s p = some x) (himg : x.image = some img) (hrank : (groupRank s p).getD 0 ≠ 0)
    (hready : groupsReady s p = true) (hphase : x.phase ≠ .body) (hrpt : rpt ∈ rptChoices 15) (hfit : rows.length ≤ tileCount x * rpt) :
    exec (.lockstepRowMaps p rpt rows) s = .next (emit (writeRows (setPart s p { memberPart x img rows with
      next := some (memberSteep s (memberPart x img rows) rpt rows), freePages := BitVec.ofNat 32 (memberPart x img rows).pool.length }) (memberSteep s (memberPart x img rows) rpt rows) (memberRows rows))
      (.lockstep p 2 ((memberPart x img rows).steepNo + 1))) := by
  show execLockstepRowMaps p rpt rows s = _
  unfold execLockstepRowMaps
  rw [hx]
  dsimp only
  split
  · rename_i hnone
    cases himg.symm.trans hnone
  · rename_i found hsome
    cases himg.symm.trans hsome
    rw [if_neg (by simp [hrank, hready, hphase, hrpt, hfit])]
    rfl

/-- Settles O49: counts, row maps, release and abort each act as R360 says. -/
theorem lockstepMessages : Obligations.LockstepMessages := by
  unfold Obligations.LockstepMessages
  intro s p x n g l hx hg
  refine ⟨fun rank free hlead hrank hmember hawait => exec_lockstepPageCount_kept hx hg hlead hrank hmember hawait,
    fun rank free hlead hrank hmember hawait hall => exec_lockstepPageCount_last hx hg hlead hrank hmember hawait hall, ?_, exec_lockstepRelease_member hg, exec_lockstepRelease_leader hg,
    fun charged rows hphase => exec_lockstepAbort hx hg charged rows hphase⟩
  intro img rpt rows hrank himg hready hphase hrpt hfit
  have hexec := exec_lockstepRowMaps hx himg (by rw [groupRank_of_cons hg]; exact hrank) hready hphase hrpt hfit
  have hpart := memberPart_frame x img rows
  have hno : (memberPart x img rows).steepNo = x.steepNo := (congrArg Part.steepNo hpart :)
  have hkept : (memberPart x img rows).phase = x.phase := (congrArg Part.phase hpart :)
  have hlen := length_memberSteep_rows s (memberPart x img rows) rpt rows
  generalize hst : memberSteep s (memberPart x img rows) rpt rows = st at hexec hlen
  have hmaps := writeRows_frame (setPart s p { memberPart x img rows with next := some st, freePages := BitVec.ofNat 32 (memberPart x img rows).pool.length }) st (memberRows rows)
  rw [hno] at hexec
  refine ⟨_, { memberPart x img rows with next := some st, freePages := BitVec.ofNat 32 (memberPart x img rows).pool.length }, st, hexec, ?_, rfl, ?_, ?_, ?_, hlen, ?_, ?_, hkept⟩
  · exact (congrArg (fun e : State => getPart? e p) hmaps : _).trans ((getPart_setPart ..).trans (if_pos rfl))
  · rw [← hst, ← hno]
    rfl
  · rw [← hst]
    rfl
  · rw [← hst]
    rfl
  · exact congrArg (· ++ [_]) (congrArg State.out hmaps : _)
  · exact (congrArg State.table hmaps : _)

end Sys2Proof.Machine

end


section

/-! SUPPORT. The responses of the power path: the cap loop, DIE_HOT, PWR_BRAKE_N and the current limit (R415-R419, R448). -/

namespace Sys2Proof.Machine

open Sys2Proof

/-! ## One period of the cap loop -/

section
variable {x : Power} {c w : Nat}

theorem capStep_capCmds (x : Power) (c w : Nat) : (capStep x c w).capCmds = x.capCmds := by
  unfold capStep
  dsimp only
  split_ifs <;> rfl

theorem capStep_measured (x : Power) (c w : Nat) : (capStep x c w).measured = x.measured ∧ (capStep x c w).vin10mv = x.vin10mv := by
  unfold capStep
  dsimp only
  split_ifs <;> exact ⟨rfl, rfl⟩

/-- Above the cap θ grows. -/
theorem capStep_above (h : c < w) (hθ : x.theta + max 1 (ceilDiv (64 * (w - c)) w) ≤ 16) :
    (capStep x c w).theta = x.theta + max 1 (ceilDiv (64 * (w - c)) w) ∧ (capStep x c w).step = x.step := by
  unfold capStep
  dsimp only
  rw [if_pos h, if_neg (Nat.not_lt.mpr hθ), if_neg (Nat.not_le.mpr h)]
  exact ⟨rfl, rfl⟩

/-- θ above 16 takes one clock step and leaves θ at 8. -/
theorem capStep_steps (h : c < w) (hθ : 16 < x.theta + max 1 (ceilDiv (64 * (w - c)) w)) (hstep : x.step < 3) : (capStep x c w).theta = 8 ∧ (capStep x c w).step = x.step + 1 := by
  unfold capStep
  dsimp only
  rw [if_pos h, if_pos hθ, if_pos hstep, if_neg (Nat.not_le.mpr h)]
  exact ⟨rfl, rfl⟩

/-- Within 3 % below the cap nothing moves. -/
theorem capStep_holds (h : w ≤ c) (hband : 97 * c ≤ 100 * w) (hθ : x.theta ≤ 16) : (capStep x c w).theta = x.theta ∧ (capStep x c w).step = x.step ∧ (capStep x c w).capUnmet = false := by
  unfold capStep
  dsimp only
  rw [if_neg (Nat.not_lt.mpr h), if_neg (Nat.not_lt.mpr hband), if_neg (Nat.not_lt.mpr hθ), if_pos h]
  exact ⟨rfl, rfl, rfl⟩

/-- Further below θ falls. -/
theorem capStep_below (h : 100 * w < 97 * c) (hpos : 0 < x.theta) (hθ : x.theta ≤ 17) : (capStep x c w).theta = x.theta - 1 ∧ (capStep x c w).step = x.step := by
  have hcap : ¬ c < w := by omega
  have hθ : ¬ 16 < x.theta - 1 := by omega
  unfold capStep
  dsimp only
  rw [if_neg hcap, if_pos h, if_pos hpos, if_neg hθ, if_pos (Nat.not_lt.mp hcap)]
  exact ⟨rfl, rfl⟩

/-- With θ at 0 the clock steps back after ten such periods. -/
theorem capStep_steps_back (h : 100 * w < 97 * c) (hθ : x.theta = 0) (hstep : 0 < x.step) : (capStep x c w).step = if 10 ≤ x.below + 1 then x.step - 1 else x.step := by
  have hcap : ¬ c < w := by omega
  have hzero : ¬ 0 < x.theta := by omega
  have hθ : ¬ 16 < x.theta := by omega
  unfold capStep
  dsimp only
  rw [if_neg hcap, if_pos h, if_neg hzero]
  by_cases hback : 0 < x.step ∧ 10 ≤ x.below + 1
  · rw [if_pos hback, if_neg hθ, if_pos (Nat.not_lt.mp hcap), if_pos hback.2]
  · rw [if_neg hback, if_neg hθ, if_pos (Nat.not_lt.mp hcap), if_neg (fun k => hback ⟨hstep, k⟩)]

end

/-! ## The tick -/

theorem markThrottled_frame (s : State) (old : Nat) : { markThrottled s old with parts := s.parts } = s := by
  unfold markThrottled
  split <;> rfl

/-- The cap in force (R415, R418). -/
def capInForce (s : State) : Nat := if s.pwr.brake = true ∨ s.pwr.limitBrake = true then 800 else s.pwr.capW.toNat

/-- The power record with the period's measurements (R421). -/
def metered (x : Power) (i : InputSample) : Power :=
  { x with measured := BitVec.ofNat 16 i.watts, vin10mv := BitVec.ofNat 16 i.vin, energyMj := x.energyMj + BitVec.ofNat 64 ((x.energyFrac + i.watts) / 10), energyFrac := (x.energyFrac + i.watts) % 10 }

theorem exec_powerCapTick {s : State} {i : InputSample} (hready : s.ready = true) (hdev : s.pwr.dev ≤ 3) (hcmds : s.pwr.capCmds = []) (hhot : s.pwr.hot = false) :
    exec (.powerCapTick i) s = .next (markThrottled { s with mod := { s.mod with iin := BitVec.ofNat 16 i.iin, vinSns := BitVec.ofNat 16 i.vin }, pwr := { capStep (metered s.pwr i) (capInForce s) i.watts with capCmds := [] } } s.pwr.step) := by
  have hnone : (capStep (metered s.pwr i) (capInForce s) i.watts).capCmds = [] := (capStep_capCmds ..).trans hcmds
  show execPowerCapTick i s = _
  unfold execPowerCapTick
  rw [if_neg (by simp [hready]; omega)]
  dsimp only
  rw [if_neg (by rw [hhot]; decide)]
  unfold metered capInForce at hnone
  rw [hnone]
  rfl

/-! ## Slowing down -/

theorem slowDown_fields (s : State) (th : Nat) : (slowDown s th).pwr = { s.pwr with step := 3, theta := max s.pwr.theta th } ∧ { slowDown s th with pwr := s.pwr, parts := s.parts } = s := by
  have hframe := markThrottled_frame { s with pwr := { s.pwr with step := 3, theta := max s.pwr.theta th } } s.pwr.step
  exact ⟨(congrArg State.pwr hframe :), (congrArg (fun e : State => { e with pwr := s.pwr }) hframe :)⟩

theorem tripModule_of_running {s : State} (hlife : s.mod.lifeStarted = true) (hstopped : s.mod.stopped = none) (code : BitVec 8) : tripModule s code = moduleStop s code :=
  if_neg (by simp [hlife, hstopped])

section
variable {s : State}

theorem exec_dieHot (hready : s.ready = true) (hdev : s.pwr.dev < 3) :
    exec .dieHot s = .next (slowDown { s with pwr := { s.pwr with dieHot := true, seen := setBit s.pwr.seen 2 true, hot := true } } 32) := by
  show execDieHot s = _
  rw [execDieHot, hotAssert, if_pos ⟨hdev, hready⟩]

theorem exec_pwrBrakeN (hready : s.ready = true) : exec (.pwrBrakeN true) s = .next (slowDown { s with pwr := { s.pwr with brake := true } } 48) := by
  show execPwrBrakeN true s = _
  rw [execPwrBrakeN, if_pos rfl, if_pos hready]

theorem exec_currentLimit (hready : s.ready = true) :
    exec .currentLimit s = .next (slowDown { s with mod := { s.mod with ilimit := true, ilimitSeen := true }, pwr := { s.pwr with limitBrake := true } } 48) := by
  show execCurrentLimit s = _
  exact congrArg Host.Outcome.next (if_pos hready)

end

/-- Settles O54: the loop's period by its rule, and what each assertion does. -/
theorem powerResponses : Obligations.PowerResponses := by
  unfold Obligations.PowerResponses
  refine ⟨?_, fun s hready hdev => ⟨?_, fun hcool => ?_, fun hhot => ?_, ?_, rfl, ?_, fun hoff => ?_, fun hlimit hlife hstopped => ?_, rfl⟩⟩
  · intro s watts iin vin hready hdev hcmds hhot c
    have hframe := markThrottled_frame { s with mod := { s.mod with iin := BitVec.ofNat 16 iin, vinSns := BitVec.ofNat 16 vin }, pwr := { capStep (metered s.pwr ⟨watts, iin, vin⟩) (capInForce s) watts with capCmds := [] } } s.pwr.step
    have hpwr := (congrArg State.pwr hframe : _)
    have hmod := (congrArg State.mod hframe : _)
    obtain ⟨hmeasured, hvin⟩ := capStep_measured (metered s.pwr ⟨watts, iin, vin⟩) (capInForce s) watts
    refine ⟨_, exec_powerCapTick (i := ⟨watts, iin, vin⟩) hready hdev hcmds hhot, ?_⟩
    have hrest := (congrArg (fun e : State => (e.table, e.tiles, e.out)) hframe : _)
    generalize markThrottled _ _ = s1 at hpwr hmod hrest ⊢
    dsimp only at hpwr hmod
    rw [hpwr, hmod]
    obtain ⟨htable, hrest⟩ := Prod.mk.inj hrest
    obtain ⟨htiles, hout⟩ := Prod.mk.inj hrest
    exact ⟨hmeasured, rfl, rfl, hvin, htable, htiles, hout, fun h hθ => capStep_above (x := metered s.pwr _) h hθ, fun h hθ hstep => capStep_steps (x := metered s.pwr _) h hθ hstep,
      fun h hband hθ => capStep_holds (x := metered s.pwr _) h hband hθ, fun h hpos hθ => capStep_below (x := metered s.pwr _) h hpos hθ,
      fun h hθ hstep => capStep_steps_back (x := metered s.pwr _) h hθ hstep⟩
  · obtain ⟨hpwr, hframe⟩ := slowDown_fields { s with pwr := { s.pwr with dieHot := true, seen := setBit s.pwr.seen 2 true, hot := true } } 32
    refine ⟨_, exec_dieHot hready hdev, ?_⟩
    rw [hpwr]
    exact ⟨rfl, rfl, rfl, rfl, (congrArg State.table hframe :), (congrArg State.tiles hframe :)⟩
  · exact congrArg Host.Outcome.next (if_neg (by rw [hcool]; decide))
  · exact congrArg Host.Outcome.next (if_pos hhot)
  · obtain ⟨hpwr, hframe⟩ := slowDown_fields { s with pwr := { s.pwr with brake := true } } 48
    refine ⟨_, exec_pwrBrakeN hready, ?_⟩
    rw [hpwr]
    exact ⟨rfl, rfl, rfl, (congrArg State.table hframe :), (congrArg State.tiles hframe :)⟩
  · obtain ⟨hpwr, hframe⟩ := slowDown_fields { s with mod := { s.mod with ilimit := true, ilimitSeen := true }, pwr := { s.pwr with limitBrake := true } } 48
    refine ⟨_, exec_currentLimit hready, (congrArg State.mod hframe :), ?_⟩
    rw [hpwr]
    exact ⟨rfl, rfl, rfl⟩
  · exact congrArg Host.Outcome.next (if_neg (by rw [hoff]; decide))
  · exact congrArg Host.Outcome.next ((if_pos hlimit).trans (tripModule_of_running hlife hstopped 0x0C))

end Sys2Proof.Machine

end


section

/-! SUPPORT. Faults of the module: what stops it and what it absorbs (R196, R200, R201, R203, R394, R395, R397, R466). -/

namespace Sys2Proof.Machine

open Sys2Proof

/-! ## Stops -/

theorem moduleStop_fields (s : State) (code : BitVec 8) : (moduleStop s code).ready = false ∧ (moduleStop s code).mod.stopped = some code ∧ (moduleStop s code).pair.aliveOut = .static :=
  ⟨rfl, rfl, rfl⟩

theorem mod_faultLog (s : State) (cls code part action unit : Nat) (phys : BitVec 16) (detail : BitVec 128) : (faultLog s cls code part action unit phys detail).mod = s.mod :=
  (congrArg State.mod (faultLog_frame s cls code part action unit phys detail) :)

theorem iod_faultLog (s : State) (cls code part action unit : Nat) (phys : BitVec 16) (detail : BitVec 128) : (faultLog s cls code part action unit phys detail).iod = s.iod :=
  (congrArg State.iod (faultLog_frame s cls code part action unit phys detail) :)

section
variable {s : State}

theorem exec_moduleFault {code : BitVec 8} (hlife : s.mod.lifeStarted = true) (hstopped : s.mod.stopped = none) (hcode : code ≠ 0x01) : exec (.moduleFault code) s = .next (moduleStop s code) := by
  show execModuleFault code s = _
  rw [execModuleFault, if_neg hcode, tripModule_of_running hlife hstopped]

theorem exec_moduleFault_logged (hlife : s.mod.lifeStarted = true) : exec (.moduleFault 0x01) s = .next (faultLog s 11 1 0xFF 0 0 0xFFFF 0) := by
  show execModuleFault 0x01 s = _
  rw [execModuleFault, if_pos rfl, if_pos hlife]

/-! ## Control cores and packages -/

/-- The state once a control core is lost and logged (R394). -/
def coreLost (s : State) : State := faultLog { s with mod := { s.mod with cores := s.mod.cores - 1 } } 8 0 0xFF 5 (s.mod.cores - 1) 0xFFFF 0

theorem mod_coreLost (s : State) : (coreLost s).mod = { s.mod with cores := s.mod.cores - 1 } := mod_faultLog ..

theorem exec_controlCoreFail (hready : s.ready = true) (hcores : 0 < s.mod.cores) : exec .controlCoreFail s = .next (if s.mod.cores = 1 then tripModule (coreLost s) 0x06 else coreLost s) := by
  have hleft : (coreLost s).mod.cores = 0 ↔ s.mod.cores = 1 := by
    rw [mod_coreLost]
    show s.mod.cores - 1 = 0 ↔ _
    omega
  show execControlCoreFail s = _
  unfold execControlCoreFail
  rw [if_neg (by simp [hready]; omega)]
  exact congrArg Host.Outcome.next (if_congr hleft rfl rfl)

/-- The state once a package is lost and logged (R203). -/
def packageGone (s : State) (k : Fin 32) : State := faultLog { s with iod := { s.iod with lost := setBit s.iod.lost k true } } 4 0 0xFF 5 k 0xFFFF 0

theorem mod_packageGone (s : State) (k : Fin 32) : (packageGone s k).mod = s.mod := mod_faultLog ..

theorem exec_packageLost {k : Fin 32} (hlife : s.mod.lifeStarted = true) (hk : s.iod.lost.getLsbD k = false) :
    exec (.packageLost k) s = .next (if 3 ≤ onesOf (setBit s.iod.lost k true) then tripModule (packageGone s k) 0x02 else packageGone s k) := by
  have hlost : (packageGone s k).iod.lost = setBit s.iod.lost k true := by rw [packageGone, iod_faultLog]
  show execPackageLost k s = _
  unfold execPackageLost losePackage
  rw [if_neg (fun h => h.elim (fun e => Bool.noConfusion (hk.symm.trans e)) (by simp [hlife]))]
  show Host.Outcome.next (if 3 ≤ onesOf (packageGone s k).iod.lost then _ else _) = _
  rw [hlost]
  rfl

/-! ## Caddy ways -/

/-- A line of the way that an uncorrectable error names (R196). -/
def lineBad (way : Fin 16) (errs : List CaddyError) (k : CaddyLine) : Bool := decide (k.way = way.val) && errs.any (fun e => e.uncorrectable && decide (e.part = k.part) && decide (e.line = k.line))

theorem lineBad_eq_false {way : Fin 16} {errs : List CaddyError} {k : CaddyLine} (hway : k.way = way.val) (h : lineBad way errs k = false) :
    ∀ e ∈ errs, e.uncorrectable = true → ¬(e.part = k.part ∧ e.line = k.line) := by
  intro e he hunc hline
  obtain ⟨hpart, hline⟩ := hline
  have hany : errs.any (fun e => e.uncorrectable && decide (e.part = k.part) && decide (e.line = k.line)) = true := List.any_eq_true.mpr ⟨e, he, by simp [hunc, hpart, hline]⟩
  simp [lineBad, hway, hany] at h

theorem lineBad_of_other {way : Fin 16} {errs : List CaddyError} {k : CaddyLine} (hway : k.way ≠ way.val) : lineBad way errs k = false := by
  simp [lineBad, hway]

/-- The errors of a way that count, the new ones behind those of the last 24 hours. -/
def wayCount (s : State) (way : Fin 16) (errs : List CaddyError) : List (Bool × Nat) :=
  (tabGetD s.iod.wayErrs way.val []).filter (fun q => decide (now s < q.2 + 86400000000000)) ++ errs.map (fun e => (e.uncorrectable, now s))

/-- Two uncorrectable errors or 64 corrected ones. -/
def TooMany (l : List (Bool × Nat)) : Prop := 2 ≤ (l.filter (fun q => q.1)).length ∨ 64 ≤ (l.filter (fun q => !q.1)).length

/-- The state with the named lines gone and the errors counted. -/
def waySwept (s : State) (way : Fin 16) (errs : List CaddyError) : State :=
  { s with iod := { s.iod with caddy := s.iod.caddy.filter (fun k => !lineBad way errs k), wayErrs := tabInsert way.val (wayCount s way errs) s.iod.wayErrs } }

/-- The state with the way disabled and logged. -/
def wayDisabled (s : State) (way : Fin 16) : State :=
  faultLog { s with iod := { s.iod with waysOff := setBit s.iod.waysOff way true, caddy := s.iod.caddy.filter (fun k => decide (k.way ≠ way.val)) } } 10 0 0xFF 5 way 0xFFFF 0

theorem exec_caddyWayDisable_many {way : Fin 16} {errs : List CaddyError} (hready : s.ready = true) (hon : s.iod.waysOff.getLsbD way = false) (hmany : TooMany (wayCount s way errs)) :
    exec (.caddyWayDisable ⟨way, errs⟩) s = .next (wayDisabled (waySwept s way errs) way) := by
  show execCaddyWayDisable ⟨way, errs⟩ s = _
  unfold execCaddyWayDisable
  rw [if_neg (by rw [hready, hon]; decide)]
  exact if_pos hmany

theorem exec_caddyWayDisable_few {way : Fin 16} {errs : List CaddyError} (hready : s.ready = true) (hon : s.iod.waysOff.getLsbD way = false) (hfew : ¬TooMany (wayCount s way errs)) :
    exec (.caddyWayDisable ⟨way, errs⟩) s = .next (waySwept s way errs) := by
  show execCaddyWayDisable ⟨way, errs⟩ s = _
  unfold execCaddyWayDisable
  rw [if_neg (by rw [hready, hon]; decide)]
  exact if_neg hfew

/-! ## The patrol scrub -/

/-- The state with the pass counted where the stripe was its last (R200). -/
def patrolled (s : State) (stripe : Nat) : State := if stripe + 1 = stripes then { s with iod := { s.iod with scrubPass := s.iod.scrubPass + 1 } } else s

theorem patrolled_fields (s : State) (stripe : Nat) : (patrolled s stripe).iod.lost = s.iod.lost ∧ (patrolled s stripe).mod = s.mod := by
  unfold patrolled
  split <;> exact ⟨rfl, rfl⟩

theorem erasures_singleton (s : State) (k : Fin 32) : erasures s [k.val] = onesOf s.iod.lost + if s.iod.lost.getLsbD k = true then 0 else 1 := by
  have hbit : s.iod.lost.toNat.testBit k.val = s.iod.lost.getLsbD k := rfl
  rw [erasures, List.Nodup.dedup (List.nodup_singleton _), List.filter_singleton, hbit]
  cases s.iod.lost.getLsbD k <;> rfl

theorem exec_patrolScrubTick_none {stripe : Nat} (hready : s.ready = true) (hstripe : stripe < stripes) : exec (.patrolScrubTick stripe none) s = .next (patrolled s stripe) := by
  show execPatrolScrubTick stripe none s = _
  unfold execPatrolScrubTick
  rw [if_neg (fun h => h.elim (by simp [hready]) (Nat.not_le.mpr hstripe))]
  rfl

theorem exec_patrolScrubTick_some {stripe : Nat} {k : Fin 32} (hready : s.ready = true) (hstripe : stripe < stripes) :
    exec (.patrolScrubTick stripe (some k)) s = if 2 < erasures s [k.val] then .next (tripModule (patrolled s stripe) 0x02) else .next (patrolled s stripe) := by
  have hsame : erasures (patrolled s stripe) [k.val] = erasures s [k.val] := by rw [erasures_singleton, erasures_singleton, (patrolled_fields s stripe).1]
  rw [← hsame]
  show execPatrolScrubTick stripe (some k) s = _
  unfold execPatrolScrubTick
  rw [if_neg (fun h => h.elim (by simp [hready]) (Nat.not_le.mpr hstripe))]
  rfl

end

/-- Settles O53: the faults that stop a running module, and those that it absorbs. -/
theorem moduleFaults : Obligations.ModuleFaults := by
  unfold Obligations.ModuleFaults
  refine ⟨fun s code hlife hstopped => ⟨fun hcode => ⟨exec_moduleFault hlife hstopped hcode, moduleStop_fields s code⟩, exec_moduleFault_logged hlife⟩, fun s hready => ⟨?_, ?_, ?_, ?_, ?_, ?_⟩, ?_⟩
  · intro hcores
    rw [exec_controlCoreFail hready (by omega), if_neg (by omega)]
    rfl
  · intro hcores hlife hstopped
    have htrip := tripModule_of_running (s := coreLost s) (by rw [mod_coreLost]; exact hlife) (by rw [mod_coreLost]; exact hstopped) 0x06
    refine ⟨_, exec_controlCoreFail hready (by omega), ?_⟩
    rw [if_pos hcores, htrip]
    exact ⟨rfl, rfl⟩
  · intro way errs hon l tooMany
    by_cases hmany : TooMany (wayCount s way errs)
    · have hlog := faultLog_frame { waySwept s way errs with iod := { (waySwept s way errs).iod with waysOff := setBit s.iod.waysOff way true, caddy := (waySwept s way errs).iod.caddy.filter (fun k => decide (k.way ≠ way.val)) } } 10 0 0xFF 5 way 0xFFFF 0
      have hiod : (wayDisabled (waySwept s way errs) way).iod = _ := (congrArg State.iod hlog : _)
      refine ⟨_, exec_caddyWayDisable_many hready hon hmany, ?_⟩
      rw [hiod]
      refine ⟨rfl, (congrArg (fun e : State => { e with iod := s.iod }) hlog : _), fun c hc hway => ?_, fun c hc => ?_, fun c hc hway => ?_, fun _ => rfl, fun hfew => absurd hmany hfew⟩
      · exact List.mem_filter.mpr ⟨List.mem_filter.mpr ⟨hc, by rw [lineBad_of_other hway]; rfl⟩, decide_eq_true hway⟩
      · exact List.mem_of_mem_filter (List.mem_of_mem_filter hc)
      · exact absurd hway (of_decide_eq_true (List.mem_filter.mp hc).2)
    · refine ⟨_, exec_caddyWayDisable_few hready hon hmany, rfl, rfl, fun c hc hway => ?_, fun c hc => List.mem_of_mem_filter hc, fun c hc hway => ⟨hmany, ?_⟩, fun h => absurd h hmany, fun _ => ⟨rfl, rfl⟩⟩
      · exact List.mem_filter.mpr ⟨hc, by rw [lineBad_of_other hway]; rfl⟩
      · exact lineBad_eq_false hway (by simpa using (List.mem_filter.mp hc).2)
  · exact fun stripe hstripe => exec_patrolScrubTick_none hready hstripe
  · intro stripe k hstripe hlost
    have hfew : ¬ 2 < erasures s [k.val] := by
      rw [erasures_singleton]
      split <;> omega
    rw [exec_patrolScrubTick_some hready hstripe, if_neg hfew]
    rfl
  · intro stripe k hstripe hlost hk hlife hstopped
    have hmany : 2 < erasures s [k.val] := by
      rw [erasures_singleton, hlost, hk]
      decide
    obtain ⟨-, hmod⟩ := patrolled_fields s stripe
    have htrip := tripModule_of_running (s := patrolled s stripe) (by rw [hmod]; exact hlife) (by rw [hmod]; exact hstopped) 0x02
    refine ⟨_, (exec_patrolScrubTick_some hready hstripe).trans (if_pos hmany), ?_⟩
    rw [htrip]
    exact ⟨rfl, rfl⟩
  · intro s k hlife hk l
    refine ⟨fun hfew => ?_, fun hmany hstopped => ⟨_, exec_packageLost hlife hk, ?_⟩⟩
    · rw [exec_packageLost hlife hk, if_neg (Nat.not_le.mpr hfew)]
      rfl
    · have htrip := tripModule_of_running (s := packageGone s k) (by rw [mod_packageGone]; exact hlife) (by rw [mod_packageGone]; exact hstopped) 0x02
      rw [if_pos hmany, htrip]
      exact ⟨rfl, rfl⟩

end Sys2Proof.Machine

end


section

/-! SUPPORT. Temperatures, VIN, rails and leaks (R419, R445-R453). -/

namespace Sys2Proof.Machine

open Sys2Proof

/-! ## Temperatures -/

theorem setAlert_alert (s : State) (on : Bool) : (setAlert s on).mod.alert = (on || s.mod.leakShutdown) := by
  unfold setAlert
  dsimp only
  split
  · next h => exact h.symm
  · rfl

theorem setAlert_frame (s : State) (on : Bool) : { setAlert s on with out := s.out, mod := s.mod } = s := by
  unfold setAlert
  dsimp only
  split <;> rfl

theorem setAlert_mod (s : State) (on : Bool) : { (setAlert s on).mod with alert := s.mod.alert, alertSeen := s.mod.alertSeen } = s.mod := by
  unfold setAlert
  dsimp only
  split <;> rfl

/-- The sample as it stands in the registers (R450). -/
def sampled (s : State) (x : Temps) : State :=
  { s with mod := { s.mod with tjMax := BitVec.ofNat 8 (x.dies.foldl max 0), hotDie := BitVec.ofNat 3 (x.dies.findIdx (fun d => d = x.dies.foldl max 0)), inlet := BitVec.ofNat 8 x.inlet, outlet := BitVec.ofNat 8 x.outlet, psi := if s.pwr.measured.toNat < 500 then s.mod.psi else BitVec.ofNat 16 ((x.dies.foldl max 0 - x.inlet) * 10000 / s.pwr.measured.toNat) } }

/-- The thermal alert after a sample (R451). -/
def alerted (s : State) (tj outlet : Nat) : State := if 100 ≤ tj ∨ 70 ≤ outlet then setAlert s true else if tj < 97 ∧ outlet < 67 then setAlert s false else s

/-- The comparator of DIE_HOT after a sample (R419). -/
def compared (s : State) (tj : Nat) : State := if 104 ≤ tj then (if s.pwr.dieHot then s else hotAssert s) else if tj < 100 then { s with pwr := { s.pwr with dieHot := false } } else s

theorem alerted_frame (s : State) (tj outlet : Nat) : { alerted s tj outlet with out := s.out, mod := s.mod } = s := by
  unfold alerted
  split
  · exact setAlert_frame ..
  · split
    · exact setAlert_frame ..
    · rfl

theorem alerted_mod (s : State) (tj outlet : Nat) : { (alerted s tj outlet).mod with alert := s.mod.alert, alertSeen := s.mod.alertSeen } = s.mod := by
  unfold alerted
  split
  · exact setAlert_mod ..
  · split
    · exact setAlert_mod ..
    · rfl

theorem alerted_alert_of_hot {s : State} {tj outlet : Nat} (h : 100 ≤ tj ∨ 70 ≤ outlet) : (alerted s tj outlet).mod.alert = true := by
  rw [alerted, if_pos h, setAlert_alert]
  rfl

theorem alerted_alert_of_cool {s : State} {tj outlet : Nat} (htj : tj < 97) (hout : outlet < 67) (hleak : s.mod.leakShutdown = false) : (alerted s tj outlet).mod.alert = false := by
  rw [alerted, if_neg (by omega), if_pos ⟨htj, hout⟩, setAlert_alert, hleak]
  rfl

theorem hotAssert_frame (s : State) : { hotAssert s with pwr := s.pwr, parts := s.parts } = s := by
  unfold hotAssert
  dsimp only
  split
  · exact (congrArg (fun e : State => { e with pwr := s.pwr }) (slowDown_fields _ _).2 :)
  · rfl

theorem hotAssert_dieHot (s : State) : (hotAssert s).pwr.dieHot = true := by
  unfold hotAssert
  dsimp only
  split
  · rw [(slowDown_fields _ _).1]
  · rfl

theorem compared_frame (s : State) (tj : Nat) : { compared s tj with pwr := s.pwr, parts := s.parts } = s := by
  unfold compared
  split
  · split
    · rfl
    · exact hotAssert_frame s
  · split <;> rfl

theorem compared_of_hot {s : State} {tj : Nat} (h : 104 ≤ tj) : (compared s tj).pwr.dieHot = true := by
  unfold compared
  rw [if_pos h]
  split
  · next hot => exact hot
  · exact hotAssert_dieHot s

theorem compared_of_cool {s : State} {tj : Nat} (h : tj < 100) : (compared s tj).pwr.dieHot = false := by
  rw [compared, if_neg (by omega), if_pos h]

/-- The state after a sample that trips nothing. -/
def thermalState (s : State) (x : Temps) : State := compared (alerted (sampled s x) (x.dies.foldl max 0) x.outlet) (x.dies.foldl max 0)

theorem thermalState_frame (s : State) (x : Temps) : { thermalState s x with pwr := s.pwr, parts := s.parts, out := s.out, mod := s.mod } = s := by
  have hcompared := compared_frame (alerted (sampled s x) (x.dies.foldl max 0) x.outlet) (x.dies.foldl max 0)
  have halerted := alerted_frame (sampled s x) (x.dies.foldl max 0) x.outlet
  unfold thermalState
  generalize compared (alerted (sampled s x) (x.dies.foldl max 0) x.outlet) (x.dies.foldl max 0) = s2 at *
  generalize alerted (sampled s x) (x.dies.foldl max 0) x.outlet = s1 at *
  exact ((congrArg (fun e : State => { e with pwr := s.pwr, parts := s.parts, out := s.out, mod := s.mod }) hcompared :)).trans
    (congrArg (fun e : State => { e with pwr := s.pwr, parts := s.parts, mod := s.mod }) halerted :)

theorem thermalState_mod (s : State) (x : Temps) : (thermalState s x).mod = (alerted (sampled s x) (x.dies.foldl max 0) x.outlet).mod :=
  (congrArg State.mod (compared_frame (alerted (sampled s x) (x.dies.foldl max 0) x.outlet) (x.dies.foldl max 0)) :)

theorem exec_thermalSample {s : State} {x : Temps} (hdie : x.dieTrip = false) (houtlet : x.outletTrip = false) (hstopped : s.mod.stopped = none) :
    exec (.thermalSample x) s = .next (thermalState s x) := by
  have hkept : (thermalState s x).mod.stopped = none := by
    rw [thermalState_mod]
    exact ((congrArg (fun e => e.stopped) (alerted_mod (sampled s x) (x.dies.foldl max 0) x.outlet) :)).trans hstopped
  have hno : ¬((thermalState s x).mod.stopped = some 0x08 ∧ x.dies.foldl max 0 < 80 ∧ x.outlet < 60) := fun h => by simp [hkept] at h
  show execThermalSample x s = _
  unfold execThermalSample
  dsimp only
  rw [if_neg (c := _ ∨ _) (by rw [hdie, houtlet]; decide)]
  exact congrArg Host.Outcome.next (if_neg hno)

/-! ## VIN, rails and leaks -/

theorem beyondRatings_iff (mv : Int) : beyondRatings mv = true ↔ mv < -60000 ∨ 80000 < mv := by simp [beyondRatings]

section
variable {s : State} {mv : Int}

theorem exec_vinOutOfWindow_beyond (h : mv < -60000 ∨ 80000 < mv) : exec (.vinOutOfWindow mv) s = .fault .beyondRatings := if_pos ((beyondRatings_iff mv).mpr h)

theorem exec_vinBackInside_beyond (h : mv < -60000 ∨ 80000 < mv) : exec (.vinBackInside mv) s = .fault .beyondRatings := if_pos ((beyondRatings_iff mv).mpr h)

theorem exec_vinOutOfWindow_inside (hlow : 38000 ≤ mv) (hhigh : mv ≤ 62000) : exec (.vinOutOfWindow mv) s = .next s := by
  show execVinOutOfWindow mv s = _
  rw [execVinOutOfWindow, if_neg (by rw [beyondRatings_iff]; omega), if_pos ⟨hlow, hhigh⟩]

theorem exec_vinOutOfWindow_lost (hlow : -60000 ≤ mv) (hhigh : mv < 30000) : exec (.vinOutOfWindow mv) s = .next (supplyLost s) := by
  show execVinOutOfWindow mv s = _
  rw [execVinOutOfWindow, if_neg (by rw [beyondRatings_iff]; omega), if_neg (by omega), if_pos hhigh]

/-- VIN outside its window, as the registers show it (R447). -/
def vinOutside (s : State) (mv : Int) : State := { s with pwr := { s.pwr with vinOut := true, seen := setBit s.pwr.seen 3 true, vin10mv := BitVec.ofInt 16 (mv / 10) } }

theorem exec_vinOutOfWindow_trip (hlow : 30000 ≤ mv) (hout : mv < 38000 ∨ 62000 < mv) (hhigh : mv ≤ 80000) (hdev : s.pwr.dev < 4) (hlife : s.mod.lifeStarted = true) (hstopped : s.mod.stopped = none) :
    exec (.vinOutOfWindow mv) s = .next (moduleStop (vinOutside s mv) 0x09) := by
  show execVinOutOfWindow mv s = _
  rw [execVinOutOfWindow, if_neg (by rw [beyondRatings_iff]; omega), if_neg (by omega), if_neg (by omega)]
  dsimp only
  rw [if_neg (Nat.not_le.mpr hdev)]
  exact congrArg Host.Outcome.next (tripModule_of_running (s := vinOutside s mv) hlife hstopped 0x09)

/-- VIN back inside its window, as the registers show it (R447). -/
def vinInside (s : State) (mv : Int) : State := { s with pwr := { s.pwr with vinOut := false, vin10mv := BitVec.ofInt 16 (mv / 10), wakeSuppressed := s.mod.leakShutdown } }

theorem exec_vinBackInside (hlow : 38000 ≤ mv) (hhigh : mv ≤ 62000) : exec (.vinBackInside mv) s =
    .next (if s.mod.stopped = some 0x09 ∧ 42000 ≤ mv ∧ mv ≤ 60000 then { vinInside s mv with mod := { s.mod with restartOk := true } } else vinInside s mv) := by
  show execVinBackInside mv s = _
  rw [execVinBackInside, if_neg (by rw [beyondRatings_iff]; omega), if_neg (by omega)]
  rfl

theorem toNat_vin10mv (hlow : 38000 ≤ mv) (hhigh : mv ≤ 62000) : (BitVec.ofInt 16 (mv / 10)).toNat = (mv / 10).toNat := by
  rw [BitVec.toNat_ofInt]
  omega

end

theorem pwr_moduleStop (s : State) (code : BitVec 8) : (moduleStop s code).pwr = s.pwr :=
  (congrArg State.pwr (faultLog_frame s 11 code.toNat 0xFF 7 0 0xFFFF 0) :)

theorem exec_railFault {s : State} (hlife : s.mod.lifeStarted = true) (hstopped : s.mod.stopped = none) :
    exec .railFault s = .next (moduleStop (emit { s with mod := { s.mod with pwrGood := false } } (.pin 11 false)) 0x0A) := by
  show execRailFault s = _
  rw [execRailFault, if_neg (by simp [hlife, hstopped])]
  exact congrArg Host.Outcome.next (tripModule_of_running (s := emit { s with mod := { s.mod with pwrGood := false } } (.pin 11 false)) hlife hstopped 0x0A)

/-- A leak as the registers show it (R453). -/
def leakSeen (s : State) : State := { s with pwr := { s.pwr with leakNow := true, seen := setBit s.pwr.seen 1 true } }

/-- The state in which a leak leaves a running module (R453), its alert still to be shown. -/
def leaked (s : State) : State :=
  let k := moduleStop (leakSeen s) 0x0B
  { k with pwr := { capture k.pwr with domains := 0, switches := [] }, mod := { k.mod with leakShutdown := true } }

theorem exec_leak {s : State} (hlife : s.mod.lifeStarted = true) (hstopped : s.mod.stopped = none) (hdev : s.pwr.dev < 4) : exec .leak s = .next (setAlert (leaked s) true) := by
  show execLeak s = _
  have htrip := tripModule_of_running (s := leakSeen s) hlife hstopped 0x0B
  unfold execLeak
  dsimp only
  rw [if_neg (Nat.not_le.mpr hdev)]
  unfold leakSeen at htrip
  rw [htrip]
  rfl

theorem leakNow_capture (w : Power) : (capture w).leakNow = w.leakNow := by
  unfold capture
  split <;> rfl

theorem exec_leakNHigh (s : State) : exec .leakNHigh s =
    .next (if s.mod.leakShutdown = true then { s with pwr := { s.pwr with leakNow := false }, mod := { s.mod with restartOk := true } } else { s with pwr := { s.pwr with leakNow := false } }) := rfl

/-- Settles O55: what a sample, VIN, a rail and a leak do. -/
theorem sensorsAndSupplies : Obligations.SensorsAndSupplies := by
  unfold Obligations.SensorsAndSupplies
  refine ⟨?_, fun s mv => ⟨fun h => ⟨exec_vinOutOfWindow_beyond h, exec_vinBackInside_beyond h⟩, exec_vinOutOfWindow_inside, exec_vinOutOfWindow_lost, ?_, ?_⟩, fun s hlife hstopped => ⟨?_, ?_⟩, fun s => ?_⟩
  · intro s x hdie houtlet hstopped hleak tj
    have hframe := thermalState_frame s x
    have hmod := alerted_mod (sampled s x) tj x.outlet
    refine ⟨_, exec_thermalSample hdie houtlet hstopped, (congrArg State.table hframe :), (congrArg State.tiles hframe :), ?_⟩
    rw [thermalState_mod]
    refine ⟨?_, ?_, ?_, fun h => alerted_alert_of_hot h, fun htj hout => alerted_alert_of_cool htj hout hleak, compared_of_hot, compared_of_cool⟩
    · exact ((congrArg (fun e => e.tjMax.toNat) hmod :)).trans (BitVec.toNat_ofNat ..)
    · exact ((congrArg (fun e => e.inlet.toNat) hmod :)).trans (BitVec.toNat_ofNat ..)
    · exact ((congrArg (fun e => e.outlet.toNat) hmod :)).trans (BitVec.toNat_ofNat ..)
  · intro hlow hout hhigh hdev hlife hstopped
    exact ⟨_, exec_vinOutOfWindow_trip hlow hout hhigh hdev hlife hstopped, rfl, rfl, by rw [pwr_moduleStop, vinOutside]⟩
  · intro hlow hhigh
    refine ⟨_, exec_vinBackInside hlow hhigh, ?_⟩
    split
    · exact ⟨rfl, toNat_vin10mv hlow hhigh, fun _ _ _ => rfl, rfl⟩
    · next hno => exact ⟨rfl, toNat_vin10mv hlow hhigh, fun h h1 h2 => absurd ⟨h, h1, h2⟩ hno, rfl⟩
  · refine ⟨_, exec_railFault hlife hstopped, ?_, rfl, rfl⟩
    have hmod := mod_faultLog (emit { s with mod := { s.mod with pwrGood := false } } (.pin 11 false)) 11 0x0A 0xFF 7 0 0xFFFF 0
    exact (congrArg (fun e => e.pwrGood) hmod :)
  · intro hdev
    have hframe := setAlert_frame (leaked s) true
    have hmod := setAlert_mod (leaked s) true
    refine ⟨_, exec_leak hlife hstopped hdev, (congrArg State.ready hframe :), (congrArg (fun e => e.stopped) hmod :), (congrArg (fun e => e.leakShutdown) hmod :), setAlert_alert _ _, ?_, ?_⟩
    · exact (congrArg (fun e : State => e.pwr.domains) hframe :)
    · refine ((congrArg (fun e : State => e.pwr.leakNow) hframe :)).trans ((leakNow_capture _).trans ?_)
      rw [pwr_moduleStop, leakSeen]
  · refine ⟨_, exec_leakNHigh s, ?_⟩
    split
    · next hleak => exact ⟨rfl, fun _ => rfl, fun h => Bool.noConfusion (h.symm.trans hleak)⟩
    · next hno => exact ⟨rfl, fun h => absurd h hno, fun _ => rfl⟩

end Sys2Proof.Machine

end


section

/-! SUPPORT. Power states, wakes, domains, alarms and the clocks (R405-R414, R418, R420). -/

namespace Sys2Proof.Machine

open Sys2Proof

/-! ## Partitions -/

section
variable {s : State} {p : Fin 64} {x : Part} (hx : getPart? s p = some x)
include hx

theorem exec_stateDwellExpiry_part (h : ¬((!partIdle s p x) = true ∨ x.waking.isSome = true ∨ (!deviceUp s) = true)) : exec (.stateDwellExpiry (.part p)) s =
    .next (if x.pstate = 0 then (if 2 ≤ tolPart s x then settleDomains (setPart s p { x with pstate := 1 }) else s)
      else if x.pstate = 1 then
        (if 8 * offIf s p + 4 ≤ tolPart s x ∧ s.parts.all (fun q => q.2.pstate ≠ 2 || decide (8 * offIf s p + 4 ≤ tolPart s q.2)) then settleDomains (modTiles (setPart s p { x with pstate := 2 }) (maskTiles x.tileMask) tileOff) else s)
      else s) := by
  show execStateDwellExpiry (.part p) s = _
  unfold execStateDwellExpiry
  dsimp only
  unfold dwellPart
  rw [hx]
  dsimp only
  rw [if_neg h]

theorem exec_stateDwellExpiry_busy (hbusy : partIdle s p x = false) : exec (.stateDwellExpiry (.part p)) s = .next s := by
  show execStateDwellExpiry (.part p) s = _
  unfold execStateDwellExpiry
  dsimp only
  unfold dwellPart
  rw [hx]
  dsimp only
  rw [if_pos (Or.inl (by rw [hbusy]; rfl))]

theorem exec_wakeEvent_part (source : BitVec 8) : exec (.wakeEvent (.part p) source) s = .next (if deviceUp s ∧ !partIdle s p x then wakePart s p 0 else s) := by
  show execWakeEvent (.part p) source s = _
  unfold execWakeEvent
  dsimp only
  rw [hx]

end

theorem settleTol_of_nil {s : State} (h : s.pwr.tolCmds = []) : settleTol s = s := by
  unfold settleTol
  rw [h]
  show { s with pwr := { s.pwr with tolCmds := [] } } = s
  rw [← h]

theorem tolCmds_settleDomains (s : State) : (settleDomains s).pwr.tolCmds = s.pwr.tolCmds := by
  have hup (l : List Nat) : (domainsUp s l).pwr = s.pwr := by
    unfold domainsUp
    split
    · rfl
    · exact (congrArg State.pwr (modTiles_frame _ _ s) :)
  show (domainsUp s _).pwr.tolCmds = _
  rw [hup]

/-- A partition in A1 wakes at once (R411). -/
theorem wakePart_of_A1 {s : State} {p : Nat} {x : Part} (hx : getPart? s p = some x) (hstate : x.pstate = 1) (hcmds : s.pwr.tolCmds = []) :
    wakePart s p 0 = settleDomains (setPart s p { x with pstate := 0 }) := by
  unfold wakePart
  rw [hx]
  dsimp only
  rw [if_neg (by omega), if_pos hstate]
  exact settleTol_of_nil ((tolCmds_settleDomains _).trans hcmds)

/-- A partition that enters A2 keeps its tiles' counters and nothing of their scratchpads (R408). -/
theorem tileOff_fields (x : Tile) : (tileOff x).acc = [] ∧ (tileOff x).spad = [] ∧ (tileOff x).ctrs = x.ctrs := ⟨rfl, rfl, rfl⟩

theorem getTile_partOff {s : State} {p t : Nat} {x : Part} (ht : t < 64) (hmask : x.tileMask.getLsbD t = true) :
    let s' := settleDomains (modTiles (setPart s p { x with pstate := 2 }) (maskTiles x.tileMask) tileOff)
    (getTile s' t).acc = [] ∧ (getTile s' t).spad = [] ∧ (getTile s' t).ctrs = (getTile s t).ctrs := by
  intro s'
  have hoff : getTile (modTiles (setPart s p { x with pstate := 2 }) (maskTiles x.tileMask) tileOff) t = tileOff (getTile s t) :=
    (getTile_modTiles (nodup_maskTiles _) tileOff (setPart s p { x with pstate := 2 }) t).trans (if_pos (mem_maskTiles.2 ⟨ht, hmask⟩))
  have hsettle := getTile_settleDomains (modTiles (setPart s p { x with pstate := 2 }) (maskTiles x.tileMask) tileOff) t
  rw [hoff] at hsettle
  obtain ⟨hacc, hspad, hctrs⟩ := tileOff_fields (getTile s t)
  exact ⟨((congrArg Tile.acc hsettle :)).trans hacc, ((congrArg Tile.spad hsettle :)).trans hspad, ((congrArg Tile.ctrs hsettle :)).trans hctrs⟩

/-! ## The device -/

section
variable {s : State}

theorem exec_stateDwellExpiry_device : exec (.stateDwellExpiry .device) s = .next (dwellDevice s) := rfl

theorem dwellDevice_sleeps (hdev : s.pwr.dev = 0) (hready : a3Ready s = true) (htol : 3000 ≤ tolDevice s) :
    dwellDevice s = if sleepDone s = true then { s with pwr := { s.pwr with dev := 3 }, iod := { s.iod with combining := [], caddy := [] } } else emit s (.sleepMsg s.pwr.tick) := by
  rw [dwellDevice, if_pos hdev, if_neg (by simp [hready, htol])]

theorem dwellDevice_stays (hdev : s.pwr.dev = 0) (h : a3Ready s = false ∨ tolDevice s < 3000) : dwellDevice s = s := by
  rw [dwellDevice, if_pos hdev, if_pos (h.imp_left (fun e => by rw [e]; rfl))]

theorem dwellDevice_off (hdev : s.pwr.dev = 3) (hready : a4Ready s = true) (htol : 40000 ≤ tolDevice s) : dwellDevice s = enterA4 s := by
  rw [dwellDevice, if_neg (by omega), if_pos hdev, if_pos ⟨hready, htol⟩]

theorem openWindow_frame (s : State) : { openWindow s with pair := s.pair } = s := by
  unfold openWindow
  split <;> rfl

/-- A wake from A3 is at once (R411). -/
theorem wakeDevice_from_A3 {source : Nat} (hdev : s.pwr.dev = 3) (hmask : wakeMasked s source = false) :
    { wakeDevice s source with pair := s.pair } = { s with pwr := { s.pwr with wakeCause := BitVec.ofNat 8 source, dev := 0 } } := by
  unfold wakeDevice
  rw [if_neg (by rw [hmask, hdev]; decide)]
  dsimp only
  rw [if_pos hdev]
  exact (congrArg (fun e : State => { e with pair := s.pair }) (openWindow_frame _) :)

theorem wakeDevice_awake {source : Nat} (hdev : s.pwr.dev < 3) : wakeDevice s source = s := if_pos (Or.inl hdev)

theorem exec_wakeEvent_device {source : BitVec 8} (hlow : 1 ≤ source.toNat) (hhigh : source.toNat ≤ 7) : exec (.wakeEvent .device source) s = .next (wakeDevice s source.toNat) :=
  congrArg Host.Outcome.next (if_pos ⟨hlow, hhigh⟩)

end

/-! ## Domains and alarms -/

theorem domainsUp_frame (s : State) (l : List Nat) : { domainsUp s l with tiles := s.tiles } = s := by
  unfold domainsUp
  split
  · rfl
  · exact modTiles_frame _ _ s

theorem getTile_domainsUp (s : State) (d t : Nat) :
    getTile (domainsUp s [d]) t = if t < 64 ∧ domainOf s t = d then { getTile s t with spadStatus := setBits (getTile s t).spadStatus 55 32 0 } else getTile s t := by
  unfold domainsUp
  rw [if_neg (List.cons_ne_nil d []), getTile_modTiles (List.nodup_range.filter _)]
  simp only [List.mem_filter, List.mem_range, List.contains_iff_mem, List.mem_singleton]

/-- The state with the front domain on (R412). -/
def domainClosed (s : State) (d : Nat) (r : List Nat) : State :=
  { domainsUp s [d] with pwr := { s.pwr with switches := r, domains := setBit s.pwr.domains d true } }

theorem exec_domainSwitchClose {s : State} {d : Nat} {r : List Nat} (hswitches : s.pwr.switches = d :: r) (hawake : ∀ q ∈ s.parts, q.2.waking = none) : exec .domainSwitchClose s = .next (domainClosed s d r) := by
  have hframe := domainsUp_frame s [d]
  have hpwr : (domainsUp s [d]).pwr = s.pwr := (congrArg State.pwr hframe :)
  have hparts : (domainsUp s [d]).parts = s.parts := (congrArg State.parts hframe :)
  show execDomainSwitchClose s = _
  unfold execDomainSwitchClose
  rw [hswitches]
  dsimp only
  rw [hpwr]
  refine congrArg Host.Outcome.next (foldl_of_fixed fun q _ => ?_)
  dsimp only
  cases hx : getPart? _ q.1 with
  | none => rfl
  | some x =>
    have hmem : (q.1, x) ∈ s.parts := hparts ▸ mem_of_tabGet hx
    dsimp only
    rw [hawake _ hmem]

theorem domainClosed_frame (s : State) (d : Nat) (r : List Nat) : { domainClosed s d r with pwr := s.pwr, tiles := s.tiles } = s :=
  (congrArg (fun e : State => { e with pwr := s.pwr }) (domainsUp_frame s [d]) :)

theorem getTile_domainClosed (s : State) (d t : Nat) (r : List Nat) :
    getTile (domainClosed s d r) t = if t < 64 ∧ domainOf s t = d then { getTile s t with spadStatus := setBits (getTile s t).spadStatus 55 32 0 } else getTile s t := getTile_domainsUp s d t

section
variable {s : State} {i : Fin 4}

theorem exec_alarmFire_due (harmed : bit (tabGetD s.pwr.alarms i 0) 63 = true) (hdue : bits (tabGetD s.pwr.alarms i 0) 47 0 ≤ s.pwr.tick.toNat % 2 ^ 48) (hwake : bit (tabGetD s.pwr.alarms i 0) 62 = false) :
    exec (.alarmFire i) s = .next { s with pwr := { s.pwr with alarms := tabInsert i.val (setBit (setBit (tabGetD s.pwr.alarms i 0) 63 false) 61 true) s.pwr.alarms } } := by
  show execAlarmFire i s = _
  unfold execAlarmFire
  dsimp only
  rw [if_neg (fun h => h.elim (by rw [harmed]; decide) (Nat.not_lt.mpr hdue)), if_neg (by rw [hwake]; decide)]

theorem exec_alarmFire_early (hearly : s.pwr.tick.toNat % 2 ^ 48 < bits (tabGetD s.pwr.alarms i 0) 47 0) : exec (.alarmFire i) s = .next s := if_pos (Or.inr hearly)

end

/-! ## Findings at pins -/

/-- The finding is not logged again: its pin stays faulted, or cleared less than a second ago (R456). -/
def pinQuiet (s : State) (pin : Nat) : Bool := s.mod.pinFaults.getLsbD pin || (match tabGet? pin s.mod.pinClear with | some t => decide (now s < t + 1000000000) | none => false)

/-- The finding as SB_PIN_STATUS shows it. -/
def pinShown (s : State) (pin kind : Nat) : State :=
  { s with mod := { s.mod with pinFaults := setBit s.mod.pinFaults pin true, pinSeen := setBit s.mod.pinSeen pin true, lastPin := BitVec.ofNat 5 pin, lastKind := BitVec.ofNat 3 kind } }

theorem pinFinding_of_quiet {s : State} {pin : Nat} (kind : Nat) (h : pinQuiet s pin = true) : pinFinding s pin kind = pinShown s pin kind := if_pos h

theorem pinFinding_of_new {s : State} {pin : Nat} (kind : Nat) (h : pinQuiet s pin = false) :
    pinFinding s pin kind = faultLog (pinShown s pin kind) 19 kind 0xFF 0 pin 0xFFFF ((sbPinStatus (pinShown s pin kind).mod).setWidth 128) := if_neg (fun e => Bool.noConfusion (h.symm.trans e))

theorem pinFinding_frame (s : State) (pin kind : Nat) : { pinFinding s pin kind with mod := s.mod, log := s.log, logNext := s.logNext, logLost := s.logLost } = s := by
  cases h : pinQuiet s pin
  · rw [pinFinding_of_new kind h]
    exact (congrArg (fun e : State => { e with mod := s.mod }) (faultLog_frame (pinShown s pin kind) _ _ _ _ _ _ _) :)
  · rw [pinFinding_of_quiet kind h]
    rfl

theorem mod_pinFinding (s : State) (pin kind : Nat) : (pinFinding s pin kind).mod = (pinShown s pin kind).mod := by
  cases h : pinQuiet s pin
  · rw [pinFinding_of_new kind h, mod_faultLog]
  · rw [pinFinding_of_quiet kind h]

/-- Settles O56: the states a partition and the device enter and leave, domain by domain. -/
theorem powerStates : Obligations.PowerStates := by
  unfold Obligations.PowerStates
  refine ⟨?_, fun s hdev => ⟨?_, ?_, ?_⟩, fun s hdev => ⟨?_, ?_⟩, ?_, fun s i harmed => ⟨exec_alarmFire_due harmed, exec_alarmFire_early⟩, fun s hdev => ?_, fun s => ⟨rfl, ?_⟩⟩
  · intro s p x hx hup hwaking
    have hmay (hidle : partIdle s p x = true) : ¬((!partIdle s p x) = true ∨ x.waking.isSome = true ∨ (!deviceUp s) = true) := by rw [hidle, hwaking, hup]; decide
    refine ⟨fun hidle hstate htol => ?_, fun hidle hstate htol => ?_, fun hidle hstate htol hothers => ?_, exec_stateDwellExpiry_busy hx, fun source hbusy hstate hcmds => ?_, fun source hidle => ?_⟩
    · rw [exec_stateDwellExpiry_part hx (hmay hidle), if_pos hstate, if_pos htol]
    · rw [exec_stateDwellExpiry_part hx (hmay hidle), if_pos hstate, if_neg (Nat.not_le.mpr htol)]
    · have hall : s.parts.all (fun q => q.2.pstate ≠ 2 || decide (8 * offIf s p + 4 ≤ tolPart s q.2)) = true :=
        List.all_eq_true.2 fun q hq => by
          by_cases hq2 : q.2.pstate = 2
          · simp [hothers q hq hq2]
          · simp [hq2]
      refine ⟨settleDomains (modTiles (setPart s p { x with pstate := 2 }) (maskTiles x.tileMask) tileOff), ?_, ?_, fun t ht hmask => getTile_partOff ht hmask⟩
      · rw [exec_stateDwellExpiry_part hx (hmay hidle), if_neg (by omega), if_pos hstate, if_pos ⟨htol, hall⟩]
      · have hsettle := settleDomains_frame (modTiles (setPart s p { x with pstate := 2 }) (maskTiles x.tileMask) tileOff)
        have htiles := modTiles_frame (maskTiles x.tileMask) tileOff (setPart s p { x with pstate := 2 })
        exact ((congrArg (fun e : State => getPart? e p) hsettle : _)).trans (((congrArg (fun e : State => getPart? e p) htiles : _)).trans ((getPart_setPart ..).trans (if_pos rfl)))
    · rw [exec_wakeEvent_part hx, if_pos ⟨hup, by rw [hbusy]; rfl⟩, wakePart_of_A1 hx hstate hcmds]
    · rw [exec_wakeEvent_part hx, if_neg (by rw [hidle]; simp)]
  · intro hready htol hsleep
    refine ⟨{ s with pwr := { s.pwr with dev := 3 }, iod := { s.iod with combining := [], caddy := [] } }, ?_, rfl, rfl, rfl⟩
    rw [exec_stateDwellExpiry_device, dwellDevice_sleeps hdev hready htol, if_pos hsleep]
  · intro hready htol hsleep
    rw [exec_stateDwellExpiry_device, dwellDevice_sleeps hdev hready htol, if_neg (by rw [hsleep]; decide)]
  · intro h
    rw [exec_stateDwellExpiry_device, dwellDevice_stays hdev h]
  · intro hready htol
    rw [exec_stateDwellExpiry_device, dwellDevice_off hdev hready htol]
  · intro source hlow hhigh hmask
    have hwake := wakeDevice_from_A3 hdev hmask
    refine ⟨_, exec_wakeEvent_device hlow hhigh, ?_, (congrArg State.table hwake :), (congrArg State.parts hwake :)⟩
    refine ((congrArg State.pwr hwake :)).trans ?_
    rw [BitVec.ofNat_toNat, BitVec.setWidth_eq]
  · intro s d r hswitches hawake
    refine ⟨_, exec_domainSwitchClose hswitches hawake, domainClosed_frame s d r, rfl, fun t => ?_, fun t ht hd => ?_, fun t hd => ?_⟩
    · rw [getTile_domainClosed]
      split <;> rfl
    · rw [getTile_domainClosed, if_pos ⟨ht, hd⟩]
    · rw [getTile_domainClosed, if_neg (fun h => hd h.2)]
  · exact congrArg Host.Outcome.next (wakeDevice_awake (s := { s with mod := { s.mod with wakePinHeld := false }, pwr := { s.pwr with wakeIn := true, seen := setBit s.pwr.seen 0 true } }) hdev)
  · have hframe := pinFinding_frame { s with pwr := { s.pwr with refLocal := true } } 19 5
    have hmod := mod_pinFinding { s with pwr := { s.pwr with refLocal := true } } 19 5
    refine ⟨_, rfl, (congrArg State.pwr hframe :), ?_, (congrArg (fun e => e.lastPin) hmod :), (congrArg (fun e => e.lastKind) hmod :)⟩
    rw [hmod]
    exact bit_setBit_self _ (by decide)

end Sys2Proof.Machine

end


section

/-! SUPPORT. The sideband: checks of its pins, attestation and firmware update (R425, R429, R430, R454, R456, R457). -/

namespace Sys2Proof.Machine

open Sys2Proof

/-! ## Pins -/

section
variable {s : State} {pin : Nat}

theorem pinQuiet_of_faulted (h : s.mod.pinFaults.getLsbD pin = true) : pinQuiet s pin = true := by
  rw [pinQuiet, h]
  rfl

theorem pinQuiet_of_fresh (h : s.mod.pinFaults.getLsbD pin = false) (hclear : tabGet? pin s.mod.pinClear = none) : pinQuiet s pin = false := by
  rw [pinQuiet, h, hclear]
  rfl

/-- A log with room takes the record at its end (R400). -/
theorem faultLog_log (s : State) (cls code part action unit : Nat) (phys : BitVec 16) (detail : BitVec 128) (hroom : s.log.length < 65536) :
    ∃ r, (faultLog s cls code part action unit phys detail).log = s.log ++ [r] ∧ r.cls = BitVec.ofNat 8 cls ∧ r.code = BitVec.ofNat 8 code ∧ r.unit = BitVec.ofNat 16 unit := by
  unfold faultLog
  dsimp only
  rw [if_pos hroom]
  exact ⟨_, rfl, rfl, rfl, rfl⟩

/-- A new finding is logged with its pin and kind (R456). -/
theorem log_pinFinding_of_new {kind : Nat} (hpin : pin < 21) (hkind : kind < 8) (hnew : pinQuiet s pin = false) (hroom : s.log.length < 65536) :
    ∃ r, (pinFinding s pin kind).log = s.log ++ [r] ∧ r.cls = 19 ∧ r.code.toNat = kind ∧ r.unit.toNat = pin := by
  obtain ⟨r, hlog, hcls, hcode, hunit⟩ := faultLog_log (pinShown s pin kind) 19 kind 0xFF 0 pin 0xFFFF ((sbPinStatus (pinShown s pin kind).mod).setWidth 128) hroom
  refine ⟨r, (congrArg State.log (pinFinding_of_new kind hnew)).trans hlog, hcls, ?_, ?_⟩
  · rw [hcode, BitVec.toNat_ofNat]
    omega
  · rw [hunit, BitVec.toNat_ofNat]
    omega

theorem pinCleared_faults (s : State) (pin : Nat) : (pinCleared s pin).mod.pinFaults.getLsbD pin = false := by
  unfold pinCleared
  split
  · exact (bit_setBit (x := s.mod.pinFaults) (i := pin) (j := pin) false).trans (by rw [if_pos rfl, Bool.and_false])
  · next h => exact Bool.not_eq_true _ ▸ h

theorem exec_pinTestTimer (above : Bool) {l : List (Fin 21)} (hpin : testPins[s.mod.testPin]? = some pin) (hl : ∀ q ∈ l, q.val ≠ pin) :
    exec (.pinTestTimer above l) s = .next (l.foldl (fun s q => pinFinding s q.val 3)
      (if above = true then pinFinding { s with mod := { s.mod with testPin := (s.mod.testPin + 1) % 9 } } pin 2 else pinCleared { s with mod := { s.mod with testPin := (s.mod.testPin + 1) % 9 } } pin)) := by
  have hget : testPins.getD s.mod.testPin 1 = pin := by rw [List.getD_eq_getElem?_getD, hpin, Option.getD_some]
  show execPinTestTimer above l s = _
  unfold execPinTestTimer
  rw [hget]
  refine congrArg Host.Outcome.next (List.foldl_ext _ _ _ fun s q hq => ?_)
  exact if_neg (hl q hq)

theorem exec_pinReadbackMismatch (pin : Fin 21) : exec (.pinReadbackMismatch pin) s = .next (if pin.val ∈ readbackPins then pinFinding s pin 4 else s) := by
  show execPinReadbackMismatch pin s = _
  exact congrArg Host.Outcome.next (if_congr List.contains_iff_mem rfl rfl)

end

/-! ## Attestation and update -/

section
variable {s : State}

theorem sidebandUp_of_started (hlife : s.mod.lifeStarted = true) (hdev : s.pwr.dev < 4) : sidebandUp s = true := by
  rw [sidebandUp, hlife, decide_eq_true hdev]
  rfl

theorem sidebandUp_of_recovery (hrecovery : s.mod.recovery = true) (hdev : s.pwr.dev < 4) : sidebandUp s = true := by
  rw [sidebandUp, hrecovery, decide_eq_true hdev, Bool.or_true]
  rfl

section
variable (hup : sidebandUp s = true)
include hup

theorem exec_getMeasurements {i : BitVec 8} (hi : i ≠ 0xFF) :
    exec (.spdmRequest (.getMeasurements i)) s = .next (emit s (if measured s i.toNat = true then .spdm 0x60 (measurement s i.toNat) else .spdm 0x7F [0x01])) := by
  show execSpdmRequest (.getMeasurements i) s = _
  unfold execSpdmRequest
  rw [if_neg (by rw [hup]; decide)]
  dsimp only
  rw [if_neg hi]
  split <;> rfl

variable (hrun : s.mod.recovery = false)
include hrun

theorem exec_keyExchange : exec (.spdmRequest .keyExchange) s =
    .next (if 4 ≤ s.mod.sessions then emit s (.spdm 0x7F [0x03]) else emit { s with mod := { s.mod with sessions := s.mod.sessions + 1 } } (.spdm 0x64 (Config.spdmBody 0xE4 []))) := by
  show execSpdmRequest .keyExchange s = _
  unfold execSpdmRequest
  rw [if_neg (by rw [hup]; decide)]
  dsimp only
  rw [if_neg (by rw [hrun]; decide)]
  split <;> rfl

theorem exec_endSession (hopen : 0 < s.mod.sessions) : exec (.spdmRequest .endSession) s = .next (emit { s with mod := { s.mod with sessions := s.mod.sessions - 1 } } (.spdm 0x6C [])) := by
  show execSpdmRequest .endSession s = _
  unfold execSpdmRequest
  rw [if_neg (by rw [hup]; decide)]
  dsimp only
  rw [if_neg (by rw [hrun]; simp; omega)]

theorem exec_setCertificate : exec (.spdmRequest .setCertificate) s = .next (emit s (.spdm 0x7F [0x07])) := by
  show execSpdmRequest .setCertificate s = _
  unfold execSpdmRequest
  rw [if_neg (by rw [hup]; decide)]
  dsimp only
  rw [if_neg (by rw [hrun]; decide)]

theorem exec_telemetry (body : List Byte) : exec (.pldmRequest (.telemetry body)) s = .next (emit s (.pldm (Config.pldmBody body))) := by
  show execPldmRequest (.telemetry body) s = _
  unfold execPldmRequest
  rw [if_neg (by rw [hup]; decide)]
  dsimp only
  rw [if_neg (by rw [hrun]; decide)]

end

/-- A verified image ends recovery, and start-up begins anew (R425, R466). -/
theorem exec_fwUpdate {cause : BitVec 8} {x : StartCfg} {i : FwImage} (hdev : s.pwr.dev < 4) (hrecovery : s.mod.recovery = true) (hwait : s.mod.waitStart = some (cause, x)) (hwp : s.mod.flashWp = false)
    (hi : imageVerified s i = true) : exec (.pldmRequest (.fwUpdate i)) s =
      .next (startUp { s with mod := { s.mod with recovery := false, fwVersion := i.version, fwSvn := i.svn } } { x with slotOk := true } cause) := by
  show execPldmRequest (.fwUpdate i) s = _
  unfold execPldmRequest
  rw [if_neg (by rw [sidebandUp_of_recovery hrecovery hdev]; decide)]
  dsimp only
  split
  · next c y hrec hw =>
    cases hwait.symm.trans hw
    rw [if_neg (by rw [hwp, hi]; decide)]
  · next hno => exact absurd hwait (hno cause x hrecovery)

end

/-- Settles O57: findings at the pins, and what the sideband answers. -/
theorem sidebandEvents : Obligations.SidebandEvents := by
  unfold Obligations.SidebandEvents
  refine ⟨⟨?_, ?_, ?_, fun s pin => rfl, fun s => ⟨rfl, fun hwake => ?_⟩⟩, ?_, ?_⟩
  · intro s pin kind hpin hkind s'
    have hframe := pinFinding_frame s pin kind
    have hmod := mod_pinFinding s pin kind
    refine ⟨congrArg (fun e => e.pinFaults) hmod, congrArg (fun e => e.pinSeen) hmod, ?_, ?_, (congrArg State.pwr hframe :), (congrArg State.table hframe :), fun hfaulted => ?_, fun hfaulted hclear hroom => ?_⟩
    · exact (congrArg (fun e => e.lastPin.toNat) hmod).trans ((BitVec.toNat_ofNat pin 5).trans (Nat.mod_eq_of_lt (by omega)))
    · exact (congrArg (fun e => e.lastKind.toNat) hmod).trans ((BitVec.toNat_ofNat kind 3).trans (Nat.mod_eq_of_lt (by omega)))
    · exact (congrArg State.log (pinFinding_of_quiet kind (pinQuiet_of_faulted hfaulted)) :)
    · exact log_pinFinding_of_new hpin hkind (pinQuiet_of_fresh hfaulted hclear) hroom
  · intro s pin hpin s1
    exact ⟨fun l hl => ⟨exec_pinTestTimer true hpin hl, exec_pinTestTimer false hpin hl⟩, pinCleared_faults s1 pin⟩
  · exact fun s pin => ⟨fun h => (exec_pinReadbackMismatch pin).trans (congrArg _ (if_pos h)), fun h => (exec_pinReadbackMismatch pin).trans (congrArg _ (if_neg h))⟩
  · show execSidebandHeldTimeout 2 s = _
    rw [execSidebandHeldTimeout, if_neg (by decide), if_pos ⟨by decide, hwake⟩]
  · intro s hlife hrun hdev
    have hup := sidebandUp_of_started hlife hdev
    refine ⟨fun i hi hmeasured => ?_, fun i hi hmeasured => ?_, fun hfew => ⟨Config.spdmBody 0xE4 [], ?_⟩, fun hmany => ?_, exec_endSession hup hrun, exec_setCertificate hup hrun, fun body => ⟨_, exec_telemetry hup hrun body⟩⟩
    · rw [exec_getMeasurements hup hi, if_pos hmeasured]
    · rw [exec_getMeasurements hup hi, if_neg (by rw [hmeasured]; decide)]
    · rw [exec_keyExchange hup hrun, if_neg (Nat.not_le.mpr hfew)]
    · rw [exec_keyExchange hup hrun, if_pos hmany]
  · exact fun s cause x i hdev hrecovery hwait hwp hi => exec_fwUpdate hdev hrecovery hwait hwp hi

end Sys2Proof.Machine

end


section

/-! SUPPORT. Liveness of the partner (R377-R382). -/

namespace Sys2Proof.Machine

open Sys2Proof

/-! ## Heartbeats -/

section
variable {s : State}

/-- The state once a heartbeat's turn has come: what is missed so far is counted (R377). -/
def heartbeatDue (s : State) : State :=
  let s := if s.pair.st = 2 ∧ 0 < s.pair.missed ∧ !s.pair.partnerAsleep then pairCtr s 0x50 1 else s
  { s with pair := { s.pair with missed := s.pair.missed + 1 } }

theorem heartbeatDue_frame (s : State) : { heartbeatDue s with pair := s.pair } = s := by
  unfold heartbeatDue
  split <;> rfl

theorem heartbeatDue_fields (s : State) : (heartbeatDue s).pair.missed = s.pair.missed + 1 ∧ (heartbeatDue s).pair.portsUp = s.pair.portsUp ∧
    (heartbeatDue s).pair.lastHbRecv = s.pair.lastHbRecv ∧ (heartbeatDue s).pair.lastHbArrived = s.pair.lastHbArrived := by
  unfold heartbeatDue
  split <;> exact ⟨rfl, rfl, rfl, rfl⟩

theorem exec_heartbeatTimer (hpartner : s.pair.partner.isSome = true) (hready : s.ready = true) (hawake : s.pair.selfAsleep = false) : exec .heartbeatTimer s =
    .next (emits (heartbeatDue s) (((List.range 2).filter (fun p => s.pair.portsUp.getLsbD p)).map (fun p => .heartbeat p s.pwr.timebase s.pair.lastHbRecv s.pair.lastHbArrived))) := by
  obtain ⟨-, hports, hrecv, harrived⟩ := heartbeatDue_fields s
  have hpwr : (heartbeatDue s).pwr = s.pwr := (congrArg State.pwr (heartbeatDue_frame s) :)
  show execHeartbeatTimer s = _
  unfold execHeartbeatTimer
  rw [if_neg (by rw [hready, hawake, Option.isNone_iff_eq_none, ← Option.not_isSome_iff_eq_none, hpartner]; decide)]
  show Host.Outcome.next (emits (heartbeatDue s) (((List.range 2).filter (fun p => (heartbeatDue s).pair.portsUp.getLsbD p)).map
    (fun p => .heartbeat p (heartbeatDue s).pwr.timebase (heartbeatDue s).pair.lastHbRecv (heartbeatDue s).pair.lastHbArrived))) = _
  rw [hports, hrecv, harrived, hpwr]

/-- The state once a heartbeat has arrived (R377, R380). -/
def heartbeatSeen (s : State) (timebase echoSent echoArrived : Word64) : State :=
  { s with pair := { s.pair with lastHbRecv := timebase, lastHbArrived := s.pwr.timebase, missed := 0, window := false, partnerAsleep := false, delta := if echoSent = 0 then s.pair.delta else offsetBy (now s) timebase echoSent echoArrived } }

theorem exec_heartbeat {port : Fin 2} {tb es ea : Word64} (hup : s.pair.portsUp.getLsbD port = true) (hpartner : s.pair.partner.isSome = true) (hawake : s.pair.selfAsleep = false)
    (hwire : s.pair.aliveIn ≠ 2 ∨ s.pair.st ≠ 2 ∨ s.pair.wireFault = true) : exec (.heartbeat port tb es ea) s = .next (heartbeatSeen s tb es ea) := by
  have hquiet : (if (heartbeatSeen s tb es ea).pair.aliveIn = 2 ∧ (heartbeatSeen s tb es ea).pair.st = 2 then wireFaultNow (heartbeatSeen s tb es ea) else heartbeatSeen s tb es ea) = heartbeatSeen s tb es ea := by
    split
    · next h =>
      have hfault : (heartbeatSeen s tb es ea).pair.wireFault = true := (hwire.resolve_left (fun k => k h.1)).resolve_left (fun k => k h.2)
      exact if_pos hfault
    · rfl
  show execHeartbeat port tb es ea s = _
  unfold execHeartbeat
  rw [if_neg (by rw [hup, hawake, Option.isNone_iff_eq_none, ← Option.not_isSome_iff_eq_none, hpartner]; decide)]
  exact congrArg Host.Outcome.next hquiet

end

/-! ## Missed heartbeats -/

section
variable {s : State} (hst : s.pair.st = 2) (hawake : s.pair.selfAsleep = false) (hfrozen : s.pair.frozen = false)
include hst hawake hfrozen

theorem exec_heartbeatMissed : exec .heartbeatMissed s =
    if s.pair.window = true ∧ now s < s.pair.windowEnd then .next s
    else if s.pair.window = true ∧ s.pair.aliveIn ≠ 2 then .next (emit { s with pair := { s.pair with frozen := true, window := false, partnerAsleep := false } } (.resync (controlState s)))
    else if s.pair.partnerAsleep = true ∧ s.pair.aliveIn ≠ 2 then .next s
    else if s.pair.wireFault = true ∨ s.pair.aliveIn ≠ 2 then .next (goSolo s) else .next (leapfrog s) := by
  show execHeartbeatMissed s = _
  unfold execHeartbeatMissed
  dsimp only
  rw [if_neg (by simp [hst, hawake]), if_neg (by rw [hfrozen]; decide)]

theorem exec_heartbeatMissed_window (hwindow : s.pair.window = true) (hopen : now s < s.pair.windowEnd) : exec .heartbeatMissed s = .next s := by
  rw [exec_heartbeatMissed hst hawake hfrozen, if_pos ⟨hwindow, hopen⟩]

theorem exec_heartbeatMissed_static (hclosed : s.pair.window = false ∨ s.pair.windowEnd ≤ now s) (halive : s.pair.aliveIn = 2) :
    exec .heartbeatMissed s = .next (if s.pair.wireFault = true then goSolo s else leapfrog s) := by
  have hno : ¬(s.pair.window = true ∧ now s < s.pair.windowEnd) := fun h => hclosed.elim (fun e => Bool.noConfusion (e.symm.trans h.1)) (fun e => Nat.not_lt.mpr e h.2)
  rw [exec_heartbeatMissed hst hawake hfrozen, if_neg hno, if_neg (fun h => h.2 halive), if_neg (fun h => h.2 halive)]
  by_cases hwire : s.pair.wireFault = true
  · rw [if_pos (Or.inl hwire), if_pos hwire]
  · rw [if_neg (fun h => h.elim hwire (fun k => k halive)), if_neg hwire]

theorem exec_heartbeatMissed_resync (hwindow : s.pair.window = true) (hend : s.pair.windowEnd ≤ now s) (halive : s.pair.aliveIn ≠ 2) : exec .heartbeatMissed s =
    .next (emit { s with pair := { s.pair with frozen := true, window := false, partnerAsleep := false } } (.resync (controlState s))) := by
  rw [exec_heartbeatMissed hst hawake hfrozen, if_neg (fun h => Nat.not_lt.mpr hend h.2), if_pos ⟨hwindow, halive⟩]

theorem exec_heartbeatMissed_moving (hwindow : s.pair.window = false) (halive : s.pair.aliveIn ≠ 2) : exec .heartbeatMissed s = .next (if s.pair.partnerAsleep = true then s else goSolo s) := by
  rw [exec_heartbeatMissed hst hawake hfrozen, if_neg (by rw [hwindow]; simp), if_neg (by rw [hwindow]; simp)]
  by_cases hasleep : s.pair.partnerAsleep = true
  · rw [if_pos ⟨hasleep, halive⟩, if_pos hasleep]
  · rw [if_neg (fun h => hasleep h.1), if_pos (Or.inr halive), if_neg hasleep]

end

/-! ## The wire and sleep -/

section
variable {s : State}

/-- An edge on the wire of a sleeping partner opens the window of R380. -/
theorem exec_pairAliveInEdge_opens (h : s.pair.st = 2 ∧ s.pair.partnerAsleep = true ∧ s.pair.aliveIn = 0 ∧ s.pair.window = false) : exec .pairAliveInEdge s =
    .next { s with pair := { s.pair with aliveIn := 0, window := true, windowEnd := now s + max 15000 ((s.pwr.tick - s.pair.sleepAt).toNat * 625 / 256) } } := by
  obtain ⟨hst, hasleep, halive, hwindow⟩ := h
  show execPairAliveInEdge s = _
  unfold execPairAliveInEdge
  dsimp only
  rw [if_pos ⟨hasleep, halive, by rw [hwindow]; rfl⟩, openWindow, if_neg (fun k => k hst)]
  rfl

theorem exec_pairAliveInEdge_only (h : ¬(s.pair.st = 2 ∧ s.pair.partnerAsleep = true ∧ s.pair.aliveIn = 0 ∧ s.pair.window = false)) :
    exec .pairAliveInEdge s = .next { s with pair := { s.pair with aliveIn := 0 } } := by
  show execPairAliveInEdge s = _
  unfold execPairAliveInEdge
  dsimp only
  split
  · next hedge =>
    obtain ⟨hasleep, halive, hwindow⟩ := hedge
    have hst : s.pair.st ≠ 2 := fun hst => h ⟨hst, hasleep, halive, by simpa using hwindow⟩
    rw [openWindow, if_pos hst]
  · rfl

theorem exec_aliveInTimeout_slows (hasleep : s.pair.partnerAsleep = true) (halive : s.pair.aliveIn = 0) : exec .aliveInTimeout s = .next { s with pair := { s.pair with aliveIn := 1 } } := if_pos ⟨hasleep, halive⟩

theorem exec_aliveInTimeout_stops (h : s.pair.partnerAsleep = false ∨ s.pair.aliveIn ≠ 0) (hst : s.pair.st ≠ 3) : exec .aliveInTimeout s = .next { s with pair := { s.pair with aliveIn := 2 } } := by
  show execAliveInTimeout s = _
  rw [execAliveInTimeout, if_neg (fun k => h.elim (fun e => Bool.noConfusion (e.symm.trans k.1)) (fun e => e k.2))]
  exact congrArg Host.Outcome.next (if_neg fun k => hst k.1)

theorem exec_wireFaultClear_moving (halive : s.pair.aliveIn = 0) : exec .wireFaultClear s = .next { s with pair := { s.pair with wireFault := false } } := congrArg Host.Outcome.next (if_pos halive)

theorem exec_wireFaultClear_still (halive : s.pair.aliveIn ≠ 0) : exec .wireFaultClear s = .next s := congrArg Host.Outcome.next (if_neg halive)

theorem exec_sleep (ticks : Word64) (hst : s.pair.st = 2) :
    exec (.sleep ticks) s = .next (emit { s with pair := { s.pair with partnerAsleep := true, sleepTick := ticks, sleepAt := s.pwr.tick, window := false } } .sleepAck) := if_neg (fun h => h hst)

theorem exec_sleepConfirm (hst : s.pair.st = 2) (hready : a3Ready s = true) : exec .sleepConfirm s =
    .next { s with pair := { s.pair with sleepConfirmed := true, selfAsleep := true, sleepAt := if s.pair.partnerAsleep = true then s.pair.sleepAt else s.pwr.tick, aliveOut := .hz32 } } := if_pos ⟨hst, hready⟩

end

/-- Settles O50: heartbeats, what follows when they are missed, the wire's classes and sleep. -/
theorem pairLiveness : Obligations.PairLiveness := by
  unfold Obligations.PairLiveness
  refine ⟨?_, ?_, fun s hst hawake hfrozen => ⟨exec_heartbeatMissed_window hst hawake hfrozen, fun hclosed => ⟨fun halive hwire => ?_, fun halive hwire => ?_⟩, fun halive hwindow hend =>
      exec_heartbeatMissed_resync hst hawake hfrozen hwindow hend halive, fun halive hwindow hasleep => ?_, fun halive hwindow hasleep => ?_⟩,
    fun s => ⟨⟨exec_pairAliveInEdge_opens, exec_pairAliveInEdge_only⟩, exec_aliveInTimeout_slows, exec_aliveInTimeout_stops, exec_wireFaultClear_moving, exec_wireFaultClear_still, exec_sleep, exec_sleepConfirm⟩⟩
  · intro s hpartner hready hawake
    have hframe := heartbeatDue_frame s
    obtain ⟨hmissed, -⟩ := heartbeatDue_fields s
    refine ⟨_, exec_heartbeatTimer hpartner hready hawake, hmissed, ?_, ?_⟩
    · exact congrArg (· ++ _) (congrArg State.out hframe :)
    · exact (congrArg (fun e : State => { e with out := s.out }) hframe :)
  · intro s port tb es ea hup hpartner hawake hwire
    exact ⟨_, exec_heartbeat hup hpartner hawake hwire, rfl, rfl, rfl, rfl, rfl, fun h => if_pos h, rfl, rfl⟩
  · rw [exec_heartbeatMissed_static hst hawake hfrozen hclosed halive, if_neg (by rw [hwire]; decide)]
  · rw [exec_heartbeatMissed_static hst hawake hfrozen hclosed halive, if_pos hwire]
  · rw [exec_heartbeatMissed_moving hst hawake hfrozen hwindow halive, if_neg (by rw [hasleep]; decide)]
  · rw [exec_heartbeatMissed_moving hst hawake hfrozen hwindow halive, if_pos hasleep]

end Sys2Proof.Machine

end


section

/-! SUPPORT. The search (R352, R353). -/

namespace Sys2Proof.Machine

open Sys2Proof

/-! ## Ports -/

theorem getPort_modPort (s : State) (p q : Nat) (f : FabPort → FabPort) : getPort (modPort s p f) q = if q = p then f (getPort s p) else getPort s q := by
  simp only [getPort, modPort, tabModify, tabGetD_insert]

theorem trySearch_idle {s : State} (h : s.fab.searching = false) : trySearch s = s := if_pos (Or.inl (by rw [h]; rfl))

theorem trySearch_open {s : State} (h : leads s = false ∨ tablesClosed s = false) : trySearch s = s :=
  if_pos (h.elim (fun e => Or.inr (Or.inl (by rw [e]; rfl))) (fun e => Or.inr (Or.inr (Or.inl (by rw [e]; rfl)))))

/-! ## HELLO -/

/-- What a HELLO leaves of its port: the peer's name, kind and port (R352). -/
def helloPort (q : FabPort) (id : BitVec 64) (peer : Fin 32) (sw : Bool) : FabPort :=
  { q with nbr := some (id, peer.val, sw), status := setBits (setBits q.status 61 60 (if sw then 2 else 1)) 47 43 peer.val }

theorem exec_hello {s : State} {port : Fin 16} {id : BitVec 64} {peer : Fin 32} {epoch : BitVec 16} {sw : Bool} (hup : portUp (getPort s port) = true) (hearlier : laterEpoch epoch s.fab.epoch = false)
    (hidle : s.fab.searching = false) : exec (.hello port id peer epoch sw) s = .next (modPort s port (fun q => helloPort q id peer sw)) := by
  have hstays : trySearch (modPort s port (fun q => helloPort q id peer sw)) = modPort s port (fun q => helloPort q id peer sw) := trySearch_idle hidle
  show execHello port id peer epoch sw s = _
  unfold execHello
  rw [if_neg (by rw [hup]; decide)]
  exact congrArg Host.Outcome.next ((if_neg (by rw [modPort, hearlier]; decide)).trans hstays)

theorem helloPort_status (q : FabPort) (id : BitVec 64) (peer : Fin 32) (sw : Bool) :
    bits (helloPort q id peer sw).status 61 60 = (if sw then 2 else 1) ∧ bits (helloPort q id peer sw).status 47 43 = peer.val := by
  constructor
  · refine (bits_setBits_of_disjoint _ (by decide) _).trans ((bits_setBits_self _ (by decide) _).trans ?_)
    cases sw <;> rfl
  · exact (bits_setBits_self _ (by decide) _).trans (Nat.mod_eq_of_lt peer.isLt)

/-! ## Tables, PREPARE and COMMIT -/

section
variable {s : State}

theorem exec_epochMessage_later {epoch : BitVec 16} (h : laterEpoch epoch s.fab.epoch = true) : exec (.epochMessage epoch) s = .next (startSearch s epoch) := congrArg Host.Outcome.next (if_pos h)

theorem exec_epochMessage_earlier {epoch : BitVec 16} (h : laterEpoch epoch s.fab.epoch = false) : exec (.epochMessage epoch) s = .next s := congrArg Host.Outcome.next (if_neg (by rw [h]; decide))

theorem exec_neighbourTable {id : BitVec 64} {sw : Bool} {nbrs : List Neighbour} (hsearch : s.fab.searching = true) (hid : id ≠ ownId) :
    exec (.neighbourTable id sw nbrs) s = .next (trySearch { s with fab := { s.fab with tables := s.fab.tables.filter (fun t => t.1 ≠ id) ++ [(id, sw, nbrs)] } }) := by
  show execNeighbourTable id sw nbrs s = _
  rw [execNeighbourTable, if_neg (by simp [hsearch, hid])]

theorem exec_prepare {epoch : BitVec 16} (h : epoch = s.fab.epoch) : exec (.prepare epoch) s = .next (emit { s with fab := { s.fab with prepared := some epoch } } (.confirmMsg epoch)) := if_pos h

theorem exec_commit {epoch : BitVec 16} {mods sws : List (BitVec 64)} {routes : List Route} (h : epoch = s.fab.epoch) (hprepared : s.fab.prepared = some epoch) :
    exec (.commit epoch mods sws routes) s = .next (install s mods sws routes) := if_pos ⟨h, hprepared⟩

/-- With no group, the new map is all that an installation changes. -/
theorem install_of_no_groups (hgroups : s.fab.groups = []) (mods sws : List (BitVec 64)) (routes : List Route) :
    let s' := install s mods sws routes
    s'.fab.published = true ∧ s'.fab.pubEpoch = s.fab.epoch ∧ s'.fab.epoch = s.fab.epoch ∧ s'.fab.searching = false ∧ s'.fab.routes = routes ∧ s'.fab.moduleIds = mods ∧
      s'.fab.routeId.toNat = mods.idxOf ownId % 2 ^ 16 ∧ { s' with fab := s.fab } = s := by
  intro s'
  have hreach : ∀ u : State, u.fab.groups = [] → settleReach u true = u := fun u hu => by rw [settleReach, hu]; rfl
  have hs' : s' = _ := hreach _ hgroups
  rw [hs']
  exact ⟨rfl, rfl, rfl, rfl, rfl, rfl, BitVec.toNat_ofNat .., rfl⟩

theorem exec_prepareConfirmation {id : BitVec 64} (hsearch : s.fab.searching = true) (hlead : leads s = true) (hprepared : s.fab.prepared = some s.fab.epoch) (hid : id ∈ tableModules s) (hnew : id ∉ s.fab.confirms) :
    exec (.prepareConfirmation id s.fab.epoch) s = .next (if (tableModules s).all (fun m => (s.fab.confirms ++ [id]).contains m) = true then
      install (emit { s with fab := { s.fab with confirms := s.fab.confirms ++ [id] } } (.commitMsg s.fab.epoch)) (tableModules s) (tableSwitches s) (computeRoutes s)
      else { s with fab := { s.fab with confirms := s.fab.confirms ++ [id] } }) := by
  have hfresh : (if s.fab.confirms.contains id then s.fab.confirms else s.fab.confirms ++ [id]) = s.fab.confirms ++ [id] := if_neg (fun h => hnew (List.contains_iff_mem.mp h))
  show execPrepareConfirmation id s.fab.epoch s = _
  unfold execPrepareConfirmation
  rw [if_neg (by simp [hsearch, hlead, hprepared, hid])]
  dsimp only
  rw [hfresh]
  show (if (tableModules s).all (fun m => (s.fab.confirms ++ [id]).contains m) = true then _ else _) = _
  split <;> rfl

end

/-- Settles O46: each message of the search acts under its epoch. -/
theorem searchMessages : Obligations.SearchMessages := by
  unfold Obligations.SearchMessages
  refine ⟨fun s => ⟨_, rfl, rfl, rfl⟩, ?_, fun s epoch => ⟨exec_epochMessage_later, exec_epochMessage_earlier, exec_prepare, fun h => ⟨if_neg h, fun m w r => if_neg (fun k => h k.1)⟩, ?_⟩, ?_, ?_⟩
  · intro s port id peer epoch sw hup hearlier hidle
    obtain ⟨hkind, hpeer⟩ := helloPort_status (getPort s port) id peer sw
    exact ⟨_, _, exec_hello hup hearlier hidle, rfl, (getPort_modPort ..).trans (if_pos rfl), rfl, hkind, hpeer, fun p hp => (getPort_modPort ..).trans (if_neg hp)⟩
  · intro h hprepared hgroups mods sws routes
    have hinstall := install_of_no_groups hgroups mods sws routes
    rw [h]
    exact ⟨_, exec_commit rfl (h ▸ hprepared), hinstall⟩
  · intro s id sw nbrs hsearch hid s1
    exact ⟨exec_neighbourTable hsearch hid, trySearch_open⟩
  · intro s id hsearch hlead hprepared hid hnew s1
    have hexec := exec_prepareConfirmation hsearch hlead hprepared hid hnew
    refine ⟨fun hopen => hexec.trans (congrArg Host.Outcome.next (if_neg fun hall => ?_)), fun hall => hexec.trans (congrArg Host.Outcome.next (if_pos ?_))⟩
    · obtain ⟨m, hm, hno⟩ := hopen
      exact hno (List.contains_iff_mem.mp (List.all_eq_true.mp hall m hm))
    · exact List.all_eq_true.mpr fun m hm => List.contains_iff_mem.mpr (hall m hm)

end Sys2Proof.Machine

end


section

/-! SUPPORT. The link layer: headers, acknowledgements, retransmission and lanes (R348-R350, R353, R354). -/

namespace Sys2Proof.Machine

open Sys2Proof

/-! ## Headers -/

theorem bytesToNat_natToBytes_append (n v : Nat) (l : List Byte) : bytesToNat (natToBytes n v ++ l) = v % 256 ^ n + 256 ^ n * bytesToNat l := by
  induction n generalizing v with
  | zero =>
    show bytesToNat l = v % 1 + 1 * bytesToNat l
    omega
  | succ n ih =>
    have hstep : bytesToNat (natToBytes (n + 1) v ++ l) = v % 256 + 256 * bytesToNat (natToBytes n (v / 256) ++ l) := by
      show (BitVec.ofNat 8 v).toNat + 256 * _ = _
      rw [BitVec.toNat_ofNat]
      rfl
    rw [hstep, ih, Nat.mul_add, ← Nat.mul_assoc, ← Nat.pow_succ', ← Nat.add_assoc, ← Nat.mod_mul, Nat.pow_succ']

/-- The fields of a header that an acknowledgement is read by (R349). -/
theorem header_fields (dst src group : Nat) (payload : List Byte) {vc type seq : Nat} (hvc : vc < 16) (htype : type < 16) (hseq : seq < 2 ^ 32) :
    bits (header dst src vc type group seq payload) 95 64 = seq ∧ bits (header dst src vc type group seq payload) 39 36 = type := by
  have hlast (v : Nat) : bytesToNat (natToBytes 4 v) = v % 256 ^ 4 := bytesToNat_natToBytes 4 v
  unfold header bits
  dsimp only
  generalize (crc32c _).toNat = crc
  rw [BitVec.toNat_ofNat, Nat.shiftRight_eq_div_pow, Nat.shiftRight_eq_div_pow]
  simp only [List.append_assoc, bytesToNat_natToBytes_append, hlast]
  omega

/-! ## Ports and their channels -/

theorem getVc_setVc_self (q : FabPort) (v : Nat) (x : LinkVc) : getVc (setVc q v x) v = x := by
  rw [getVc, setVc, tabGetD_insert, if_pos rfl]

section
variable {s : State} {port : Fin 18} {h : BitVec 128} {b : List Byte}

theorem exec_fabricLinkPacket_bad (hbad : headerOk h b = false) : exec (.fabricLinkPacket port h b) s = .next s := by
  show execFabricLinkPacket port h b s = _
  unfold execFabricLinkPacket
  dsimp only
  rw [if_pos (Or.inr (Or.inl (by rw [hbad]; rfl)))]

variable (hup : portUp (getPort s port) = true) (hok : headerOk h b = true) (hvc : if port.val < 16 then bits h 33 32 ≤ 2 else 2 ≤ bits h 33 32) (htype : bits h 39 36 ≠ 6)
include hup hok hvc htype

omit htype in
/-- The packet passes the checks of R349. -/
theorem linkPacket_passes : ¬((!portUp (getPort s port)) = true ∨ (!headerOk h b) = true ∨ (!if port.val < 16 then decide (bits h 33 32 ≤ 2) else decide (2 ≤ bits h 33 32)) = true) := by
  have hlane : (if port.val < 16 then decide (bits h 33 32 ≤ 2) else decide (2 ≤ bits h 33 32)) = true := by
    by_cases hport : port.val < 16
    · rw [if_pos hport] at hvc ⊢
      exact decide_eq_true hvc
    · rw [if_neg hport] at hvc ⊢
      exact decide_eq_true hvc
  rw [hup, hok, hlane]
  decide

theorem exec_fabricLinkPacket_outOfOrder (hseq : BitVec.ofNat 32 (bits h 95 64) ≠ (getVc (getPort s port) (bits h 33 32)).nextRecv) : exec (.fabricLinkPacket port h b) s = .next s := by
  show execFabricLinkPacket port h b s = _
  unfold execFabricLinkPacket
  dsimp only
  rw [if_neg (linkPacket_passes hup hok hvc), if_neg htype, if_pos (Or.inr hseq)]

/-- A packet for this module that is next in its channel's order is acknowledged (R350). -/
theorem exec_fabricLinkPacket_next (hseq : BitVec.ofNat 32 (bits h 95 64) = (getVc (getPort s port) (bits h 33 32)).nextRecv)
    (hmine : bits h 33 32 ≤ 1 → s.fab.published = true ∧ bits h 15 0 = s.fab.routeId.toNat) :
    exec (.fabricLinkPacket port h b) s = .next (emit (modPort s port (fun q => setVc q (bits h 33 32) { getVc q (bits h 33 32) with nextRecv := BitVec.ofNat 32 (bits h 95 64) + 1 }))
      (.fabric port (header (bits h 31 16) (bits h 15 0) (bits h 33 32) 6 0 (BitVec.ofNat 32 (bits h 95 64)).toNat (natToBytes 64 (b.length / 64))) (natToBytes 64 (b.length / 64)))) := by
  have hstays : ¬((bits h 33 32 ≤ 1 ∧ (!s.fab.published) = true) ∨ BitVec.ofNat 32 (bits h 95 64) ≠ (getVc (getPort s port) (bits h 33 32)).nextRecv) := by
    rintro (⟨hlow, hpub⟩ | hne)
    · rw [(hmine hlow).1] at hpub
      exact Bool.noConfusion hpub
    · exact hne hseq
  show execFabricLinkPacket port h b s = _
  unfold execFabricLinkPacket
  dsimp only
  rw [if_neg (linkPacket_passes hup hok hvc), if_neg htype, if_neg hstays]
  exact if_neg fun k => k.2 (hmine k.1).2

end

/-! ## Retransmission and lanes -/

theorem status_resend (s : State) (p v q : Nat) : (getPort (resend s p v) q).status = (getPort s q).status := by
  refine ((congrArg FabPort.status (getPort_modPort s p q _) :)).trans ?_
  split
  · next h => rw [h]
  · rfl

theorem stores_resend (s : State) (p v : Nat) : (resend s p v).table = s.table ∧ (resend s p v).parts = s.parts := ⟨rfl, rfl⟩

theorem stores_foldl_resend (p : Nat) (l : List Nat) (s : State) : (l.foldl (fun s v => resend s p v) s).table = s.table ∧ (l.foldl (fun s v => resend s p v) s).parts = s.parts := by
  induction l generalizing s with
  | nil => exact ⟨rfl, rfl⟩
  | cons v r ih => exact ⟨(ih (resend s p v)).1.trans (stores_resend s p v).1, (ih (resend s p v)).2.trans (stores_resend s p v).2⟩

theorem status_foldl_resend (p : Nat) (l : List Nat) (s : State) (q : Nat) : (getPort (l.foldl (fun s v => resend s p v) s) q).status = (getPort s q).status := by
  induction l generalizing s with
  | nil => rfl
  | cons v r ih => exact (ih (resend s p v)).trans (status_resend s p v q)

theorem bit63_withLanes (st : Word64) (lanes : BitVec 4) : bit (withLanes st lanes) 63 = bit st 63 := by
  unfold withLanes
  dsimp only
  rw [bit_setBits_of_disjoint _ (by decide), bit_setBits_of_disjoint _ (by decide)]

theorem lanes_withLanes (st : Word64) (lanes : BitVec 4) : bits (withLanes st lanes) 55 52 = lanes.toNat := (bits_setBits_self _ (by decide) _).trans (Nat.mod_eq_of_lt lanes.isLt)

/-- The state of a port that goes on with these lanes (R348), what is unacknowledged still to be sent again. -/
def lanesLeft (s : State) (port : Fin 18) (left : BitVec 4) : State :=
  faultLog (trained (modPort s port (fun q => { q with status := withLanes q.status left })) port) (if port.val < 16 then 5 else 7) 2 0xFF 0 port 0xFFFF 0

theorem exec_laneFailure {s : State} {port : Fin 18} {lane : Fin 4} (hup : portUp (getPort s port) = true) (hlane : (BitVec.ofNat 4 (bits (getPort s port).status 55 52)).getLsbD lane = true)
    (hleft : setBit (BitVec.ofNat 4 (bits (getPort s port).status 55 52)) lane false ≠ 0) : exec (.laneFailure port lane) s =
      .next ((List.range 4).foldl (fun s v => resend s port v) (lanesLeft s port (setBit (BitVec.ofNat 4 (bits (getPort s port).status 55 52)) lane false))) := by
  show execLaneFailure port lane s = _
  unfold execLaneFailure
  dsimp only
  rw [if_neg (by rw [hup, hlane]; decide), if_neg hleft]
  rfl

theorem stores_lanesLeft (s : State) (port : Fin 18) (left : BitVec 4) : (lanesLeft s port left).table = s.table ∧ (lanesLeft s port left).parts = s.parts := by
  have hlog := faultLog_frame (trained (modPort s port (fun q => { q with status := withLanes q.status left })) port) (if port.val < 16 then 5 else 7) 2 0xFF 0 port 0xFFFF 0
  unfold lanesLeft
  generalize faultLog _ _ _ _ _ _ _ _ = s1 at hlog ⊢
  exact ⟨(congrArg State.table hlog :), (congrArg State.parts hlog :)⟩

theorem status_lanesLeft (s : State) (port : Fin 18) (left : BitVec 4) : (getPort (lanesLeft s port left) port).status = withLanes (getPort s port).status left := by
  have hlog := faultLog_frame (trained (modPort s port (fun q => { q with status := withLanes q.status left })) port) (if port.val < 16 then 5 else 7) 2 0xFF 0 port 0xFFFF 0
  have hport := getPort_modPort s port port (fun q => { q with status := withLanes q.status left })
  rw [if_pos rfl] at hport
  exact ((congrArg (fun e : State => (getPort e port).status) hlog :)).trans (congrArg FabPort.status hport)

section
variable {s : State} {port : Fin 16} (hready : s.ready = true) (hfree : portFenced (getPort s port) = false)
include hready hfree

theorem exec_sPortStateChange_down (hup : portUp (getPort s port) = true) : exec (.sPortStateChange port false) s = .next (portDown s port) := by
  show execSPortStateChange port false s = _
  unfold execSPortStateChange
  dsimp only
  rw [if_neg (by rw [hfree, hup, hready]; decide)]
  rfl

theorem exec_sPortStateChange_up (hdown : portUp (getPort s port) = false) : exec (.sPortStateChange port true) s = .next (portRise (trained s port) port 0xF) := by
  show execSPortStateChange port true s = _
  unfold execSPortStateChange
  dsimp only
  rw [if_neg (by rw [hfree, hdown, hready]; decide)]
  rfl

end

theorem exec_sPortStateChange_same (s : State) (port : Fin 16) : exec (.sPortStateChange port (portUp (getPort s port))) s = .next s := if_pos (Or.inr (Or.inl rfl))

/-- Settles O47: packets, retransmission, ports and lanes. -/
theorem linkEvents : Obligations.LinkEvents := by
  unfold Obligations.LinkEvents
  refine ⟨?_, ?_, fun s port hready hfree => ⟨exec_sPortStateChange_down hready hfree, exec_sPortStateChange_up hready hfree, exec_sPortStateChange_same s port⟩, ?_⟩
  · intro s port h b hup v
    refine ⟨exec_fabricLinkPacket_bad, fun hok hvc htype hseq => exec_fabricLinkPacket_outOfOrder hup hok hvc htype hseq, fun hok hvc htype hseq hmine => ?_⟩
    have hfield : (BitVec.ofNat 32 (bits h 95 64)).toNat = bits h 95 64 := (BitVec.toNat_ofNat ..).trans (Nat.mod_eq_of_lt (bits_lt ..))
    have hv : bits h 33 32 < 16 := (bits_lt h 33 32).trans (by decide)
    obtain ⟨hackSeq, hackType⟩ := header_fields (bits h 31 16) (bits h 15 0) 0 (natToBytes 64 (b.length / 64)) hv (type := 6) (by decide) (BitVec.ofNat 32 (bits h 95 64)).isLt
    refine ⟨_, _, _, exec_fabricLinkPacket_next hup hok hvc htype hseq hmine, rfl, hackSeq.trans hfield, hackType, ?_, rfl⟩
    have hport := (getPort_modPort s port port (fun q => setVc q v { getVc q v with nextRecv := BitVec.ofNat 32 (bits h 95 64) + 1 })).trans (if_pos rfl)
    exact (congrArg (fun q => getVc q v) hport).trans (getVc_setVc_self ..)
  · intro s port v hup hopen
    exact ⟨_, if_pos ⟨hup, hopen⟩, rfl, rfl⟩
  · intro s port lane hup lanes hlane hleft
    have hstatus := (status_foldl_resend port (List.range 4) (lanesLeft s port (setBit lanes lane false)) port).trans (status_lanesLeft s port (setBit lanes lane false))
    obtain ⟨htable, hparts⟩ := stores_foldl_resend port (List.range 4) (lanesLeft s port (setBit lanes lane false))
    obtain ⟨htable', hparts'⟩ := stores_lanesLeft s port (setBit lanes lane false)
    refine ⟨_, exec_laneFailure hup hlane hleft, ?_, ?_, htable.trans htable', hparts.trans hparts'⟩
    · rw [portUp, hstatus, bit63_withLanes]
      exact hup
    · rw [hstatus, lanes_withLanes]

end Sys2Proof.Machine

end


section

/-! SUPPORT. A takeover (R383, R390). -/

namespace Sys2Proof.Machine

open Sys2Proof

theorem tabGet_map {α : Type} (f : α → α) (k : Nat) (t : List (Nat × α)) : tabGet? k (t.map (fun q => (q.1, f q.2))) = (tabGet? k t).map f := by
  induction t with
  | nil => rfl
  | cons q r ih =>
    obtain ⟨j, v⟩ := q
    by_cases hj : k = j
    · subst hj
      simp [tabGet?]
    · simp only [List.map_cons, tabGet?, hj, if_false, ih]

/-! ## What a takeover does first -/

/-- A completion that waits for its delta no longer does. -/
def unheld (deg : Bool) (c : Completion × Option Nat) : Completion × Option Nat := match c.2 with | some _ => ({ c.1 with degraded := c.1.degraded || deg }, none) | none => c

/-- The ring with what waited for the partner released (R390). -/
def unheldRing (deg : Bool) (x : Ring) : Ring := { x with waiting := x.waiting.map (unheld deg) }

/-- The state once nothing waits for the partner. -/
def released (s : State) (deg : Bool) : State :=
  { s with pair := { s.pair with held := [], configs := [], pairWrites := [], sent := [] }, table := s.table.map (fun q => (q.1, { q.2 with confirmed := true })), parts := s.parts.map (fun q => (q.1, { q.2 with stir := true })), rings := s.rings.map (fun q => (q.1, unheldRing deg q.2)) }

/-- With nothing held and no partition, the release is all there is. -/
theorem releaseHeld_of_nothing {s : State} (deg : Bool) (hheld : s.pair.held = []) (hconfigs : s.pair.configs = []) (hwrites : s.pair.pairWrites = []) (hparts : s.parts = []) :
    releaseHeld s deg = released s deg := by
  have hidle : idleAll (released s deg) = released s deg := by
    have hnone : (released s deg).parts = [] := by
      show s.parts.map _ = []
      rw [hparts]
      rfl
    rw [idleAll, hnone]
    rfl
  unfold releaseHeld
  rw [hheld, hconfigs, hwrites]
  exact hidle

theorem getRing_released {s : State} (deg : Bool) {n : Nat} (hn : n < 8192) : getRing (released s deg) n = unheldRing deg (getRing s n) := by
  rw [getRing, getRing, if_pos hn, if_pos hn, tabGetD, tabGetD]
  show (tabGet? n (s.rings.map (fun q => (q.1, unheldRing deg q.2)))).getD {} = _
  rw [tabGet_map]
  cases tabGet? n s.rings <;> rfl

/-- A fenced mirror port (R383). -/
def mirrorFenced (q : FabPort) : FabPort := { q with status := setBit (downStatus q.status) 62 true }

theorem portFenced_mirrorFenced (q : FabPort) : portFenced (mirrorFenced q) = true := bit_setBit_self _ (by decide)

/-- The survivor with both mirror ports fenced, nothing logged yet (R383). -/
def survivor (s : State) : State :=
  modPort (modPort { s with pair := { s.pair with st := 5, portsUp := 0, shadow := noShadow, frozen := false, partnerAsleep := false, window := false } } 16 mirrorFenced) 17 mirrorFenced

/-- The takeover logged (R390). -/
def survivorLogged (s : State) : State := faultLog (survivor s) 12 0 0xFF 6 0 0xFFFF ((s.pair.partner.getD 0).setWidth 128)

/-- The completion that announces a takeover (R390). -/
def takenOver (s : State) (deg : Bool) : Completion := { seq := 0, status := stTAKEN, final := false, event := true, degraded := deg, detail := 0, handle := idHead (s.pair.partner.getD 0), result := 0, int := false }

theorem survivorLogged_frame (s : State) : { survivorLogged s with log := s.log, logNext := s.logNext, logLost := s.logLost } = survivor s :=
  (faultLog_frame (survivor s) 12 0 0xFF 6 0 0xFFFF ((s.pair.partner.getD 0).setWidth 128) :)

theorem survivorLogged_fields (s : State) : (survivorLogged s).pair = (survivor s).pair ∧ (survivorLogged s).fab = (survivor s).fab ∧ (survivorLogged s).parts = s.parts := by
  have hframe := survivorLogged_frame s
  generalize survivorLogged s = s1 at hframe ⊢
  exact ⟨(congrArg State.pair hframe :), (congrArg State.fab hframe :), (congrArg State.parts hframe :)⟩

theorem survivor_ports (s : State) : portFenced (getPort (survivor s) 16) = true ∧ portFenced (getPort (survivor s) 17) = true := by
  unfold survivor
  rw [getPort_modPort, if_neg (by decide), getPort_modPort, getPort_modPort, if_pos rfl, if_pos rfl]
  exact ⟨portFenced_mirrorFenced _, portFenced_mirrorFenced _⟩

/-- The announcement waits on the PF's completion ring. -/
def announced (s : State) : State :=
  modRing (survivorLogged s) 1 (fun x => { x with waiting := x.waiting ++ [(takenOver s (degraded (survivorLogged s)), none)] })

/-- The partner's rings as the survivor goes on with them (R386). -/
def adopting (s : State) (sh : Shadow) : State := { s with pair := { s.pair with adopted := adoptRings sh } }

theorem leapfrog_eq (s : State) : leapfrog s = idleAll (s.pair.shadow.commands.foldl (finishShadow s.pair.shadow) ((adoptOrder s.pair.shadow.requests).foldl (fun u q => adoptOne s.pair.shadow u q.2.1 q.2.2)
    (adopting (releaseHeld (enqueueCpl (survivorLogged s) 1 (takenOver s (degraded (survivorLogged s)))) false) s.pair.shadow))) := by
  unfold leapfrog adopting
  rfl

theorem leapfrog_of_nothing {s : State} (hrequests : s.pair.shadow.requests = []) (hcommands : s.pair.shadow.commands = []) (hheld : s.pair.held = []) (hconfigs : s.pair.configs = [])
    (hwrites : s.pair.pairWrites = []) (hparts : s.parts = []) :
    leapfrog s = { released (announced s) false with pair := { (released (announced s) false).pair with adopted := adoptRings s.pair.shadow } } := by
  obtain ⟨hpair, -, hnone⟩ := survivorLogged_fields s
  have halone : mirroring (survivorLogged s) = false := by rw [mirroring, hpair]; rfl
  have hcpl : enqueueCpl (survivorLogged s) 1 (takenOver s (degraded (survivorLogged s))) = announced s := enqueueCpl_of_alone halone 1 _
  have hannounced : (announced s).pair = (survivor s).pair ∧ (announced s).parts = s.parts := by
    rw [announced, modRing, if_pos (by decide)]
    exact ⟨hpair, hnone⟩
  have hrelease := releaseHeld_of_nothing (s := announced s) false (by rw [hannounced.1]; exact hheld) (by rw [hannounced.1]; exact hconfigs) (by rw [hannounced.1]; exact hwrites) (by rw [hannounced.2]; exact hparts)
  have hidle : ∀ u : State, u.parts = [] → idleAll u = u := fun u hu => by rw [idleAll, hu]; rfl
  rw [leapfrog_eq, hrequests, hcommands, hcpl, hrelease]
  refine hidle _ ?_
  show (announced s).parts.map _ = []
  rw [hannounced.2, hparts]
  rfl

/-- Settles O52: with nothing to adopt but rings, a takeover is its announcement. -/
theorem leapfrogAnnouncesItself : Obligations.LeapfrogAnnouncesItself := by
  unfold Obligations.LeapfrogAnnouncesItself
  intro s id hst hawake hfrozen halive hwire hclosed hid hrequests hcommands hheld hconfigs hwrites hparts
  obtain ⟨hpair, hfab, -⟩ := survivorLogged_fields s
  obtain ⟨hsixteen, hseventeen⟩ := survivor_ports s
  have hring : getRing (announced s) 1 = { getRing (survivorLogged s) 1 with waiting := (getRing (survivorLogged s) 1).waiting ++ [(takenOver s (degraded (survivorLogged s)), none)] } := by
    rw [announced, getRing_modRing, if_pos rfl]
  have hkept : (announced s).pair = (survivor s).pair ∧ (announced s).fab = (survivor s).fab := by
    rw [announced, modRing, if_pos (by decide)]
    exact ⟨hpair, hfab⟩
  have hport (p : Nat) : getPort (released (announced s) false) p = getPort (survivor s) p := congrArg (fun f : Fabric => tabGetD f.ports p {}) hkept.2
  refine ⟨_, takenOver s (degraded (survivorLogged s)), (exec_heartbeatMissed_static hst hawake hfrozen hclosed halive).trans (congrArg _ ((if_neg (by rw [hwire]; decide)).trans
    (leapfrog_of_nothing hrequests hcommands hheld hconfigs hwrites hparts))), ?_, ?_, ?_, rfl, ?_, ?_, ?_, rfl, rfl, rfl, ?_, List.length_map ..⟩
  · exact congrArg (fun e => e.st) hkept.1
  · exact congrArg (fun e => e.portsUp) hkept.1
  · exact congrArg (fun e => e.shadow) hkept.1
  · exact (congrArg portFenced (hport 16)).trans hsixteen
  · exact (congrArg portFenced (hport 17)).trans hseventeen
  · have hreleased := (getRing_released (s := announced s) false (n := 1) (by decide)).trans (congrArg (unheldRing false) hring)
    refine (congrArg (fun x => x.waiting.getLast?) hreleased).trans ?_
    show (List.map (unheld false) ((getRing (survivorLogged s) 1).waiting ++ [(takenOver s (degraded (survivorLogged s)), none)])).getLast? = _
    rw [List.map_append, List.map_singleton, List.getLast?_concat]
    rfl
  · show idHead (s.pair.partner.getD 0) = id.setWidth 64
    rw [hid]
    rfl

end Sys2Proof.Machine

end


section

/-! SUPPORT. What the request engine's work leaves alone: the fabric, the functions' registers, who the partner is, and what keeps a module from starting. -/

namespace Sys2Proof.Machine

open Sys2Proof

/-- What keeps a module from starting (R465, R466): lost packages, lost newts, a leak, heat, and VIN outside its window. -/
def guards (s : State) : BitVec 32 × BitVec 8 × Bool × Bool × Bool := (s.iod.lost, s.iod.newtsLost, s.pwr.leakNow, s.pwr.dieHot, s.pwr.vinOut)

/-- The fabric, the functions' registers, the pair's state and partner, and what keeps a module from starting. -/
def office (s : State) : Fabric × Tab Func × Nat × Option (BitVec 384) × BitVec 32 × BitVec 8 × Bool × Bool × Bool := (s.fab, s.funcs, s.pair.st, s.pair.partner, guards s)

theorem fab_of_office {s s' : State} (h : office s' = office s) : s'.fab = s.fab := congrArg (fun q => q.1) h
theorem funcs_of_office {s s' : State} (h : office s' = office s) : s'.funcs = s.funcs := congrArg (fun q => q.2.1) h

theorem office_foldl {α : Type} {f : State → α → State} (h : ∀ s a, office (f s a) = office s) (l : List α) (s : State) : office (l.foldl f s) = office s := by
  induction l generalizing s with
  | nil => rfl
  | cons a l ih => exact (ih (f s a)).trans (h s a)

theorem office_ite {c : Prop} [Decidable c] {a b s : State} (ha : office a = office s) (hb : office b = office s) : office (if c then a else b) = office s := by
  split
  · exact ha
  · exact hb

/-! ## Posts -/

@[simp] theorem office_setPart (s : State) (p : Nat) (x : Part) : office (setPart s p x) = office s := rfl
@[simp] theorem office_setEntry (s : State) (i : Nat) (e : Entry) : office (setEntry s i e) = office s := rfl
@[simp] theorem office_setTile (s : State) (t : Nat) (x : Tile) : office (setTile s t x) = office s := rfl
@[simp] theorem office_emit (s : State) (o : Out) : office (emit s o) = office s := rfl

@[simp] theorem office_modRing (s : State) (r : Nat) (f : Ring → Ring) : office (modRing s r f) = office s := by
  unfold modRing
  exact office_ite rfl rfl

@[simp] theorem office_sendDelta (s : State) (d : Delta) : office (sendDelta s d).1 = office s := by
  unfold sendDelta
  split <;> rfl

@[simp] theorem office_mirror (s : State) (d : Delta) : office (mirror s d) = office s := office_sendDelta s d

@[simp] theorem office_enqueueCpl (s : State) (r : Nat) (c : Completion) : office (enqueueCpl s r c) = office s := by
  unfold enqueueCpl
  exact (office_modRing ..).trans (office_sendDelta ..)

@[simp] theorem office_postCpl (s : State) (r : Nat) (p : Packet) (status : BitVec 16) (final event : Bool) (detail : BitVec 4) (result : BitVec 128) : office (postCpl s r p status final event detail result) = office s :=
  office_enqueueCpl ..

@[simp] theorem office_settleNops (s : State) (r : Nat) : office (settleNops s r) = office s := by
  unfold settleNops
  exact (office_foldl (fun s q => office_postCpl ..) _ _).trans (office_modRing ..)

@[simp] theorem office_commandDone (s : State) (r : Nat) (seq : BitVec 32) : office (commandDone s r seq) = office s := (office_settleNops ..).trans (office_modRing ..)

@[simp] theorem office_finish (s : State) (r : Nat) (p : Packet) (status : BitVec 16) (result : BitVec 128) : office (finish s r p status result) = office s :=
  (office_commandDone ..).trans (office_postCpl ..)

@[simp] theorem office_badParam (s : State) (r : Nat) (p : Packet) (field : Nat) : office (badParam s r p field) = office s := office_finish ..
@[simp] theorem office_notPermitted (s : State) (r : Nat) (p : Packet) : office (notPermitted s r p) = office s := office_finish ..

@[simp] theorem office_postReq (s : State) (e : Entry) (status : BitVec 16) (final event : Bool) (detail : BitVec 4) (result : BitVec 128) : office (postReq s e status final event detail result) = office s := by
  unfold postReq
  exact office_ite ((office_commandDone ..).trans (office_postCpl ..)) (office_postCpl ..)

@[simp] theorem office_postEvent (s : State) (e : Entry) (status : BitVec 16) : office (postEvent s e status) = office s := by
  unfold postEvent
  exact office_ite (office_postReq ..) rfl

@[simp] theorem office_postCancelled (s : State) (e : Entry) : office (postCancelled s e) = office s := by
  unfold postCancelled
  exact office_ite rfl (office_postReq ..)

@[simp] theorem office_finishPauses (s : State) (e : Entry) (status : BitVec 16) : office (finishPauses s e status) = office s := office_foldl (fun _ _ => office_finish ..) _ _

@[simp] theorem office_mirrorRing (s : State) (n : Nat) : office (mirrorRing s n) = office s := by
  unfold mirrorRing
  exact office_ite rfl (office_ite (office_mirror ..) (office_mirror ..))

/-! ## Entries and partitions -/

@[simp] theorem office_modPart (s : State) (p : Nat) (f : Part → Part) : office (modPart s p f) = office s := by
  unfold modPart
  split <;> rfl

@[simp] theorem office_setEntryM (s : State) (i : Nat) (e : Entry) : office (setEntryM s i e) = office s := office_mirror (setEntry s i e) _

@[simp] theorem office_modEntry (s : State) (i : Nat) (f : Entry → Entry) : office (modEntry s i f) = office s := by
  unfold modEntry
  split <;> rfl

@[simp] theorem office_partCtr (s : State) (p off n : Nat) : office (partCtr s p off n) = office s := office_modPart ..
@[simp] theorem office_stirPart (s : State) (p : Nat) : office (stirPart s p) = office s := office_modPart ..
@[simp] theorem office_returnPages (s : State) (p : Nat) (e : Entry) : office (returnPages s p e) = office s := office_modPart ..
@[simp] theorem office_modWaiting (s : State) (p i : Nat) (g : PourJob → PourJob) : office (modWaiting s p i g) = office s := office_modPart ..
@[simp] theorem office_settleLent (s : State) (p : Nat) : office (settleLent s p) = office s := office_modPart ..
@[simp] theorem office_dropPours (s : State) (p i : Nat) : office (dropPours s p i) = office s := office_modPart ..
@[simp] theorem office_putPairReg (s : State) (p o : Nat) (v : Word64) : office (putPairReg s p o v) = office s := office_modPart ..

@[simp] theorem office_orphanFlights (s : State) (p i : Nat) (e : Entry) : office (orphanFlights s p i e).1 = office s := by
  unfold orphanFlights
  split <;> rfl

@[simp] theorem office_sampleLeft (s : State) (p i : Nat) : office (sampleLeft s p i) = office s := by
  unfold sampleLeft
  split
  · split
    · exact office_modWaiting ..
    · rfl
  · rfl

@[simp] theorem office_pauseNow (s : State) (p i : Nat) : office (pauseNow s p i) = office s := by
  unfold pauseNow
  split
  · exact (office_finishPauses ..).trans ((office_setEntryM ..).trans ((office_returnPages ..).trans (office_sampleLeft ..)))
  · rfl

@[simp] theorem office_preemptNow (s : State) (p i : Nat) : office (preemptNow s p i) = office s := by
  unfold preemptNow
  split
  · simp
  · rfl

/-! ## Composition -/

theorem office_placeHead (img : Image) (cap : Nat) (x : Part) (c : Comp) (q : Nat × Nat × Nat) : office (placeHead img cap x c q).s = office c.s := by
  unfold placeHead
  split
  · rfl
  · dsimp only
    split
    · exact office_setEntryM ..
    · rfl

theorem office_placePrompt (img : Image) (cap : Nat) (x : Part) (c : Comp) (i : Nat) : office (placePrompt img cap x c i).s = office c.s := by
  unfold placePrompt
  split
  · rfl
  · dsimp only
    split
    · exact office_ite rfl (office_setEntryM ..)
    · exact office_setEntryM ..

theorem office_foldl_comp {α : Type} {f : Comp → α → Comp} (h : ∀ c a, office (f c a).s = office c.s) (l : List α) (c : Comp) : office (l.foldl f c).s = office c.s := by
  induction l generalizing c with
  | nil => rfl
  | cons a l ih => exact (ih (f c a)).trans (h c a)

@[simp] theorem office_composeOver (s : State) (p n : Nat) (x : Part) (img : Image) (z : Frozen) (at_ : Nat) : office (composeOver s p n x img z at_) = office s := by
  unfold composeOver
  extract_lets wants rpt cap c0 c1 c2 marks s1 s2 s3
  have hplaced : office c2.s = office s := (office_foldl_comp (office_placePrompt img cap x) _ c1).trans (office_foldl_comp (office_placeHead img cap x) _ c0)
  have hmarked : office s2 = office s := (office_foldl (fun _ _ => office_modEntry ..) _ _).trans ((office_modPart ..).trans hplaced)
  have hempty : office s3 = office s := (office_partCtr ..).trans ((office_modPart ..).trans hmarked)
  exact office_ite (office_ite ((office_foldl (fun _ _ => office_preemptNow ..) _ _).trans hempty) hempty) ((office_modPart ..).trans hmarked)

@[simp] theorem office_composeFrozen (s : State) (p : Nat) : office (composeFrozen s p) = office s := by
  unfold composeFrozen
  split
  · rfl
  · split
    · exact office_composeOver ..
    · rfl

@[simp] theorem office_pauseQueued (s : State) (p n : Nat) : office (pauseQueued s p n) = office s := office_foldl (fun _ _ => office_ite (office_pauseNow ..) rfl) _ _

@[simp] theorem office_promoteAll (s : State) (p : Nat) (x : Part) : office (promoteAll s p x) = office s :=
  office_foldl (fun _ _ => office_ite ((office_partCtr ..).trans (office_ite rfl (office_setEntryM ..))) rfl) _ _

@[simp] theorem office_freeze (s : State) (p : Nat) : office (freeze s p) = office s := by
  unfold freeze
  split
  · rfl
  · extract_lets s1 s2 s3
    have hpromoted : office s3 = office s := (office_promoteAll ..).trans ((office_modPart ..).trans (office_pauseQueued ..))
    split
    · exact office_ite hpromoted hpromoted
    · exact hpromoted

@[simp] theorem office_idleLoop (p k : Nat) (s : State) : office (idleLoop k s p) = office s := by
  induction k generalizing s with
  | zero => rfl
  | succ k ih =>
    unfold idleLoop
    split
    · rfl
    · exact office_ite ((ih _).trans ((office_composeFrozen ..).trans (office_freeze ..))) rfl

@[simp] theorem office_idleCompose (s : State) (p : Nat) : office (idleCompose s p) = office s := office_idleLoop ..
@[simp] theorem office_idleAll (s : State) : office (idleAll s) = office s := office_foldl (fun _ _ => office_idleCompose ..) _ _

/-! ## Entries that end -/

theorem office_undoOne (full : Bool) (p : Nat) (s : State) (u : Undo) : office (undoOne full p s u) = office s := by
  unfold undoOne
  split
  · rfl
  · exact office_ite (office_setEntryM ..) ((office_setEntryM ..).trans (office_modPart ..))

@[simp] theorem office_undoNext (s : State) (p : Nat) (full : Bool) : office (undoNext s p full) = office s := by
  unfold undoNext
  split
  · exact office_modPart ..
  · exact (office_modPart ..).trans ((office_foldl (fun _ _ => office_modEntry ..) _ _).trans (office_foldl (office_undoOne full p) _ _))

@[simp] theorem office_modTile (s : State) (t : Nat) (f : Tile → Tile) : office (modTile s t f) = office s := rfl
@[simp] theorem office_writeRowMaps (s : State) (p : Nat) (st : Steep) : office (writeRowMaps s p st) = office s := office_foldl (fun _ _ => office_modTile ..) _ _

@[simp] theorem office_dropDead (s : State) (p : Nat) : office (dropDead s p) = office s := by
  unfold dropDead
  split
  · split
    · exact office_ite ((office_stirPart ..).trans (office_undoNext ..)) rfl
    · rfl
  · rfl

@[simp] theorem office_killNext (s : State) (p i : Nat) : office (killNext s p i) = office s := by
  unfold killNext
  extract_lets s1
  have hleft : office s1 = office s := office_modPart ..
  split
  · split
    · exact (office_dropDead ..).trans (office_ite ((office_writeRowMaps ..).trans hleft) hleft)
    · exact hleft
  · exact hleft

@[simp] theorem office_settlePins (s : State) (n : Nat) : office (settlePins s n) = office s := by
  unfold settlePins
  split
  · rfl
  · exact office_foldl (fun _ _ => office_mirror ..) _ _

@[simp] theorem office_seatWaiting (s : State) : office (seatWaiting s) = office s := by
  unfold seatWaiting
  split
  · exact (office_stirPart ..).trans (office_setEntryM ..)
  · rfl

@[simp] theorem office_freeEntryAt (s : State) (i : Nat) : office (freeEntryAt s i) = office s := by
  unfold freeEntryAt
  split
  · rfl
  · exact (office_settlePins ..).trans ((office_seatWaiting ..).trans (office_mirror ..))

@[simp] theorem office_applyCancel (s : State) (p i : Nat) : office (applyCancel s p i) = office s := by
  unfold applyCancel
  split
  · rfl
  · next e _ =>
    have horphan := office_orphanFlights (returnPages (dropPours s p i) p e) p i e
    dsimp only
    generalize orphanFlights _ p i e = q at horphan ⊢
    obtain ⟨s1, flying⟩ := q
    dsimp only at horphan ⊢
    rw [apply_ite office]
    simp [horphan]

@[simp] theorem office_silentCancel (s : State) (p : Nat) (q : Nat × Entry) : office (silentCancel s p q) = office s := by
  unfold silentCancel
  dsimp only
  refine office_ite (by simp) (office_ite (by simp) ?_)
  split
  · exact office_ite ((office_applyCancel ..).trans (office_setEntryM ..)) (office_setEntryM ..)
  · exact office_setEntryM ..

/-! ## Commands held for the partner -/

@[simp] theorem office_admitRequest (s : State) (i : Nat) (f : ReqFields) : office (admitRequest s i f) = office s := by simp [admitRequest]

@[simp] theorem office_doSubmit (s : State) (ring : Nat) (p : Packet) : office (doSubmit s ring p) = office s := by
  unfold doSubmit
  dsimp only
  split
  · simp
  · refine office_ite (by simp) ?_
    split
    · simp
    · split
      · simp
      · split
        · simp
        · split <;> simp

@[simp] theorem office_doCancel (s : State) (ring : Nat) (p : Packet) : office (doCancel s ring p) = office s := by
  unfold doCancel
  dsimp only
  refine office_ite (by simp) ?_
  split
  · simp
  · split
    · refine office_ite (by simp) (office_ite ?_ (by simp))
      split
      · exact office_ite (by simp) (by simp)
      · simp
    · split
      · simp only [office_postReq, office_finish]
        rfl
      · simp

@[simp] theorem office_doSetPriority (s : State) (ring : Nat) (p : Packet) : office (doSetPriority s ring p) = office s := by
  unfold doSetPriority
  split
  · simp
  · refine office_ite (by simp) ?_
    split
    · exact office_ite (by simp) (by simp)
    · split
      · exact office_finish ..
      · simp

@[simp] theorem office_doNop (s : State) (ring : Nat) (p : Packet) : office (doNop s ring p) = office s := by
  unfold doNop
  split <;> simp

@[simp] theorem office_carryOut (s : State) (c : FwCmd) : office (carryOut s c) = office s := by
  unfold carryOut
  split
  · exact office_doSubmit ..
  · exact office_doCancel ..
  · exact office_doSetPriority ..
  · exact office_doNop ..
  · exact office_ite (office_finish ..) (office_modRing ..)

theorem office_modTiles (s : State) (l : List Nat) (f : Tile → Tile) : office (modTiles s l f) = office s := office_foldl (fun _ _ => office_modTile ..) _ _

theorem guards_settleDomains (s : State) : guards (settleDomains s) = guards s := by
  have hup (l : List Nat) : guards (domainsUp s l) = guards s := by
    have hframe := domainsUp_frame s l
    generalize domainsUp s l = s1 at hframe ⊢
    exact (congrArg guards hframe :)
  exact hup _

@[simp] theorem office_settleDomains (s : State) : office (settleDomains s) = office s := by
  have hframe := settleDomains_frame s
  have hguards := guards_settleDomains s
  generalize settleDomains s = s1 at hframe hguards ⊢
  have hrest := congrArg (fun e : State => (e.fab, e.funcs, e.pair.st, e.pair.partner)) hframe
  simp only [Prod.mk.injEq] at hrest
  obtain ⟨hfab, hfuncs, hst, hpartner⟩ := hrest
  simp only [office, hfab, hfuncs, hst, hpartner, hguards]

@[simp] theorem office_createNow (s : State) (ring : Nat) (p : Packet) : office (createNow s ring p) = office s := by
  have hcreated : office (createPart s (createArgs p)).1 = office s := by
    unfold createPart
    dsimp only
    rw [office_settleDomains]
    exact office_modTiles ..
  unfold createNow
  split
  · simp
  · refine office_ite (by simp) ?_
    generalize createPart s (createArgs p) = q at hcreated ⊢
    obtain ⟨s1, rb, pb⟩ := q
    exact (office_finish ..).trans hcreated

@[simp] theorem office_bindRing (s : State) (x : Part) (i t : Nat) : office (bindRing s x i t) = office s := by
  unfold bindRing
  exact office_ite rfl ((office_mirrorRing ..).trans (office_modRing ..))

@[simp] theorem office_setTenant (s : State) (n : Nat) (x : Part) (p : Packet) : office (setTenant s n x p) = office s := by
  unfold setTenant
  exact office_ite rfl ((office_bindRing ..).trans (office_bindRing ..))

@[simp] theorem office_tenantNow (s : State) (n ring : Nat) (p : Packet) : office (tenantNow s n ring p) = office s := by
  unfold tenantNow
  split
  · simp
  · split <;> simp

/-! ## The partner -/

/-- The pair's state and partner. -/
def partnership (s : State) : Nat × Option (BitVec 384) := (s.pair.st, s.pair.partner)

theorem partnership_of_office {s s' : State} (h : office s' = office s) : partnership s' = partnership s := congrArg (fun q => (q.2.2.1, q.2.2.2.1)) h

theorem partnership_destroyPart (s : State) (n : Nat) (x : Part) : partnership (destroyPart s n x) = partnership s := by
  have htiles := office_modTiles { s with iod := { s.iod with caddy := s.iod.caddy.filter (fun k => decide (k.part ≠ n)) } } (maskTiles x.tileMask) tileClear
  refine (partnership_of_office ((office_settleDomains ..).trans (office_foldl (fun _ _ => office_emit ..) _ _))).trans ?_
  exact (partnership_of_office htiles : _)

theorem partnership_keepCounts (s : State) (x : Part) (old : Tab Ring) : partnership (keepCounts s x old) = partnership s := rfl

theorem partnership_destroyNow (s : State) (ring : Nat) (p : Packet) : partnership (destroyNow s ring p) = partnership s := by
  unfold destroyNow
  split
  · exact partnership_of_office (office_badParam ..)
  · split
    · exact partnership_of_office (office_notPermitted ..)
    · exact (partnership_of_office (office_finish ..)).trans ((partnership_keepCounts ..).trans (partnership_destroyPart ..))

theorem partnership_foldl {α : Type} {f : State → α → State} (h : ∀ s a, partnership (f s a) = partnership s) (l : List α) (s : State) : partnership (l.foldl f s) = partnership s := by
  induction l generalizing s with
  | nil => rfl
  | cons a l ih => exact (ih (f s a)).trans (h s a)

/-- What was held for the partner is carried out without it, whoever it is (R381). -/
theorem partnership_releaseHeld (s : State) (deg : Bool) : partnership (releaseHeld s deg) = partnership s := by
  unfold releaseHeld
  refine (partnership_of_office (office_idleAll ..)).trans ((partnership_of_office (office_foldl (fun _ _ => office_carryOut ..) _ _)).trans ((partnership_foldl (fun u q => ?_) _ _).trans
    (partnership_of_office (office_foldl (fun _ _ => office_putPairReg ..) _ _))))
  split
  · exact partnership_of_office (office_createNow ..)
  · exact partnership_destroyNow ..
  · exact partnership_of_office (office_tenantNow ..)

end Sys2Proof.Machine

end


section

/-! SUPPORT. What firmware carries out for the pair, and how a bind ends (R315, R371, R372, R374, R381). -/

namespace Sys2Proof.Machine

open Sys2Proof

section
variable {s : State} {c : FwCmd}

theorem runFirmware_pairBind {b : BindInput} (h : c.opcode = 0x50) (hin : c.input = .bind b) : runFirmware s c = doPairBind s c.ring c.p b := by rw [runFirmware, h, hin]; rfl
theorem runFirmware_pairUnbind (h : c.opcode = 0x51) : runFirmware s c = doPairUnbind s c.ring c.p := by rw [runFirmware, h]; rfl
theorem runFirmware_pairStatus (h : c.opcode = 0x52) : runFirmware s c = doPairStatus s c.ring c.p := by rw [runFirmware, h]; rfl

end

section
variable {s : State} {ring : Nat} {p : Packet}

theorem doPairBind_waits (hst : s.pair.st = 0) :
    doPairBind s ring p .waiting = emit { s with pair := { s.pair with st := 1, bindCmd := some (ring, p, p.params) } } (.pairAuth Config.identityHash) := if_neg (fun h => h hst)

theorem doPairBind_refused (b : BindInput) (hst : s.pair.st ≠ 0) : doPairBind s ring p b = notPermitted s ring p := if_pos hst

theorem doPairUnbind_alone (hp : paramsOk p []) (hst : s.pair.st < 2) : doPairUnbind s ring p = finish s ring p 0 0 := by
  unfold doPairUnbind
  rw [show noParams p = none from hp]
  exact if_pos hst

/-- What PAIR_STATUS reports (R315). -/
def pairReport (s : State) : BitVec 128 :=
  BitVec.ofNat 128 (resAt 16 s.pair.st + resAt 17 s.pair.rank + resAt 18 s.pair.aliveIn + resAt 19 s.pair.mirrorPort + resAt 24 ((s.pair.partner.map idHead).getD 0).toNat)

theorem doPairStatus_ok (hp : paramsOk p []) : doPairStatus s ring p = finish s ring p (if s.pair.st = 3 then 0x0501 else 0) (pairReport s) := by
  unfold doPairStatus
  rw [show noParams p = none from hp]
  rfl

theorem pairReport_fields (hst : s.pair.st < 8) (hrank : s.pair.rank < 2) (halive : s.pair.aliveIn < 4) (hport : s.pair.mirrorPort < 2) :
    bits (pairReport s) 7 0 = s.pair.st ∧ bits (pairReport s) 15 8 = s.pair.rank ∧ bits (pairReport s) 23 16 = s.pair.aliveIn ∧ bits (pairReport s) 31 24 = s.pair.mirrorPort := by
  have hid := ((s.pair.partner.map idHead).getD 0).isLt
  unfold pairReport bits resAt
  simp only [BitVec.toNat_ofNat, Nat.shiftLeft_eq, Nat.shiftRight_eq_div_pow]
  generalize ((s.pair.partner.map idHead).getD 0).toNat = v at hid ⊢
  omega

/-! ## The end of a bind -/

section
variable {id : BitVec 384} (hst : s.pair.st = 1) (hcmd : s.pair.bindCmd = some (ring, p, id))
include hst hcmd

theorem endBind_of_binding (st : BitVec 16) (v : Nat) : endBind s st v = finish { s with pair := { s.pair with bindCmd := none, st := 0 } } ring p st (BitVec.ofNat 128 v) := by
  unfold endBind
  rw [hcmd]
  dsimp only
  rw [if_pos hst]

theorem exec_pairBindTimeout : exec .pairBindTimeout s = .next (finish { s with pair := { s.pair with bindCmd := none, st := 0 } } ring p 0x0401 0) :=
  congrArg Host.Outcome.next ((if_pos hst).trans (endBind_of_binding hst hcmd stFAULT 0))

/-- Another module than the one named (R371). -/
theorem exec_pairReauth_other {port : Fin 2} {cert : BitVec 384} {ok : Bool} {cfg : PairConfig} {bad : Option (BitVec 16 × Nat)} (hcert : cert ≠ id) :
    exec (.pairReauth port (.partner cert ok cfg bad)) s = .next (finish { s with pair := { s.pair with bindCmd := none, st := 0 } } ring p 0x0201 16) := by
  show execPairReauth port (.partner cert ok cfg bad) s = _
  unfold execPairReauth
  dsimp only
  rw [if_pos hst, resolveBind, hcmd]
  dsimp only
  rw [if_pos hcert, endBind_of_binding hst hcmd]
  rfl

/-- The partner ends the exchange (R371). -/
theorem exec_pairReauth_refused {port : Fin 2} {cfg : PairConfig} {bad : Option (BitVec 16 × Nat)} :
    exec (.pairReauth port (.partner id false cfg bad)) s = .next (finish { s with pair := { s.pair with bindCmd := none, st := 0 } } ring p 0x0401 0) := by
  show execPairReauth port (.partner id false cfg bad) s = _
  unfold execPairReauth
  dsimp only
  rw [if_pos hst, resolveBind, hcmd]
  dsimp only
  rw [if_neg (fun h => h rfl), if_pos (by decide), endBind_of_binding hst hcmd]
  rfl

end

/-- A certificate that is not the pinned one (R374). -/
theorem exec_pairReauth_stranger {port : Fin 2} {id cert : BitVec 384} {ok : Bool} {cfg : PairConfig} {bad : Option (BitVec 16 × Nat)} (hpartner : s.pair.partner = some id) (hcert : cert ≠ id)
    (hst : s.pair.st = 2 ∨ s.pair.st = 3) : exec (.pairReauth port (.partner cert ok cfg bad)) s = .next (goStranger s cert) := by
  show execPairReauth port (.partner cert ok cfg bad) s = _
  unfold execPairReauth
  dsimp only
  rw [if_neg (by omega), hpartner]
  dsimp only
  rw [if_neg (by omega), if_pos hcert]

theorem partnership_goStranger (s : State) (cert : BitVec 384) : partnership (goStranger s cert) = (4, s.pair.partner) := by
  have hlog := faultLog_frame { s with pair := { s.pair with st := 4, shadow := noShadow, frozen := false, partnerAsleep := false, window := false } } 15 0 0xFF 0 0 0xFFFF (cert.setWidth 128)
  unfold goStranger
  dsimp only
  generalize faultLog _ _ _ _ _ _ _ _ = s1 at hlog ⊢
  exact (partnership_releaseHeld s1 true).trans (congrArg partnership hlog : _)

end

/-- Settles O38: PAIR_BIND, PAIR_UNBIND and PAIR_STATUS, how a bind ends, and the STRANGER. -/
theorem pairCommandsTakeEffect : Obligations.PairCommandsTakeEffect := by
  unfold Obligations.PairCommandsTakeEffect
  refine ⟨?_, ?_, ?_⟩
  · intro s c rest hfront s1
    refine ⟨fun hop hin hst => ?_, fun hop b hin hst => ?_, fun hop hp hst => ?_, fun hop hp => ⟨pairReport s, ?_, pairReport_fields⟩⟩
    · exact hfront.exec.trans (congrArg _ ((runFirmware_pairBind hop hin).trans (doPairBind_waits (s := s1) hst)))
    · exact hfront.exec.trans (congrArg _ ((runFirmware_pairBind hop hin).trans (doPairBind_refused (s := s1) b hst)))
    · exact hfront.exec.trans (congrArg _ ((runFirmware_pairUnbind hop).trans (doPairUnbind_alone (s := s1) hp hst)))
    · exact hfront.exec.trans (congrArg _ ((runFirmware_pairStatus hop).trans (doPairStatus_ok (s := s1) hp)))
  · intro s ring p id hst hcmd s0
    exact ⟨exec_pairBindTimeout hst hcmd, fun port cert ok cfg bad hcert => exec_pairReauth_other hst hcmd hcert, fun port cfg bad => exec_pairReauth_refused hst hcmd⟩
  · intro s port id cert ok cfg bad hpartner hcert hst
    have hkept := partnership_goStranger s cert
    exact ⟨_, exec_pairReauth_stranger hpartner hcert hst, congrArg Prod.fst hkept, (congrArg Prod.snd hkept).trans hpartner⟩

end Sys2Proof.Machine

end

section

/-! SUPPORT. Records of the fabric, the sums that form a group, and the slowest rank (R358, R365, R369, R370). -/

namespace Sys2Proof.Machine

open Sys2Proof

/-! ## A record at its region -/

/-- The claim by which a record takes the next place of a region, to write it or to read it (R365). -/
def regionClaim (t : Fin 64) (x : Tile) (e : Nat) (writer : Bool) : Claim :=
  { entry := e, index := 0, opnd := 0, circ := true, writer := writer, remote := true, who := t, op := x.nextOp, taken := false }

/-- Where in the scratchpad the record a claim takes lies (R166). -/
def recordPlace (x : Tile) (m : MapEntry) (c : Claim) : Nat := entBase m + (takeClaim x c).2.index % max 1 m.count.toNat * entRec m

theorem spad_takeClaim (x : Tile) (c : Claim) : (takeClaim x c).1.spad = x.spad := (congrArg Tile.spad (takeClaim_frame x c) :)
theorem ctx_takeClaim (x : Tile) (c : Claim) : (takeClaim x c).1.ctx = x.ctx := (congrArg Tile.ctx (takeClaim_frame x c) :)

theorem chargeWait_frame (s : State) (g : Nat) (q : Group) (x : Tile) (e tag slow : Nat) : { chargeWait s g q x e tag slow with fab := s.fab } = s := by
  unfold chargeWait
  split
  · split <;> rfl
  · rfl

theorem tiles_chargeWait (s : State) (g : Nat) (q : Group) (x : Tile) (e tag slow : Nat) : (chargeWait s g q x e tag slow).tiles = s.tiles := (congrArg State.tiles (chargeWait_frame s g q x e tag slow) :)
theorem parts_chargeWait (s : State) (g : Nat) (q : Group) (x : Tile) (e tag slow : Nat) : (chargeWait s g q x e tag slow).parts = s.parts := (congrArg State.parts (chargeWait_frame s g q x e tag slow) :)

/-- The tile in whose receive region a record stands. -/
def delivered (t : Fin 64) (x : Tile) (e : Nat) (m : MapEntry) (b : List Byte) : Tile :=
  completeClaim { spadPut (takeClaim x (regionClaim t x e true)).1 (recordPlace x m (regionClaim t x e true)) b with nextOp := x.nextOp + 1 } (takeClaim x (regionClaim t x e true)).2

section
variable (t : Fin 64) (x : Tile) (e : Nat) (m : MapEntry) (b : List Byte)

theorem spad_delivered : (delivered t x e m b).spad = writeBytes x.spad (recordPlace x m (regionClaim t x e true)) b := by
  have hdone : (delivered t x e m b).spad = writeBytes (takeClaim x (regionClaim t x e true)).1.spad (recordPlace x m (regionClaim t x e true)) b :=
    (congrArg Tile.spad (completesOnly_completeClaim ..) :)
  rw [hdone, spad_takeClaim]

theorem ctx_delivered : (delivered t x e m b).ctx = x.ctx :=
  (congrArg Tile.ctx (completesOnly_completeClaim ..) :).trans (ctx_takeClaim ..)

end

section
variable {s : State} {t : Fin 64} {p : Nat} {part : Part} {g : Group} {img : Image} {e : Nat} {m : MapEntry}

/-- A record for a region of a running partition waits while the region is full, and else stands in its place. -/
theorem exec_fabricRecordDeliver {b : List Byte} (hp : partOfTile s t = some p) (hpart : getPart? s p = some part) (himg : part.image = some img) (hg : tabGet? (recLE b 3 1) s.fab.groups = some g)
    (he : regionAt (getTile s t) (recLE b 4 2) = some e) (hm : (getTile s t).map[e]? = some m) (hphase : part.phase ≠ .none) (hgp : g.part = p) (hst : g.st = .active)
    (hrank : recLE b 0 2 = g.rank) (hidx : recLE b 2 1 = tileIndex part t)
    (hfed : ∃ r ∈ img.collRegions, r.send = false ∧ r.tile = tileIndex part t ∧ r.base.toNat = recLE b 4 2 ∧ r.srcRank = recLE b 16 2 ∧ r.srcTile = recLE b 18 1)
    (hlen : b.length = 64 + recLE b 8 4) (hfit : b.length ≤ entRec m) :
    exec (.fabricRecordDeliver t b) s = .next (if canClaim (getTile s t) (regionClaim t (getTile s t) e true) = true then
      setTile (chargeWait s (recLE b 3 1) g (getTile s t) e (recLE b 12 4) (recLE b 20 2)) t (delivered t (getTile s t) e m b) else s) := by
  have hany : img.collRegions.any (fun r => !r.send && decide (r.tile = tileIndex part t) && decide (r.base.toNat = recLE b 4 2) && decide (r.srcRank = recLE b 16 2) && decide (r.srcTile = recLE b 18 1)) = true := by
    obtain ⟨r, hr, hsend, htile, hbase, hsr, hst⟩ := hfed
    exact List.any_eq_true.2 ⟨r, hr, by simp [hsend, htile, hbase, hsr, hst]⟩
  show execFabricRecordDeliver t b s = _
  unfold execFabricRecordDeliver
  rw [hp]
  dsimp only
  rw [hpart, hg]
  dsimp only
  rw [himg, he]
  dsimp only
  rw [hany]
  by_cases hcan : canClaim (getTile s t) (regionClaim t (getTile s t) e true) = true
  · rw [if_pos hcan]
    have hopen : ¬(part.phase = .none ∨ g.part ≠ p ∨ g.st ≠ .active ∨ recLE b 0 2 ≠ g.rank ∨ recLE b 2 1 ≠ tileIndex part t ∨ (!true) = true ∨ b.length ≠ 64 + recLE b 8 4 ∨
        (!canClaim (getTile s t) (regionClaim t (getTile s t) e true)) = true) := by
      rw [hcan]
      simp [hphase, hgp, hst, hrank, hidx, ← hlen]
    refine (if_neg hopen).trans ?_
    rw [hm]
    dsimp only
    rw [if_neg (Nat.not_lt.2 hfit)]
    rfl
  · rw [if_neg hcan]
    exact if_pos (.inr (.inr (.inr (.inr (.inr (.inr (.inr (by rw [Bool.not_eq_true] at hcan; exact congrArg not hcan))))))))

end

/-! ## A record that leaves -/

/-- The record as it leaves: the sender's rank and tile, and the rank it waited for, stand in its header (R365, R369). -/
def sentRecord (spad : SMap 8) (a : Nat) (q : Group) (idx : Nat) : List Byte :=
  (readBytes spad a 64).take 16 ++ natToBytes 2 q.rank ++ natToBytes 1 idx ++ [0] ++ natToBytes 2 (slowRank q (recLE (readBytes spad a 64) 12 4)) ++ List.replicate 42 0 ++
    readBytes spad (a + 64) (recLE (readBytes spad a 64) 8 4)

section
variable (spad : SMap 8) (a : Nat) (q : Group) (idx : Nat)

theorem length_header : ((readBytes spad a 64).take 16).length = 16 := by rw [List.length_take, readBytes_length]; rfl

theorem take_sentRecord : (sentRecord spad a q idx).take 16 = (readBytes spad a 64).take 16 := by
  unfold sentRecord
  simp only [List.append_assoc]
  exact List.take_left' (length_header spad a)

theorem drop_sentRecord : (sentRecord spad a q idx).drop 64 = readBytes spad (a + 64) (recLE (readBytes spad a 64) 8 4) := by
  unfold sentRecord
  refine List.drop_left' ?_
  simp only [List.length_append, length_header, natToBytes_length, List.length_replicate, List.length_cons, List.length_nil]

theorem length_sentRecord : (sentRecord spad a q idx).length = 64 + recLE (readBytes spad a 64) 8 4 := by
  have h := congrArg List.length (drop_sentRecord spad a q idx)
  rw [List.length_drop, readBytes_length] at h
  have hhead : 64 ≤ (sentRecord spad a q idx).length := by
    unfold sentRecord
    simp only [List.length_append, length_header, natToBytes_length, List.length_replicate, List.length_cons, List.length_nil]
    omega
  omega

/-- A field within the first 16 bytes is the one the tile wrote. -/
theorem recLE_sentRecord {off n : Nat} (h : off + n ≤ 16) : recLE (sentRecord spad a q idx) off n = recLE (readBytes spad a 64) off n := by
  have hfield (l : List Byte) : (l.drop off).take n = ((l.take 16).drop off).take n := by rw [List.drop_take, List.take_take, Nat.min_eq_left (by omega)]
  unfold recLE
  rw [hfield, take_sentRecord, ← hfield]

theorem rank_sentRecord : recLE (sentRecord spad a q idx) 16 2 = q.rank % 2 ^ 16 := by
  have hfield : ((sentRecord spad a q idx).drop 16).take 2 = natToBytes 2 q.rank := by
    unfold sentRecord
    simp only [List.append_assoc]
    rw [List.drop_left' (length_header spad a)]
    exact List.take_left' (natToBytes_length ..)
  rw [recLE, hfield, bytesToNat_natToBytes]
  rfl

theorem tile_sentRecord : recLE (sentRecord spad a q idx) 18 1 = idx % 256 := by
  have hfield : ((sentRecord spad a q idx).drop 18).take 1 = natToBytes 1 idx := by
    unfold sentRecord
    rw [show ∀ b c d e f g h : List Byte, b ++ c ++ d ++ e ++ f ++ g ++ h = (b ++ c) ++ (d ++ (e ++ f ++ g ++ h)) by simp,
      List.drop_left' (by rw [List.length_append, length_header, natToBytes_length])]
    exact List.take_left' (natToBytes_length ..)
  rw [recLE, hfield, bytesToNat_natToBytes]
  rfl

end

/-- The tile whose send region a record has left, its claim taken. -/
def sentTile (t : Fin 64) (x : Tile) (e : Nat) (l : List (Nat × Nat)) : Tile :=
  correctReads { (takeClaim x (regionClaim t x e false)).1 with claims := (takeClaim x (regionClaim t x e false)).1.claims ++ [(takeClaim x (regionClaim t x e false)).2], nextOp := x.nextOp + 1 } l

theorem spad_sentTile (t : Fin 64) (x : Tile) (e : Nat) (l : List (Nat × Nat)) : (sentTile t x e l).spad = x.spad := spad_takeClaim ..

section
variable {s : State} {t : Fin 64} {p : Nat} {part : Part} {g : Group} {img : Image} {e : Nat} {m : MapEntry} {base : BitVec 16}

/-- A record that may be sent is launched as it leaves. -/
theorem exec_fabricRecordSend {a : Nat} (hp : partOfTile s t = some p) (hpart : getPart? s p = some part) (himg : part.image = some img) (hphase : part.phase ≠ .none)
    (he : regionAt (getTile s t) base.toNat = some e) (hm : (getTile s t).map[e]? = some m) (hregion : ∃ r ∈ img.collRegions, r.send = true ∧ r.tile = tileIndex part t ∧ r.base = base)
    (ha : a = recordPlace (getTile s t) m (regionClaim t (getTile s t) e false)) (hcan : canClaim (getTile s t) (regionClaim t (getTile s t) e false) = true)
    (hhead : poisoned (getTile s t) [(a, 64)] = none) (hclean : poisoned (getTile s t) [(a, 64 + recLE (readBytes (getTile s t).spad a 64) 8 4)] = none)
    (hmay : recordRefused s p (tileIndex part t) img (entRec m) (readBytes (getTile s t).spad a 64) = false)
    (hg : tabGet? (recLE (readBytes (getTile s t).spad a 64) 3 1) s.fab.groups = some g) (hrank : recLE (readBytes (getTile s t).spad a 64) 0 2 = g.rank) :
    exec (.fabricRecordSend t base) s = .next (launch (setTile s t (sentTile t (getTile s t) e [(a, 64 + recLE (readBytes (getTile s t).spad a 64) 8 4)])) t (getTile s t).nextOp g
      (sentRecord (getTile s t).spad a g (tileIndex part t))) := by
  have hany : img.collRegions.any (fun r => r.send && decide (r.tile = tileIndex part t) && r.base = base) = true := by
    obtain ⟨r, hr, hsend, htile, hbase⟩ := hregion
    exact List.any_eq_true.2 ⟨r, hr, by simp [hsend, htile, hbase]⟩
  have hopen : ¬(part.phase = .none ∨ (!canClaim (getTile s t) (regionClaim t (getTile s t) e false)) = true ∨ (!true) = true) := by
    rw [hcan]
    simp [hphase]
  show execFabricRecordSend t base s = _
  unfold execFabricRecordSend
  rw [hp]
  dsimp only
  rw [hpart]
  dsimp only
  rw [himg, he]
  dsimp only
  rw [hany]
  refine (if_neg hopen).trans ?_
  rw [hm]
  dsimp only
  rw [show entBase m + (takeClaim (getTile s t) { entry := e, index := 0, opnd := 0, circ := true, writer := false, remote := true, who := t, op := (getTile s t).nextOp, taken := false }).2.index %
    max 1 m.count.toNat * entRec m = a from ha.symm, hhead]
  dsimp only
  rw [hmay, if_neg (by decide), hclean, hg]
  dsimp only
  rw [if_neg (fun h => h.1 hrank), Nat.add_sub_cancel_left]
  rfl

/-- A record for this module is sent at once, and its claim is done. -/
theorem launch_here (s : State) (t op : Nat) {q : Group} {b : List Byte} (h : recLE b 0 2 = q.rank) :
    launch s t op q b = modTile (emit s (.collective (recLE b 3 1) (recLE b 0 2) b)) t (fun x => completeOp x op) := if_pos (.inl h)

theorem spad_completeOp (x : Tile) (op : Nat) : (completeOp x op).spad = x.spad := (congrArg Tile.spad (completesOnly_completeOp x op) :)

end

/-! ## The sums of a forming group -/

section
variable {s : State} {g : Fin 16} {q : Group}

theorem exec_inPassingReduction_early (hq : tabGet? g s.fab.groups = some q) (hst : q.st ≠ .active) {joined : Nat} (sums : List Word32) (h : min joined q.list.members < q.list.members) :
    exec (.inPassingReduction g joined sums) s = .next { s with fab := { s.fab with groups := tabInsert g.val { q with joined := min joined q.list.members } s.fab.groups } } := by
  show execInPassingReduction g joined sums s = _
  unfold execInPassingReduction
  rw [hq]
  dsimp only
  rw [if_neg hst, if_pos (.inl h)]

/-- The commands that end with a group leave the fabric as it is. -/
theorem office_freeGroup (s : State) (g : Nat) (q : Group) : office (freeGroup s g q) = office { s with fab := { s.fab with groups := tabErase g s.fab.groups } } := by
  have hemit : office (emit { s with fab := { s.fab with groups := tabErase g s.fab.groups } } (.groupMsg g 4 0)) = office { s with fab := { s.fab with groups := tabErase g s.fab.groups } } := rfl
  unfold freeGroup
  dsimp only
  cases q.cmd with
  | none =>
    cases q.endCmd with
    | none => exact hemit
    | some d => exact (office_finish ..).trans hemit
  | some c =>
    cases q.endCmd with
    | none => exact (office_finish ..).trans hemit
    | some d => exact (office_finish ..).trans ((office_finish ..).trans hemit)

theorem groups_freeGroup (s : State) (g : Nat) (q : Group) : (freeGroup s g q).fab.groups = tabErase g s.fab.groups := congrArg Fabric.groups (fab_of_office (office_freeGroup s g q))

/-- Sums that agree make the group ACTIVE. -/
theorem exec_inPassingReduction_equal (hq : tabGet? g s.fab.groups = some q) (hst : q.st ≠ .active) {joined : Nat} {sums : List Word32} (hjoin : q.list.members ≤ joined)
    (hlen : sums.length = 104) (hbad : unequalBytes q.list.members sums = []) :
    ∃ s', exec (.inPassingReduction g joined sums) s = .next s' ∧
      tabGet? g s'.fab.groups = some { q with joined := q.list.members, st := .active, cmd := none, brokenRank := 0xFFFF, waits := [], tagWaits := [] } := by
  have hmin : min joined q.list.members = q.list.members := Nat.min_eq_right hjoin
  apply Exists.intro
  apply And.intro
  · show execInPassingReduction g joined sums s = _
    unfold execInPassingReduction
    rw [hq]
    dsimp only
    rw [if_neg hst, hmin, if_neg (by simp [hlen]), hbad, if_pos rfl]
  · rw [fab_of_office (office_idleCompose ..)]
    cases q.cmd with
    | none => exact tabGet_insert_self ..
    | some c => exact (congrArg (fun f : Fabric => tabGet? g.val f.groups) (fab_of_office (office_finish ..))).trans (tabGet_insert_self ..)

/-- Sums that differ free it. -/
theorem exec_inPassingReduction_unequal (hq : tabGet? g s.fab.groups = some q) (hst : q.st ≠ .active) {joined : Nat} {sums : List Word32} (hjoin : q.list.members ≤ joined)
    (hlen : sums.length = 104) (hbad : unequalBytes q.list.members sums ≠ []) :
    ∃ s', exec (.inPassingReduction g joined sums) s = .next s' ∧ tabGet? g s'.fab.groups = none := by
  have hmin : min joined q.list.members = q.list.members := Nat.min_eq_right hjoin
  apply Exists.intro
  apply And.intro
  · show execInPassingReduction g joined sums s = _
    unfold execInPassingReduction
    rw [hq]
    dsimp only
    rw [if_neg hst, hmin, if_neg (by simp [hlen]), if_neg hbad]
  · rw [groups_freeGroup]
    exact tabGet_erase_self ..

end

/-! ## The slowest rank -/

/-- The rank with the largest wait, the lower one on a tie (R369). -/
def slowest (l : List (Nat × Nat)) (a : Nat × Nat) : Nat × Nat := l.foldl (fun a t => if a.2 < t.2 then t else a) a

/-- No wait is above that of the slowest rank. -/
theorem wait_le_slowest (l : List (Nat × Nat)) (a : Nat × Nat) : a.2 ≤ (slowest l a).2 ∧ ∀ w ∈ l, w.2 ≤ (slowest l a).2 := by
  induction l generalizing a with
  | nil => exact ⟨Nat.le_refl _, fun w h => absurd h (List.not_mem_nil)⟩
  | cons t r ih =>
    obtain ⟨hstart, hrest⟩ := ih (if a.2 < t.2 then t else a)
    have hmax : a.2 ≤ (if a.2 < t.2 then t else a).2 ∧ t.2 ≤ (if a.2 < t.2 then t else a).2 := by split <;> omega
    refine ⟨hmax.1.trans hstart, fun w hw => ?_⟩
    rcases List.mem_cons.1 hw with rfl | hw
    · exact hmax.2.trans hstart
    · exact hrest w hw

/-- The waits of the members, with the totals of the others added (R369). -/
def allWaits (q : Group) (totals : List (Nat × Nat)) : List (Nat × Nat) := totals.foldl (fun m t => if t.1 < q.list.members then addWait m t.1 t.2 else m) q.waits

theorem exec_lagExchangeTimer {s : State} {g : Fin 16} {q : Group} (totals : List (Nat × Nat)) (hq : tabGet? g s.fab.groups = some q) (hst : q.st = .active) :
    exec (.lagExchangeTimer g totals) s = .next (emits { s with fab := { s.fab with groups := tabInsert g.val { q with slowest := (slowest (allWaits q totals) (0, 0)).1, slowestNs := (slowest (allWaits q totals) (0, 0)).2 } s.fab.groups } }
      (q.waits.map (fun t => .groupMsg g (16 + t.1) t.2))) := by
  show execLagExchangeTimer g totals s = _
  unfold execLagExchangeTimer
  rw [hq]
  dsimp only
  rw [if_neg (not_not.2 hst)]
  rfl

/-- Settles O48: a record takes the next place of its region, the record sent is the tile's with the sender in its header, the sums free the group or make it ACTIVE, and the slowest rank is the largest of the waits. -/
theorem fabricRecords : Obligations.FabricRecords := by
  unfold Obligations.FabricRecords
  refine ⟨?_, ?_, ?_, ?_⟩
  · intro s t b p part g img e m hp hpart himg hg he hm hphase hgp hst hrank hidx hfed hlen hfit x c a
    have hexec := exec_fabricRecordDeliver hp hpart himg hg he hm hphase hgp hst hrank hidx hfed hlen hfit
    refine ⟨fun hcan => ⟨_, hexec.trans (congrArg Host.Outcome.next (if_pos hcan)), fun u hu => ?_, fun k => ?_, ?_, ?_⟩,
      fun hcan => hexec.trans (congrArg Host.Outcome.next (if_neg (fun h => Bool.false_ne_true (hcan.symm.trans h))))⟩
    · rw [getTile_setTile, if_neg hu]
      exact congrArg (fun l : Tab Tile => tabGetD l u {}) (tiles_chargeWait ..)
    · rw [getTile_setTile, if_pos rfl, spad_delivered, smGet_writeBytes]
      rfl
    · rw [getTile_setTile, if_pos rfl, ctx_delivered]
    · exact parts_chargeWait ..
  · intro s t base p part img e m g hp hpart himg hphase he hm hregion x c a h hcan hhead hclean hmay hg hrank
    have hdst : recLE (sentRecord x.spad a g (tileIndex part t)) 0 2 = recLE h 0 2 := recLE_sentRecord _ _ _ _ (by decide)
    have hgroup : recLE (sentRecord x.spad a g (tileIndex part t)) 3 1 = recLE h 3 1 := recLE_sentRecord _ _ _ _ (by decide)
    refine ⟨_, sentRecord x.spad a g (tileIndex part t), exec_fabricRecordSend hp hpart himg hphase he hm hregion rfl hcan hhead hclean hmay hg hrank, ?_, length_sentRecord .., take_sentRecord ..,
      rank_sentRecord .., tile_sentRecord .., drop_sentRecord .., ?_⟩
    · refine (congrArg State.out (launch_here _ _ _ (hdst.trans hrank))).trans ?_
      rw [← hdst, ← hgroup]
      rfl
    · refine (congrArg (fun e : State => (getTile e t).spad) (launch_here _ _ _ (hdst.trans hrank))).trans ?_
      rw [getTile_modTile, if_pos rfl, spad_completeOp]
      exact (congrArg Tile.spad ((getTile_setTile ..).trans (if_pos rfl))).trans (spad_sentTile ..)
  · intro s g q hq hst
    refine ⟨fun joined sums h => exec_inPassingReduction_early hq hst sums h, fun joined sums hjoin hlen hbad => ?_, fun joined sums hjoin hlen hbad => exec_inPassingReduction_unequal hq hst hjoin hlen hbad⟩
    obtain ⟨s', hexec, hgroup⟩ := exec_inPassingReduction_equal hq hst hjoin hlen hbad
    exact ⟨s', hexec, by rw [hgroup]; rfl⟩
  · intro s g q totals hq hst
    refine ⟨_, _, exec_lagExchangeTimer totals hq hst, tabGet_insert_self .., rfl, rfl, rfl, fun hnone w hw => ?_⟩
    subst hnone
    exact (wait_le_slowest q.waits (0, 0)).2 w hw

end Sys2Proof.Machine

end

section

/-! SUPPORT. A result write whose table lists one entry number twice (R277, R342). -/

namespace Sys2Proof.Machine

open Sys2Proof

/-! ## A table that lists an entry number twice

A table of requests is an association list, and the obligation speaks of every state, not only of those whose keys are distinct.
Here entry 0 stands twice in partition 0: the POURING request whose result is written, and a QUEUED one behind it that has
a result due too. The write makes the first DONE; the composition that follows promotes the second, and `setEntry` puts it in the place of
the first. -/

/-- An image of no layers, enough for an idle partition to compose. -/
def bareImage : Image :=
  { headerLen := 0, measurement := 0, stepping := 0xB1, prefill := true, embed := true, score := true, poolMean := true, embedDim := 32, embedFmt := 6, contextMax := 4096, vocab := 4,
    layers := 0, kvBytes := 0, stateBytes := 0, pMin := 1, rptMask := 15, chunkDefault := 256, entries := [], ringSchedule := [], barrierTable := [], waitLimit := 0, layerMarks := [], leafCuts := [],
    kvBlock := 32, keyOperands := [], logitBase := 0, programs := [], maps := [], sharedExperts := 0, topK := 0, privateMax := 0, variants := 0, draft := none, collMembers := none, collRegions := [],
    segs := [], size := 0, bytes := [] }

/-- A request of 5 tokens of partition 0, of a kind and with a priority in force. -/
def plainFields (kind : BitVec 2) (effPrio : BitVec 3) : ReqFields :=
  { partition := 0, kind := kind, handle := 9, seq := 5, ring := 2, tenant := 1, variant := 0xFFFF, image := 0, length := 5, contLen := 0, chunk := 2, progress := 0, nextPos := 0, pin := 0, basePrio := 3,
    effPrio := effPrio, deadline := 0, admitAt := 0, promoStart := 0, pourTarget := 0, result := 0, seed := 0, stopSet := 0, maxNew := 8, pauses := 0, charges := 0, tokenAddr := 0, tokenCrc := 0,
    crcHwm := 0, delay := 0, lastEvent := 0, cmdFlags := 0, cls := 0, steps := 0, measurement := 0, isPin := false }

/-- The EMBED request whose result is due. -/
def dueResult : Entry := { entryFrom .pouring (plainFields 1 3) false true with resultDue := true, outBytes := [1] }
/-- A prompt that has not been promoted yet, with a result due. -/
def staleResult : Entry := { entryFrom .queued (plainFields 0 0) false true with resultDue := true }

/-- A pour target over RDMA that takes the result. -/
def resultTarget : Target :=
  { tenant := 1, host := false, ports := 0xF, destQpn := 5, pmtu := 1, gid := 0, rkey := 0, startPsn := 0, regionAddr := 0, regionLen := 0, qpn := 1, psn := 0, port := 0, st := .active, cause := 0,
    moved := false, retries := 0, tries := 0, triedPorts := [], rnr := false, log := none, consumed := 0, pos := 0, produced := 0, queue := [], recIdx := 0, crcs := [], flights := [], cnps := 0 }

/-- A partition between steeps in which a request has become eligible. -/
def stirredPart : Part :=
  { tileMask := 1, ringBase := 2, ringQuota := 4, pushBase := 128, pushUnits := 1, dramPages := 64, entryQuota := 4, tenantQuota := 4, keyGen := 1, keyContext := 0, regulator := 0, caddyWays := 0,
    image := some bareImage, stir := true, targets := [(0, resultTarget)] }

def listedTwice : State := { State.reset with ready := true, parts := [(0, stirredPart)], table := [(0, dueResult), (0, staleResult)] }

/-- The state once the result has been written. -/
def resultWritten : State := tryDone (setEntry (sendBytes listedTwice 0 0 resultTarget 0 [1] none) 0 { dueResult with resultDue := false }) 0

theorem exec_listedTwice : exec (.resultWriteDone 0 true) listedTwice = .next resultWritten := rfl

/-- The entry has a result due again. -/
theorem resultDue_resultWritten : (getEntry? resultWritten 0).map (·.resultDue) = some true := by decide +kernel

/-- Refutes O44: where the table lists the entry's number twice, the composition that follows a result write puts the second request in the first one's place, with its result still due. -/
theorem not_pourAcknowledgements : ¬ Obligations.PourAcknowledgements := by
  unfold Obligations.PourAcknowledgements
  rintro ⟨-, hresult⟩
  obtain ⟨⟨s', l, hexec, -, hclear⟩, -⟩ := hresult listedTwice 0 dueResult resultTarget rfl rfl rfl rfl (by decide) (by decide)
  obtain rfl : resultWritten = s' := Host.Outcome.next.inj (exec_listedTwice.symm.trans hexec)
  obtain ⟨y, hy, hdue⟩ := Option.map_eq_some_iff.1 resultDue_resultWritten
  exact Bool.false_ne_true ((hclear y hy).symm.trans hdue)

end Sys2Proof.Machine

end

section

/-! SUPPORT. The pour engine writes the next record of a target (R324, R326, R330, R332, R341). -/

namespace Sys2Proof.Machine

open Sys2Proof

/-! ## What writing a record leaves -/

theorem targets_partCtrOf (x : Part) (off n : Nat) : (partCtrOf x off n).targets = x.targets := rfl
theorem phase_partCtrOf (x : Part) (off n : Nat) : (partCtrOf x off n).phase = x.phase := rfl

/-- While a record is written the outputs grow by `l`; requests and time stay, and so do the partition's targets and phase. -/
structure Writing (s : State) (p : Nat) (x : Part) (s' : State) (l : List Out) : Prop where
  out : s'.out = s.out ++ l
  table : s'.table = s.table
  pwr : s'.pwr = s.pwr
  part : ∃ y, getPart? s' p = some y ∧ y.targets = x.targets ∧ y.phase = x.phase

section
variable {s s' : State} {p : Nat} {x : Part} {l : List Out}

theorem writing_start (hx : getPart? s p = some x) : Writing s p x s [] := ⟨(List.append_nil _).symm, rfl, rfl, x, hx, rfl, rfl⟩

theorem Writing.emits (h : Writing s p x s' l) (m : List Out) : Writing s p x (emits s' m) (l ++ m) :=
  ⟨(congrArg (· ++ m) h.out).trans (List.append_assoc ..), h.table, h.pwr, h.part⟩

theorem Writing.emit (h : Writing s p x s' l) (o : Out) : Writing s p x (emit s' o) (l ++ [o]) := h.emits [o]

theorem Writing.modPart (h : Writing s p x s' l) {f : Part → Part} (hf : ∀ y, (f y).targets = y.targets ∧ (f y).phase = y.phase) : Writing s p x (modPart s' p f) l := by
  obtain ⟨y, hy, htargets, hphase⟩ := h.part
  rw [modPart_of_some hy]
  exact ⟨h.out, h.table, h.pwr, f y, (getPart_setPart ..).trans (if_pos rfl), (hf y).1.trans htargets, (hf y).2.trans hphase⟩

theorem Writing.partCtr (h : Writing s p x s' l) (off n : Nat) : Writing s p x (partCtr s' p off n) l := h.modPart fun _ => ⟨rfl, rfl⟩

theorem Writing.iod (h : Writing s p x s' l) (i : Iod) : Writing s p x { s' with iod := i } l := ⟨h.out, h.table, h.pwr, h.part⟩

theorem Writing.caddyRead (h : Writing s p x s' l) (alloc : Bool) (r : List (Nat × Nat)) : Writing s p x (caddyRead s' p .rm alloc r) l := by
  obtain ⟨y, hy, -⟩ := h.part
  unfold Machine.caddyRead chargeCredit
  rw [hy]
  dsimp only
  refine Writing.modPart ?_ (fun _ => ⟨rfl, rfl⟩)
  refine Writing.iod ?_ _
  exact Writing.modPart h fun z => by simp only [targets_partCtrOf, phase_partCtrOf, and_self]

end

/-! ## Bytes sent to a target's region -/

/-- What a write of bytes at an offset of the region sends (R332, R341). -/
def put (p k : Nat) (t : Target) (off : Nat) (b : List Byte) (imm : Option Word32) : Out :=
  if t.host = true then Out.hostWrite (p + 1) (t.regionAddr + BitVec.ofNat 64 off) b else Out.rdmaWrite p k t.port off b imm

theorem sendBytes_eq (s : State) (p k : Nat) (t : Target) (off : Nat) (b : List Byte) (imm : Option Word32) : sendBytes s p k t off b imm = emit s (put p k t off b imm) := by
  unfold sendBytes put
  split <;> rfl

/-- The pad that fills the end of the log before a record that does not fit there (R324). -/
def pads (p k : Nat) (t : Target) (o len n : Nat) : List Out :=
  if padBefore t len n = 0 then [] else [put p k t (o + t.pos % len) (padRecord (padBefore t len n)) none]

/-- The target once a record of `b` stands at `pos`: a data record counts, a commit record ends its chunk (R324, R339). -/
def recordPut (j : PourJob) (rest : List PourJob) (pos at_ : Nat) (b : List Byte) (commit : Bool) (t : Target) : Target :=
  { t with st := .active, pos := pos + b.length, produced := if commit then pos + b.length else t.produced, queue := if commit then rest else t.queue, recIdx := if commit then 0 else t.recIdx + 1,
           crcs := if commit then [] else t.crcs ++ [BitVec.ofNat 32 (bytesToNat (b.drop (b.length - 4)))],
           flights := t.flights ++ [{ pos := pos, len := b.length, entry := j.entry, chunk := j.chunk, commit := commit, sent := at_ }] }

section
variable {s : State} {p k : Nat} {x : Part} {t : Target} {img : Image} {j : PourJob} {rest : List PourJob} {o len : Nat} {far : List (List Byte)}

theorem writing_pads (hx : getPart? s p = some x) (n : Nat) :
    Writing s p x (if padBefore t len n = 0 then s else sendBytes s p k t (o + t.pos % len) (padRecord (padBefore t len n)) none) (pads p k t o len n) := by
  unfold pads
  split
  · exact writing_start hx
  · rw [sendBytes_eq]
    exact (writing_start hx).emit _

/-- A data record that fits and has credit is sent, its gathers are called and its reads charged. -/
theorem writeRecord_data {b : List Byte} {c : Cut} (hx : getPart? s p = some x) (hb : nextRecord x.mem p img t j far = b) (hlen : b.length ≤ len)
    (hfit : t.pos + padBefore t len b.length + b.length - t.consumed ≤ len) (hc : (cutChunk img j.first j.count)[t.recIdx]? = some c) (hcredit : creditOk s p .rm = true) :
    ∃ s5, Writing s p x s5 (pads p k t o len b.length ++ [put p k t (o + (t.pos + padBefore t len b.length) % len) b none] ++ cutGathers p img c) ∧
      writeRecord s p k x img t j rest o len far = modTarget s5 p k (recordPut j rest (t.pos + padBefore t len b.length) (now s) b false) := by
  have hidx : t.recIdx < (cutChunk img j.first j.count).length := (List.getElem?_eq_some_iff.1 hc).1
  have hdata : decide ((cutChunk img j.first j.count).length ≤ t.recIdx) = false := decide_eq_false (Nat.not_le.2 hidx)
  have hwriting := ((((((writing_pads (k := k) (t := t) (o := o) (len := len) hx b.length).emit (put p k t (o + (t.pos + padBefore t len b.length) % len) b none)).emits
    (cutGathers p img c)).caddyRead false (cutReads img j c)).partCtr 0x170 (padBefore t len b.length + b.length)).partCtr 0x178 (if padBefore t len b.length = 0 then 1 else 2))
  have hnow : ∀ s', Writing s p x s' (pads p k t o len b.length ++ [put p k t (o + (t.pos + padBefore t len b.length) % len) b none] ++ cutGathers p img c) → now s' = now s :=
    fun _ h => congrArg (fun w : Power => w.timebase.toNat) h.pwr
  refine ⟨_, hwriting, ?_⟩
  rw [← hnow _ hwriting]
  unfold writeRecord
  dsimp only
  rw [hb, hc, hcredit, hdata, if_neg (Nat.not_lt.2 hlen), if_neg (fun h => Bool.false_ne_true h.1), if_neg (Nat.not_lt.2 hfit), sendBytes_eq _ _ _ _ (o + (t.pos + padBefore t len b.length) % len) b]
  simp only [Bool.false_eq_true, false_and, if_false]
  rfl

/-- What a commit record at `pos` sends: at a host target PRODUCED follows it and the control block is read (R332, R341). -/
def commitOuts (p k : Nat) (t : Target) (o len pos : Nat) (b : List Byte) : List Out :=
  if t.host = true then [put p k t (o + pos % len) b none, .hostWrite (p + 1) (t.regionAddr + 32) (natToBytes 8 (pos + b.length)), blockRead p k t]
  else [put p k t (o + pos % len) b (some (BitVec.ofNat 32 (pos / 64)))]

/-- A commit record that fits is sent, and the partition's lent pages are settled. -/
theorem writeRecord_commit {b : List Byte} (hx : getPart? s p = some x) (hb : nextRecord x.mem p img t j far = b) (hlen : b.length ≤ len)
    (hfit : t.pos + padBefore t len b.length + b.length - t.consumed ≤ len) (hend : (cutChunk img j.first j.count).length ≤ t.recIdx) :
    ∃ s5, Writing s p x s5 (pads p k t o len b.length ++ commitOuts p k t o len (t.pos + padBefore t len b.length) b) ∧
      writeRecord s p k x img t j rest o len far = idleCompose (settleLent (modTarget s5 p k (recordPut j rest (t.pos + padBefore t len b.length) (now s) b true)) p) p := by
  have hnone : (cutChunk img j.first j.count)[t.recIdx]? = none := List.getElem?_eq_none hend
  have hcommit : decide ((cutChunk img j.first j.count).length ≤ t.recIdx) = true := decide_eq_true hend
  have hnow : ∀ l s', Writing s p x s' l → now s' = now s := fun _ _ h => congrArg (fun w : Power => w.timebase.toNat) h.pwr
  have hcredit : ¬((!creditOk s p .rm) = true ∧ t.recIdx < (cutChunk img j.first j.count).length) := fun h => absurd h.2 (Nat.not_lt.2 hend)
  have hpads := writing_pads (k := k) (t := t) (o := o) (len := len) hx b.length
  unfold writeRecord commitOuts
  dsimp only
  rw [hb, hnone, hcommit, if_neg (Nat.not_lt.2 hlen), if_neg hcredit, if_neg (Nat.not_lt.2 hfit), sendBytes_eq _ _ _ _ (o + (t.pos + padBefore t len b.length) % len) b]
  by_cases hhost : t.host = true
  · have hwriting := (((((hpads.emit (put p k t (o + (t.pos + padBefore t len b.length) % len) b none)).emit
      (.hostWrite (p + 1) (t.regionAddr + 32) (natToBytes 8 (t.pos + padBefore t len b.length + b.length)))).emit (blockRead p k t)).partCtr 0x170 (padBefore t len b.length + b.length)).partCtr 0x178
      (if padBefore t len b.length = 0 then 1 else 2))
    refine ⟨_, by simpa only [if_pos hhost, List.append_assoc, List.cons_append, List.nil_append] using hwriting, ?_⟩
    rw [← hnow _ _ hwriting]
    simp only [hhost, Bool.not_true, Bool.false_eq_true, and_false, and_self, if_true, if_false]
    rfl
  · have hwriting := (((hpads.emit (put p k t (o + (t.pos + padBefore t len b.length) % len) b (some (BitVec.ofNat 32 ((t.pos + padBefore t len b.length) / 64))))).partCtr 0x170
      (padBefore t len b.length + b.length)).partCtr 0x178 (if padBefore t len b.length = 0 then 1 else 2))
    refine ⟨_, by simpa only [if_neg hhost] using hwriting, ?_⟩
    rw [← hnow _ _ hwriting]
    simp only [hhost, Bool.not_false, Bool.false_eq_true, and_false, and_self, if_true, if_false]
    rfl

/-- The target, the phase and the outputs once the record stands in the target's own state. -/
theorem Writing.target {s' : State} {l : List Out} (h : Writing s p x s' l) (ht : tabGet? k x.targets = some t) (f : Target → Target) :
    ∃ y, modTarget s' p k f = setPart s' p y ∧ tabGet? k y.targets = some (f t) ∧ y.phase = x.phase := by
  obtain ⟨y, hy, htargets, hphase⟩ := h.part
  exact ⟨_, modTarget_of_some hy (htargets ▸ ht) f, tabGet_insert_self .., hphase⟩

end

section
variable {s : State} {p : Fin 64} {k : Fin 1024} {x : Part} {t : Target} {img : Image} {j : PourJob} {rest : List PourJob}

/-- The control block is read before the first record (R323). -/
theorem exec_pourRecordWrite_unread (i : RecordInput) (hx : getPart? s p = some x) (ht : tabGet? k x.targets = some t) (himg : x.image = some img) (hup : deviceUp s = true)
    (hst : t.st ≠ .errored) (hrnr : t.rnr = false) (hqueue : t.queue = j :: rest) (hwait : j.wait = false) (hlog : t.log = none) :
    exec (.pourRecordWrite p k i) s = .next (Machine.emit s (blockRead p k t)) := by
  show execPourRecordWrite p k i s = _
  unfold execPourRecordWrite
  rw [hx, getTarget_of_some hx ht]
  dsimp only
  rw [hup, hrnr, if_neg (by simp [hst]), himg, hqueue]
  dsimp only
  rw [hwait, if_neg (by decide), hlog]

/-- With a control block read, the record is refused by the host or written. -/
theorem exec_pourRecordWrite_read (i : RecordInput) (hx : getPart? s p = some x) (ht : tabGet? k x.targets = some t) (himg : x.image = some img) (hup : deviceUp s = true)
    (hst : t.st ≠ .errored) (hrnr : t.rnr = false) (hqueue : t.queue = j :: rest) (hwait : j.wait = false) {o len : Nat} (hlog : t.log = some (o, len)) :
    exec (.pourRecordWrite p k i) s = .next (if t.host ∧ !i.ok then errTarget s p k 7 else if !i.ok then s else writeRecord s p k x img t j rest o len i.far) := by
  show execPourRecordWrite p k i s = _
  unfold execPourRecordWrite
  rw [hx, getTarget_of_some hx ht]
  dsimp only
  rw [hup, hrnr, if_neg (by simp [hst]), himg, hqueue]
  dsimp only
  rw [hwait, if_neg (by decide), hlog]

end

/-- Settles O43: what each record sends and leaves of its target, by the branches of `writeRecord`. -/
theorem pourRecordsAreWritten : Obligations.PourRecordsAreWritten := by
  unfold Obligations.PourRecordsAreWritten
  intro s p k x t img j rest far hx ht himg hup hst hrnr hqueue hwait put read
  refine ⟨fun ok hlog => exec_pourRecordWrite_unread _ hx ht himg hup hst hrnr hqueue hwait hlog, fun hlog => ?_, ?_⟩
  · obtain ⟨⟨o, len⟩, hlog⟩ := Option.ne_none_iff_exists'.1 hlog
    rw [exec_pourRecordWrite_read _ hx ht himg hup hst hrnr hqueue hwait hlog]
    simp
  intro o len hlog _ b cuts pad pos pads
  have hexec : exec (.pourRecordWrite p k ⟨true, far⟩) s = .next (writeRecord s p k x img t j rest o len far) := by
    rw [exec_pourRecordWrite_read _ hx ht himg hup hst hrnr hqueue hwait hlog]
    simp
  refine ⟨fun hlen => ?_, fun hlen hcredit hidx => ?_, fun hlen hcredit hfull => ?_, fun c hlen hfit hc hcredit => ?_, fun hlen hfit hend hphase => ?_⟩
  · exact hexec.trans (congrArg Host.Outcome.next (if_pos hlen))
  · refine hexec.trans (congrArg Host.Outcome.next ?_)
    refine (if_neg (Nat.not_lt.2 hlen)).trans ((if_pos ⟨by rw [hcredit]; rfl, hidx⟩).trans ?_)
    exact modPart_of_some hx _
  · refine hexec.trans (congrArg Host.Outcome.next ?_)
    refine (if_neg (Nat.not_lt.2 hlen)).trans ((if_neg ?_).trans (if_pos hfull))
    rintro ⟨hnone, hidx⟩
    rcases hcredit with hcredit | hend
    · rw [hcredit] at hnone
      cases hnone
    · exact absurd hidx (Nat.not_lt.2 hend)
  · obtain ⟨s5, hwriting, hwritten⟩ := writeRecord_data (k := k) (rest := rest) (o := o) hx rfl hlen hfit hc hcredit
    obtain ⟨y, hy, htarget, -⟩ := hwriting.target (k := k) ht (recordPut j rest pos (now s) b false)
    refine ⟨setPart s5 p y, _, hexec.trans (congrArg Host.Outcome.next (hwritten.trans hy)), getTarget_of_some ((getPart_setPart ..).trans (if_pos rfl)) htarget, ?_, hwriting.table, rfl, rfl, rfl, rfl, rfl, rfl⟩
    exact hwriting.out.trans (by simp only [List.append_assoc]; rfl)
  · obtain ⟨s5, hwriting, hwritten⟩ := writeRecord_commit (k := k) (rest := rest) (o := o) hx rfl hlen hfit hend
    obtain ⟨y, hy, htarget, hyphase⟩ := hwriting.target (k := k) ht (recordPut j rest pos (now s) b true)
    have hlent := settleLent_eq (s := setPart s5 p y) ((getPart_setPart ..).trans (if_pos rfl))
    have hpart : getPart? (setPart (setPart s5 p y) p (lentSettled y)) p = some (lentSettled y) := (getPart_setPart ..).trans (if_pos rfl)
    rw [hy, hlent, idleCompose_of_running hpart (by rw [show (lentSettled y).phase = y.phase from rfl, hyphase]; exact hphase)] at hwritten
    refine ⟨_, _, hexec.trans (congrArg Host.Outcome.next hwritten), getTarget_of_some hpart htarget, ?_, rfl, rfl, rfl, rfl, rfl⟩
    exact hwriting.out.trans (by simp only [List.append_assoc]; rfl)

end Sys2Proof.Machine

end

section

/-! SUPPORT. Start-up, resets and what outlives them (R344, R408, R460-R467). -/

namespace Sys2Proof.Machine

open Sys2Proof

/-! ## What an abort leaves alone -/

@[simp] theorem office_failRequest (s : State) (i : Nat) (status : BitVec 16) (pours : Bool) : office (failRequest s i status pours) = office s := by
  unfold failRequest
  split
  · rfl
  · simp only [office_postReq, office_setEntryM, office_killNext, office_finishPauses, office_orphanFlights, office_modPart]
    exact office_ite (office_sampleLeft ..) (office_dropPours ..)

@[simp] theorem office_chargeEntry (s : State) (i : Nat) : office (chargeEntry s i) = office s := by
  unfold chargeEntry
  split
  · rfl
  · exact office_ite ((office_failRequest ..).trans (office_setEntryM ..)) (office_setEntryM ..)

@[simp] theorem office_chargeImage (s : State) (p : Nat) : office (chargeImage s p) = office s := by
  unfold chargeImage
  split
  · rfl
  · exact office_ite ((office_foldl (fun _ _ => office_ite (office_failRequest ..) rfl) _ _).trans (office_setPart ..)) rfl

@[simp] theorem office_applyCharge (s : State) (p : Nat) (c : Charge) : office (applyCharge s p c) = office s := by
  cases c with
  | none => rfl
  | image => exact office_chargeImage ..
  | entries l => exact office_foldl office_chargeEntry ..

@[simp] theorem office_abortRider (charged : List Nat) (s : State) (p i : Nat) : office (abortRider charged s p i) = office s := by
  unfold abortRider
  split
  · refine office_ite ?_ rfl
    simp only [office_postEvent, office_setEntryM, office_stirPart, office_returnPages, office_sampleLeft]
  · rfl

@[simp] theorem office_settleIdle (s : State) (p : Nat) : office (settleIdle s p) = office s :=
  office_foldl (fun _ _ => office_ite (office_applyCancel ..) (office_ite (office_pauseNow ..) rfl)) _ _

theorem office_settleRemote (q : State × List (Nat × Nat)) (r : Remote) : office (settleRemote q r).1 = office q.1 := by
  unfold settleRemote
  split
  · rfl
  · dsimp only
    split <;> rfl

@[simp] theorem office_settleRemotes (s : State) (p : Nat) : office (settleRemotes s p) = office s := by
  have hfold (l : List Remote) (q : State × List (Nat × Nat)) : office (l.foldl settleRemote q).1 = office q.1 := by
    induction l generalizing q with
    | nil => rfl
    | cons r l ih => exact (ih _).trans (office_settleRemote q r)
  exact hfold _ (s, [])

@[simp] theorem office_discardNext (s : State) (p : Nat) : office (discardNext s p) = office s := office_undoNext ..

/-! ## Ports and what keeps the module from starting -/

/-- The S ports, and what keeps the module from starting. -/
def portGate (s : State) : Tab FabPort × BitVec 32 × BitVec 8 × Bool × Bool × Bool := (s.fab.ports, guards s)

theorem portGate_of_office {s s' : State} (h : office s' = office s) : portGate s' = portGate s := congrArg (fun q => (q.1.ports, q.2.2.2.2)) h
theorem guards_of_portGate {s s' : State} (h : portGate s' = portGate s) : guards s' = guards s := congrArg Prod.snd h
theorem ports_of_portGate {s s' : State} (h : portGate s' = portGate s) : s'.fab.ports = s.fab.ports := congrArg Prod.fst h

theorem portGate_foldl {α : Type} {f : State → α → State} (h : ∀ s a, portGate (f s a) = portGate s) (l : List α) (s : State) : portGate (l.foldl f s) = portGate s := by
  induction l generalizing s with
  | nil => rfl
  | cons a l ih => exact (ih (f s a)).trans (h s a)

theorem portGate_freeGroup (s : State) (g : Nat) (q : Group) : portGate (freeGroup s g q) = portGate s := (portGate_of_office (office_freeGroup s g q) :)

theorem portGate_settleGroups (s : State) (p : Nat) : portGate (settleGroups s p) = portGate s := portGate_foldl (fun _ _ => portGate_freeGroup ..) _ _

theorem portGate_abortHere (s : State) (p : Nat) (ch : Charge) : portGate (abortHere s p ch) = portGate s := by
  unfold abortHere
  split
  · rfl
  · split
    · exact portGate_of_office (by simp)
    · extract_lets s1 s2 s3 s4 riders s5 s6 s7 s8 s9
      have hsigs : office s2 = office s := office_settleRemotes ..
      have htiles : office s3 = office s := (office_modTiles ..).trans hsigs
      have hriders : office s5 = office s := (office_foldl (fun _ _ => office_abortRider ..) _ _).trans ((office_discardNext ..).trans htiles)
      have hentries : office s7 = office s := (office_foldl (fun _ _ => office_modEntry ..) _ _).trans ((office_modPart ..).trans hriders)
      have hidle : office (settleIdle s8 p) = office s := (office_settleIdle ..).trans ((office_applyCharge ..).trans hentries)
      exact (portGate_of_office (office_idleCompose ..)).trans ((portGate_settleGroups ..).trans (portGate_of_office hidle))

theorem portGate_breakGroup (s : State) (g : Nat) (q : Group) (r : Nat) : portGate (breakGroup s g q r) = portGate s := portGate_abortHere ..

theorem portGate_settleReach (s : State) (published : Bool) : portGate (settleReach s published) = portGate s := by
  refine portGate_foldl (fun s g => ?_) _ _
  dsimp only
  split
  · exact portGate_breakGroup ..
  · split <;> rfl
  · rfl

/-! ## Work of the module that leaves a bare state bare -/

/-- What the work of the ports and the fault log does not touch where no partition stands. -/
def core (s : State) : Tab Part × Tab Entry × Tab Tile × SMap 8 × List FwCmd × Saved × BitVec 32 × Nat := (s.parts, s.table, s.tiles, s.push, s.fwQueue, s.saved, s.mod.gen, s.pwr.dev)

/-- The guards of a start stay, and with no partition the core of the state too. -/
structure KeepsBare (s s' : State) : Prop where
  guards : guards s' = guards s
  core : s.parts = [] → core s' = core s

theorem KeepsBare.parts {s s' : State} (h : KeepsBare s s') (hbare : s.parts = []) : s'.parts = [] := (congrArg Prod.fst (h.core hbare) :).trans hbare
theorem KeepsBare.refl (s : State) : KeepsBare s s := ⟨rfl, fun _ => rfl⟩
theorem KeepsBare.trans {s s1 s2 : State} (h : KeepsBare s s1) (k : KeepsBare s1 s2) : KeepsBare s s2 := ⟨k.guards.trans h.guards, fun hbare => (k.core (h.parts hbare)).trans (h.core hbare)⟩

/-- A first step that rewrites other fields only. -/
theorem KeepsBare.after {s s1 s2 : State} (h : KeepsBare s1 s2) (hguards : Machine.guards s1 = Machine.guards s) (hcore : Machine.core s1 = Machine.core s) : KeepsBare s s2 :=
  .trans ⟨hguards, fun _ => hcore⟩ h

theorem KeepsBare.foldl {α : Type} {f : State → α → State} (h : ∀ s a, KeepsBare s (f s a)) (l : List α) (s : State) : KeepsBare s (l.foldl f s) := by
  induction l generalizing s with
  | nil => exact .refl s
  | cons a l ih => exact (h s a).trans (ih _)

theorem KeepsBare.ite {c : Prop} [Decidable c] {s a b : State} (ha : KeepsBare s a) (hb : KeepsBare s b) : KeepsBare s (if c then a else b) := by
  split
  · exact ha
  · exact hb

theorem abortHere_of_bare {s : State} (hbare : s.parts = []) (p : Nat) (ch : Charge) : abortHere s p ch = s := by
  unfold abortHere
  rw [show getPart? s p = none by rw [getPart?, hbare]; rfl]

theorem keepsBare_breakGroup (s : State) (g : Nat) (q : Group) (r : Nat) : KeepsBare s (breakGroup s g q r) where
  guards := guards_of_portGate (portGate_breakGroup ..)
  core hbare := by
    unfold breakGroup
    rw [abortHere_of_bare (by exact hbare)]
    rfl

theorem keepsBare_settleReach (s : State) (published : Bool) : KeepsBare s (settleReach s published) := by
  refine KeepsBare.foldl (fun s g => ?_) _ _
  dsimp only
  split
  · exact keepsBare_breakGroup ..
  · exact KeepsBare.ite ⟨rfl, fun _ => rfl⟩ (.refl s)
  · exact .refl s

theorem keepsBare_install (s : State) (mods sws : List (BitVec 64)) (routes : List Route) : KeepsBare s (install s mods sws routes) := by
  unfold install
  exact (keepsBare_settleReach ..).after rfl rfl

theorem keepsBare_trySearch (s : State) : KeepsBare s (trySearch s) := by
  unfold trySearch
  exact KeepsBare.ite (.refl s) (KeepsBare.ite (keepsBare_install ..) ⟨rfl, fun _ => rfl⟩)

theorem keepsBare_bumpEpoch (s : State) : KeepsBare s (bumpEpoch s) := by
  unfold bumpEpoch startSearch
  exact (keepsBare_trySearch _).after rfl rfl

theorem keepsBare_faultLog (s : State) (cls code part action unit : Nat) (phys : BitVec 16) (detail : BitVec 128) : KeepsBare s (faultLog s cls code part action unit phys detail) := by
  have hframe := faultLog_frame s cls code part action unit phys detail
  generalize faultLog s cls code part action unit phys detail = s1 at hframe ⊢
  exact ⟨(congrArg guards hframe :), fun _ => (congrArg core hframe :)⟩

theorem keepsBare_modPort (s : State) (p : Nat) (f : FabPort → FabPort) : KeepsBare s (modPort s p f) := ⟨rfl, fun _ => rfl⟩

theorem keepsBare_portRise (s : State) (p : Nat) (lanes : BitVec 4) : KeepsBare s (portRise s p lanes) := by
  have hcount : KeepsBare s (countChange s p) := keepsBare_modPort ..
  unfold portRise
  dsimp only
  refine hcount.trans (KeepsBare.ite ?_ ?_)
  · exact (((keepsBare_modPort ..).trans (keepsBare_faultLog ..)).trans (keepsBare_bumpEpoch _)).trans (keepsBare_bumpEpoch _)
  · exact (keepsBare_modPort ..).trans (keepsBare_bumpEpoch _)

theorem keepsBare_mirrorPortBack (s : State) (p : Nat) (lanes : BitVec 4) : KeepsBare s (mirrorPortBack s p lanes) := by
  unfold mirrorPortBack
  extract_lets s1 pair s2 s3
  have hup : KeepsBare s s1 := ⟨rfl, fun _ => rfl⟩
  have hport : KeepsBare s s2 := KeepsBare.ite ⟨rfl, fun _ => rfl⟩ hup
  have hsent : KeepsBare s s3 := KeepsBare.ite (hport.trans ⟨rfl, fun _ => rfl⟩) hport
  exact KeepsBare.ite (hsent.trans ⟨rfl, fun _ => rfl⟩) hsent

theorem keepsBare_raisePorts (s : State) (x : StartCfg) : KeepsBare s (raisePorts s x) := by
  unfold raisePorts
  extract_lets s1 s2 s3
  have hs1 : KeepsBare s s1 := KeepsBare.foldl (fun s p => KeepsBare.ite (keepsBare_portRise ..) (.refl s)) _ _
  have hs2 : KeepsBare s1 s2 := KeepsBare.foldl (fun s p => KeepsBare.ite (keepsBare_mirrorPortBack ..) (.refl s)) _ _
  have htrained (s : State) (p : Nat) : KeepsBare s (trained s p) := ⟨rfl, fun _ => rfl⟩
  have hs3 : KeepsBare s2 s3 := KeepsBare.foldl htrained _ _
  exact ((hs1.trans hs2).trans hs3).trans ⟨rfl, fun _ => rfl⟩

theorem keepsBare_pinFinding (s : State) (pin kind : Nat) : KeepsBare s (pinFinding s pin kind) := by
  cases h : pinQuiet s pin
  · rw [pinFinding_of_new kind h]
    exact (keepsBare_faultLog (pinShown s pin kind) ..).after rfl rfl
  · rw [pinFinding_of_quiet kind h]
    exact ⟨rfl, fun _ => rfl⟩

theorem keepsBare_setAlert (s : State) (on : Bool) : KeepsBare s (setAlert s on) := by
  unfold setAlert
  exact KeepsBare.ite (.refl s) ⟨rfl, fun _ => rfl⟩

theorem keepsBare_settleDomains (s : State) : KeepsBare s (settleDomains s) where
  guards := guards_settleDomains s
  core hbare := by
    have hkept : domainsKept s (fun _ x => x.pstate) = [] := by rw [domainsKept, hbare]; rfl
    unfold settleDomains
    dsimp only
    rw [hkept]
    rfl

/-! ## Start-up -/

/-- The self-tests of R465 pass, and an image can be started. -/
structure TestsPass (x : StartCfg) : Prop where
  image : x.slotOk = true ∨ x.otherOk = true
  networks : x.networksOk = true
  tiles : x.badTiles = []
  newts : x.newtsLost = 0
  cores : x.cores ≠ 0
  pkgs : x.lostPkgs = 0
  comparators : x.comparatorsOk = true
  sealed : x.sealOk = true

/-- Nothing of the state keeps the module from starting. -/
structure MayStart (s : State) : Prop where
  lost : onesOf s.iod.lost < 3
  newts : s.iod.newtsLost ≠ 0xFF
  leak : s.pwr.leakNow = false
  hot : s.pwr.dieHot = false
  vin : s.pwr.vinOut = false

theorem MayStart.of_guards {s s' : State} (h : MayStart s) (hg : guards s' = guards s) : MayStart s' := by
  simp only [guards, Prod.mk.injEq] at hg
  obtain ⟨hlost, hnewts, hleak, hhot, hvin⟩ := hg
  obtain ⟨lost, newts, leak, hot, vin⟩ := h
  exact ⟨hlost ▸ lost, hnewts ▸ newts, hleak.trans leak, hhot.trans hot, hvin.trans vin⟩

theorem startFault_of_mayStart {s : State} {x : StartCfg} (hx : TestsPass x) (h : MayStart s) : startFault s x = none := by
  have hdies : (List.range 4).any (fun d => decide (9 < (failedOn x.badTiles d).length)) = false := by rw [hx.tiles]; decide
  unfold startFault
  rw [hdies, hx.networks, hx.comparators, h.leak, h.hot, h.vin, if_neg (Nat.not_le.2 h.lost), if_neg h.newts, if_neg hx.cores]
  rfl

theorem keepsBare_openSeal (s : State) {ok : Bool} (hok : ok = true) : KeepsBare s (openSeal s ok) := by
  subst hok
  exact .refl s

/-- With no failed tile no die is mapped anew. -/
theorem keepsBare_mapDies (s : State) {l : List (Nat × Nat)} (hl : l = []) : KeepsBare s ((List.range 4).foldl (fun s d => mapDie s l d) s) := by
  subst hl
  exact KeepsBare.foldl (fun s _ => .refl s) _ s

theorem keepsBare_lost (s : State) {b : BitVec 32} (hb : b = 0) : KeepsBare s { s with iod := { s.iod with lost := s.iod.lost ||| b } } := by
  refine ⟨?_, fun _ => rfl⟩
  unfold guards
  dsimp only
  subst hb
  exact congrArg (fun b => (b, s.iod.newtsLost, s.pwr.leakNow, s.pwr.dieHot, s.pwr.vinOut)) BitVec.or_zero

theorem keepsBare_newtsLost (s : State) {b : BitVec 8} (hb : b = 0) : KeepsBare s { s with iod := { s.iod with newtsLost := s.iod.newtsLost ||| b } } := by
  refine ⟨?_, fun _ => rfl⟩
  unfold guards
  dsimp only
  subst hb
  exact congrArg (fun b => (s.iod.lost, b, s.pwr.leakNow, s.pwr.dieHot, s.pwr.vinOut)) BitVec.or_zero

/-- A module whose self-tests pass becomes READY with the cause of its reset (R463 steps 4 to 10). -/
theorem bringUp_ready {s : State} {x : StartCfg} (cause : BitVec 8) (hx : TestsPass x) (h : MayStart s) :
    ∃ s', KeepsBare s s' ∧ bringUp s x cause = settleDomains { s' with ready := true, resetCause := cause } := by
  have himage : ¬((!x.slotOk) = true ∧ (!x.otherOk) = true) := by
    rintro ⟨hslot, hother⟩
    rcases hx.image with h | h
    · rw [h] at hslot; cases hslot
    · rw [h] at hother; cases hother
  obtain ⟨r, hr⟩ : ∃ r, bringUp s x cause = r := ⟨_, rfl⟩
  rw [hr]
  unfold bringUp at hr
  extract_lets mod1 s1 s2 mod3 s3 pwr4 s4 pwr5 s5 pair6 s6 lost iod7 s7 newts iod8 s8 iod9 s9 at hr
  rw [if_neg himage] at hr
  have hs3 : KeepsBare s s3 := ⟨rfl, fun _ => rfl⟩
  have hs4 : KeepsBare s3 s4 := ((keepsBare_openSeal _ hx.sealed).trans (keepsBare_setAlert ..)).after rfl rfl
  have hs5 : KeepsBare s4 s5 := KeepsBare.ite (.refl s4) ((keepsBare_pinFinding ..).after rfl rfl)
  have hs6 : KeepsBare s5 s6 := (keepsBare_raisePorts _ x).after rfl rfl
  have hs7 : KeepsBare s6 s7 := (keepsBare_lost s6 hx.pkgs).trans (KeepsBare.foldl (fun _ _ => keepsBare_faultLog ..) _ _)
  have hs8 : KeepsBare s7 s8 := (keepsBare_newtsLost s7 hx.newts).trans (KeepsBare.foldl (fun _ _ => keepsBare_faultLog ..) _ _)
  have hs9 : KeepsBare s8 s9 := (keepsBare_mapDies _ hx.tiles).after rfl rfl
  have hall : KeepsBare s s9 := (((((hs3.trans hs4).trans hs5).trans hs6).trans hs7).trans hs8).trans hs9
  rw [startFault_of_mayStart hx (h.of_guards hall.guards)] at hr
  exact ⟨s9, hall, hr.symm⟩

/-- A state whose module has started: READY with its cause, and a bare state keeps its core. -/
structure Started (s s' : State) (cause : BitVec 8) : Prop where
  ready : s'.ready = true
  cause : s'.resetCause = cause
  core : s.parts = [] → core s' = core s

theorem started_settleDomains (s : State) : (settleDomains s).ready = s.ready ∧ (settleDomains s).resetCause = s.resetCause := by
  have hframe := settleDomains_frame s
  generalize settleDomains s = s1 at hframe ⊢
  exact ⟨(congrArg State.ready hframe :), (congrArg State.resetCause hframe :)⟩

theorem started_bringUp {s : State} {x : StartCfg} (cause : BitVec 8) (hx : TestsPass x) (h : MayStart s) : Started s (bringUp s x cause) cause := by
  obtain ⟨s', hkeeps, hup⟩ := bringUp_ready cause hx h
  obtain ⟨hready, hcause⟩ := started_settleDomains { s' with ready := true, resetCause := cause }
  have hsettled := keepsBare_settleDomains { s' with ready := true, resetCause := cause }
  rw [hup]
  exact ⟨hready, hcause, fun hbare => (hsettled.core (hkeeps.parts hbare)).trans (hkeeps.core hbare)⟩

theorem dev_reloaded (w : Power) : (reloaded w).dev = w.dev ∧ (reloaded w).leakNow = w.leakNow ∧ (reloaded w).dieHot = w.dieHot ∧ (reloaded w).vinOut = w.vinOut := by
  unfold reloaded
  split <;> exact ⟨rfl, rfl, rfl, rfl⟩

theorem mayStart_reloaded {s : State} (h : MayStart s) : MayStart { s with pwr := { reloaded s.pwr with dev := 0 } } := by
  obtain ⟨-, hleak, hhot, hvin⟩ := dev_reloaded s.pwr
  exact ⟨h.lost, h.newts, hleak.trans h.leak, hhot.trans h.hot, hvin.trans h.vin⟩

/-- A start-up whose restart condition holds (R463). -/
theorem started_startUp {s : State} {x : StartCfg} (cause : BitVec 8) (hx : TestsPass x) (h : MayStart s) (hok : s.mod.restartOk = true) :
    Started { s with pwr := { reloaded s.pwr with dev := 0 } } (startUp s x cause) cause := by
  have hstart : startUp s x cause = bringUp { s with pwr := { reloaded s.pwr with dev := 0 } } x cause := if_neg (by
    show ¬ (!s.mod.restartOk) = true
    rw [hok]
    decide)
  rw [hstart]
  exact started_bringUp cause hx (mayStart_reloaded h)

theorem capture_fields (w : Power) : (capture w).leakNow = w.leakNow ∧ (capture w).dieHot = w.dieHot ∧ (capture w).vinOut = w.vinOut := by
  unfold capture
  split <;> exact ⟨rfl, rfl, rfl⟩

/-- A state without partitions, once started, is bare. -/
theorem Started.bare {s s' : State} {cause : BitVec 8} (h : Started s s' cause) {table : Tab Entry} {tiles : Tab Tile} {push : SMap 8} {fwQueue : List FwCmd} {saved : Saved} {gen : BitVec 32} {dev : Nat}
    (hcore : Machine.core s = ([], table, tiles, push, fwQueue, saved, gen, dev)) :
    s'.parts = [] ∧ s'.table = table ∧ s'.tiles = tiles ∧ s'.push = push ∧ s'.fwQueue = fwQueue ∧ s'.saved = saved ∧ s'.mod.gen = gen ∧ s'.pwr.dev = dev := by
  have hkept := (h.core (congrArg Prod.fst hcore)).trans hcore
  simpa only [Machine.core, Prod.mk.injEq] using hkept

theorem started_powerOn {s : State} {x : StartCfg} (hx : TestsPass x) (hoff : powered s = false) (hleak : s.pwr.leakNow = false) (hvin : s.pwr.vinOut = false) (hok : s.mod.restartOk = true) :
    ∃ s', exec (.powerOn x) s = .next s' ∧ s'.ready = true ∧ s'.resetCause = 0x01 ∧ s'.parts = [] ∧ s'.table = [] ∧ s'.tiles = [] ∧ s'.push = [] ∧ s'.fwQueue = [] ∧ s'.pwr.dev = 0 := by
  have hmay : MayStart { kettleOnly s with iod := {}, pwr := { vinOut := s.pwr.vinOut, vin10mv := s.pwr.vin10mv, leakNow := s.pwr.leakNow } } := ⟨(by decide : onesOf (0 : BitVec 32) < 3), (by decide : (0 : BitVec 8) ≠ 0xFF), hleak, rfl, hvin⟩
  have hstarted := started_startUp 0x01 hx hmay hok
  obtain ⟨hparts, htable, htiles, hpush, hqueue, -, -, hdev⟩ := hstarted.bare rfl
  exact ⟨_, if_neg (by rw [hoff]; decide), hstarted.ready, hstarted.cause, hparts, htable, htiles, hpush, hqueue, hdev⟩

theorem started_resetN {s : State} {x : StartCfg} (hx : TestsPass x) (hon : powered s = true) (h : MayStart s) (hok : s.mod.restartOk = true) :
    ∃ s', exec (.resetN x) s = .next s' ∧ s'.ready = true ∧ s'.resetCause = 0x03 ∧ s'.parts = [] ∧ s'.table = [] ∧ s'.tiles = [] ∧ s'.push = [] ∧ s'.mod.gen = s.mod.gen := by
  obtain ⟨hleak, hhot, hvin⟩ := capture_fields s.pwr
  have hmay : MayStart { kettleOnly { s with pair := { s.pair with aliveOut := .static } } with mod := { (kettleOnly { s with pair := { s.pair with aliveOut := .static } }).mod with leakShutdown := s.mod.leakShutdown } } :=
    ⟨h.lost, h.newts, hleak.trans h.leak, hhot.trans h.hot, hvin.trans h.vin⟩
  have hstarted := started_startUp 0x03 hx hmay hok
  obtain ⟨hparts, htable, htiles, hpush, -, -, hgen, -⟩ := hstarted.bare rfl
  exact ⟨_, if_neg (by rw [hon]; decide), hstarted.ready, hstarted.cause, hparts, htable, htiles, hpush, hgen⟩

theorem started_a5Exit {s : State} {x : StartCfg} (hx : TestsPass x) (hdev : s.pwr.dev = 5) (hleak : s.mod.leakShutdown = false) (h : MayStart s) (hok : s.mod.restartOk = true) :
    ∃ s', exec (.a4Exit x) s = .next s' ∧ s'.ready = true ∧ s'.resetCause = 0x05 := by
  have hstarted := started_startUp 0x05 hx h hok
  refine ⟨_, (if_neg ?_).trans (if_pos hdev), hstarted.ready, hstarted.cause⟩
  rw [hleak, hdev]
  decide

/-- The saved state of A4 with no partition saved (R408, R467). -/
theorem restoreA4_bare {s : State} (h : s.saved.parts = []) : restoreA4 s = { s with rings := s.saved.rings, table := s.saved.table, tiles := s.saved.tiles, parts := [], saved := {} } := by
  unfold restoreA4
  dsimp only
  rw [h]
  rfl

/-- The state as A4 is left, before its saved part is restored (R411, R420). -/
def leavingA4 (s : State) : State :=
  { openWindow { s with pwr := { reloaded s.pwr with dev := 0, pmeDone := false } } with pwr := { (openWindow { s with pwr := { reloaded s.pwr with dev := 0, pmeDone := false } }).pwr with leftA4 := some (now (openWindow { s with pwr := { reloaded s.pwr with dev := 0, pmeDone := false } })) } }

theorem leavingA4_fields (s : State) : guards (leavingA4 s) = guards s ∧ (leavingA4 s).saved = s.saved ∧ (leavingA4 s).resetCause = s.resetCause := by
  obtain ⟨-, hleak, hhot, hvin⟩ := dev_reloaded s.pwr
  have hframe := openWindow_frame { s with pwr := { reloaded s.pwr with dev := 0, pmeDone := false } }
  unfold leavingA4
  generalize openWindow { s with pwr := { reloaded s.pwr with dev := 0, pmeDone := false } } = s1 at hframe ⊢
  have hguards : guards s1 = guards { s with pwr := { reloaded s.pwr with dev := 0, pmeDone := false } } := (congrArg guards hframe :)
  refine ⟨Eq.trans (b := guards s1) rfl (hguards.trans ?_), (congrArg State.saved hframe :), (congrArg State.resetCause hframe :)⟩
  simp only [guards, hleak, hhot, hvin]

theorem started_a4Exit {s : State} {x : StartCfg} (hx : TestsPass x) (hdev : s.pwr.dev = 4) (hleak : s.mod.leakShutdown = false) (h : MayStart s) (hvalid : s.saved.valid = true) (hparts : s.saved.parts = []) :
    ∃ s', exec (.a4Exit x) s = .next s' ∧ s'.ready = true ∧ s'.resetCause = s.resetCause ∧ s'.table = s.saved.table ∧ s'.saved = {} := by
  obtain ⟨hguards, hsaved, hcause⟩ := leavingA4_fields s
  have hexec : exec (.a4Exit x) s = .next (bringUp (if (leavingA4 s).saved.valid ∧ x.sealOk ∧ (x.slotOk ∨ x.otherOk) then restoreA4 (leavingA4 s) else { leavingA4 s with saved := {} }) x (leavingA4 s).resetCause) := by
    refine (if_neg ?_).trans ((if_neg ?_).trans rfl)
    · rw [hleak, hdev]; decide
    · rw [hdev]; decide
  rw [hcause, hsaved, if_pos ⟨hvalid, hx.sealed, hx.image⟩, restoreA4_bare (by rw [hsaved]; exact hparts), hsaved] at hexec
  have hstarted := started_bringUp (s := { leavingA4 s with rings := s.saved.rings, table := s.saved.table, tiles := s.saved.tiles, parts := [], saved := {} }) s.resetCause hx (h.of_guards hguards)
  obtain ⟨-, htable, -, -, -, hnone, -, -⟩ := hstarted.bare rfl
  exact ⟨_, hexec, hstarted.ready, hstarted.cause, htable, hnone⟩

end Sys2Proof.Machine

end

section

/-! SUPPORT. Resets of functions and of the host link, and the training of ports (R290, R344, R354, R458, R459, R461). -/

namespace Sys2Proof.Machine

open Sys2Proof

/-! ## Function-level resets -/

theorem funcs_resetVf (s : State) (p : Nat) : (resetVf s p).funcs = s.funcs := by
  unfold resetVf
  split
  · rfl
  · extract_lets s1 pair2 s2 s3
    have hcancelled : office s3 = office s2 := office_foldl (fun _ _ => office_silentCancel ..) _ _
    have hlater : office (idleCompose (settlePins s3 p) p) = office s2 := (office_idleCompose ..).trans ((office_settlePins ..).trans hcancelled)
    exact (funcs_of_office hlater :)

theorem getFunc_resetVf (s : State) (p f : Nat) : getFunc (resetVf s p) f = getFunc s f := by rw [getFunc, funcs_resetVf, getFunc]

section
variable {s : State} (vf : Fin 64)

theorem exec_flr (hlife : s.mod.lifeStarted = true) (hdev : s.pwr.dev < 4) : exec (.flr vf) s = .next (modFunc (resetVf s vf) (vf.val + 1) (fun f => resetFunc f 0x04)) :=
  if_neg (by rw [hlife]; rintro (h | h); exacts [absurd h (by decide), absurd h (by omega)])

theorem exec_vfEnable (hlife : s.mod.lifeStarted = true) (hdev : s.pwr.dev < 4) : exec (.vfEnable vf) s = .next (modFunc s (vf.val + 1) (fun f => { f with enabled := true })) :=
  if_neg (by rw [hlife]; rintro (h | h); exacts [absurd h (by decide), absurd h (by omega)])

end

/-! ## Host-link resets -/

/-- A ring that a reset names is gone, or holds RING_COUNT alone (R290, R461). -/
def forgetRing (mine : Nat → Bool) (q : Nat × Ring) : Option (Nat × Ring) := if mine q.1 then (if q.2.count = 0 then none else some (q.1, { count := q.2.count })) else some q

theorem tabGet_forgetRing {mine : Nat → Bool} {n : Nat} (hn : mine n = true) (l : Tab Ring) :
    (∀ r, tabGet? n (l.filterMap (forgetRing mine)) = some r → r.cfg = 0 ∧ r.waiting = []) ∧
      ∀ r, tabGet? n l = some r → r.count ≠ 0 → tabGet? n (l.filterMap (forgetRing mine)) = some { count := r.count } := by
  induction l with
  | nil => exact ⟨fun r h => absurd h (by simp [tabGet?]), fun r h => absurd h (by simp [tabGet?])⟩
  | cons q l ih =>
    obtain ⟨k, y⟩ := q
    obtain ⟨hforgot, hcount⟩ := ih
    by_cases hk : n = k
    · subst hk
      by_cases hy : y.count = 0
      · have hgone : forgetRing mine (n, y) = none := (if_pos hn).trans (if_pos hy)
        rw [List.filterMap_cons_none hgone]
        refine ⟨hforgot, fun r hr hr0 => absurd ?_ hr0⟩
        simp only [tabGet?, if_true, Option.some.injEq] at hr
        exact hr ▸ hy
      · have hleft : forgetRing mine (n, y) = some (n, { count := y.count }) := (if_pos hn).trans (if_neg hy)
        rw [List.filterMap_cons_some hleft]
        simp only [tabGet?, if_true, Option.some.injEq]
        exact ⟨fun r hr => hr ▸ ⟨rfl, rfl⟩, fun r hr _ => by rw [hr]⟩
    · have hother : tabGet? n ((k, y) :: l) = tabGet? n l := by simp only [tabGet?, if_neg hk]
      have hskip : tabGet? n (((k, y) :: l).filterMap (forgetRing mine)) = tabGet? n (l.filterMap (forgetRing mine)) := by
        cases hf : forgetRing mine (k, y) with
        | none => rw [List.filterMap_cons_none hf]
        | some z =>
          have hz : z.1 = k := by
            unfold forgetRing at hf
            split at hf
            · split at hf
              · cases hf
              · cases hf; rfl
            · cases hf; rfl
          rw [List.filterMap_cons_some hf]
          obtain ⟨j, w⟩ := z
          simp only [tabGet?, show j = k from hz, if_neg hk]
      rw [hskip, hother]
      exact ⟨hforgot, hcount⟩

theorem getRing_resetRings {s s' : State} {n : Nat} (hn : n < 8192) (hrings : s'.rings = s.rings.filterMap (forgetRing (fun r => decide (r < 8192)))) :
    (getRing s' n).cfg = 0 ∧ (getRing s' n).waiting = [] ∧ ((getRing s n).count ≠ 0 → (getRing s' n).count = (getRing s n).count) := by
  obtain ⟨hforgot, hcount⟩ := tabGet_forgetRing (mine := fun r => decide (r < 8192)) (decide_eq_true hn) s.rings
  simp only [getRing, if_pos hn, tabGetD, hrings]
  refine ⟨?_, ?_, fun hc => ?_⟩
  · cases h : tabGet? n (s.rings.filterMap (forgetRing (fun r => decide (r < 8192)))) with
    | none => rfl
    | some r => exact (hforgot r h).1
  · cases h : tabGet? n (s.rings.filterMap (forgetRing (fun r => decide (r < 8192)))) with
    | none => rfl
    | some r => exact (hforgot r h).2
  · cases h : tabGet? n s.rings with
    | none => exact absurd (by rw [h]; rfl) hc
    | some r =>
      rw [h] at hc
      rw [hcount r h hc]
      rfl

theorem getFunc_resetFuncs {s s' : State} (hfuncs : s'.funcs = s.funcs.map (fun q => (q.1, resetFunc q.2 0))) (f : Nat) :
    (getFunc s' f).errAccess = (getFunc s f).errAccess ∧ (getFunc s' f).enabled = false := by
  have hget : tabGet? f (s.funcs.map (fun q => (q.1, resetFunc q.2 0))) = (tabGet? f s.funcs).map (fun g => resetFunc g 0) := tabGet_map (fun g => resetFunc g 0) f s.funcs
  rw [getFunc, getFunc, tabGetD, tabGetD, hfuncs, hget]
  cases tabGet? f s.funcs with
  | none => exact ⟨rfl, rfl⟩
  | some g => exact ⟨rfl, rfl⟩

/-- The state that the reset of the host link leaves (R461, R462). -/
def linkReset (kind : LinkReset) (s : State) : State :=
  { s with push := [], funcs := s.funcs.map (fun q => (q.1, resetFunc q.2 0)), resetCause := match kind with | .perst => 0x02 | .hotOrDown => 0x06 }

/-- A host-link reset of a device without partitions (R461, R462). -/
theorem exec_perstN_bare {s : State} (kind : LinkReset) (hlife : s.mod.lifeStarted = true) (hdev : s.pwr.dev < 4) (hready : s.ready = true) (hparts : s.parts = []) :
    exec (.perstN kind) s = .next (linkReset kind (resetRings s (fun r => decide (r < 8192)))) := by
  have hfold : s.parts.foldl (fun s q => resetVf s q.1) (resetRings s (fun r => decide (r < 8192))) = resetRings s (fun r => decide (r < 8192)) := by
    rw [hparts]
    rfl
  rw [← hfold]
  refine (if_neg ?_).trans (if_neg ?_)
  · rw [hlife]
    rintro (h | h)
    · exact absurd h (by decide)
    · omega
  · rw [hready]
    decide

/-! ## Training -/

/-- Installing a search's result leaves each port up or down. -/
theorem portUp_mapPorts (f : Nat × FabPort → FabPort) (hf : ∀ q, portUp (f q) = portUp q.2) (l : Tab FabPort) (p : Nat) :
    portUp (tabGetD (l.map (fun q => (q.1, f q))) p {}) = portUp (tabGetD l p {}) := by
  induction l with
  | nil => rfl
  | cons q l ih =>
    obtain ⟨k, y⟩ := q
    simp only [tabGetD, List.map_cons, tabGet?] at ih ⊢
    split
    · exact hf (k, y)
    · exact ih

theorem portUp_install (s : State) (mods sws : List (BitVec 64)) (routes : List Route) (p : Nat) : portUp (getPort (install s mods sws routes) p) = portUp (getPort s p) := by
  unfold install
  extract_lets peer fab1 s1
  have hports : (settleReach s1 true).fab.ports = s1.fab.ports := ports_of_portGate (portGate_settleReach ..)
  rw [getPort, hports]
  refine portUp_mapPorts (fun q => if q.1 < 16 ∧ portUp q.2 then { q.2 with status := setBits q.2.status 31 16 (peer q.2) } else q.2) (fun q => ?_) s.fab.ports p
  dsimp only
  split
  · exact bit_setBits_of_disjoint _ (by decide) _
  · rfl

theorem portUp_trySearch (s : State) (p : Nat) : portUp (getPort (trySearch s) p) = portUp (getPort s p) := by
  unfold trySearch
  split
  · rfl
  · split
    · exact portUp_install ..
    · rfl

theorem portUp_bumpEpoch (s : State) (p : Nat) : portUp (getPort (bumpEpoch s) p) = portUp (getPort s p) := portUp_trySearch ..

/-- A port that has not flapped rises. -/
theorem portUp_portRise {s : State} {p : Nat} (lanes : BitVec 4) (h : (getPort s p).changes = []) : portUp (getPort (portRise s p lanes) p) = true := by
  have hflaps : overFlaps (countChange s p) p = false := by
    rw [overFlaps, countChange, getPort_modPort, if_pos rfl, h]
    rfl
  unfold portRise
  dsimp only
  rw [hflaps, if_neg (by decide), portUp_bumpEpoch, getPort_modPort, if_pos rfl]
  exact bit_setBit_self _ (by decide)

/-- What showing a training changes: LANE_DIAG and the fault log. -/
def LanesOnly (s s' : State) : Prop := { s' with log := s.log, logNext := s.logNext, logLost := s.logLost, mod := s.mod } = s

section
variable {s s' : State} (h : LanesOnly s s')
include h

theorem LanesOnly.getPort (p : Nat) : getPort s' p = getPort s p := by
  have hfab : s'.fab = s.fab := (congrArg State.fab (show { s' with log := s.log, logNext := s.logNext, logLost := s.logLost, mod := s.mod } = s from h) :)
  rw [Machine.getPort, Machine.getPort, hfab]
theorem LanesOnly.iod : s'.iod = s.iod := (congrArg State.iod (show { s' with log := s.log, logNext := s.logNext, logLost := s.logLost, mod := s.mod } = s from h) :)
theorem LanesOnly.table : s'.table = s.table := (congrArg State.table (show { s' with log := s.log, logNext := s.logNext, logLost := s.logLost, mod := s.mod } = s from h) :)
theorem LanesOnly.parts : s'.parts = s.parts := (congrArg State.parts (show { s' with log := s.log, logNext := s.logNext, logLost := s.logLost, mod := s.mod } = s from h) :)

end

/-- The IODs may be rewritten beside. -/
theorem LanesOnly.withIod {s s' : State} (h : LanesOnly s s') (i : Iod) : ({ s' with iod := i } : State).table = s.table ∧ ({ s' with iod := i } : State).parts = s.parts := ⟨h.table, h.parts⟩

theorem lanesOnly_faultLog (s : State) (m : Mod) (cls code part action unit : Nat) (phys : BitVec 16) (detail : BitVec 128) : LanesOnly s (faultLog { s with mod := m } cls code part action unit phys detail) := by
  have hframe := faultLog_frame { s with mod := m } cls code part action unit phys detail
  unfold LanesOnly
  generalize faultLog { s with mod := m } cls code part action unit phys detail = s1 at hframe ⊢
  exact (congrArg (fun e : State => { e with mod := s.mod }) hframe :)

theorem lanesOnly_laneFaultLog (s : State) (m : Mod) (port : Nat) (old new : Word64) : LanesOnly s (laneFaultLog { s with mod := m } port old new) := by
  unfold laneFaultLog
  dsimp only
  split
  · exact (rfl : { s with mod := s.mod } = s)
  · split
    · exact lanesOnly_faultLog ..
    · split
      · exact lanesOnly_faultLog ..
      · exact lanesOnly_faultLog ..

/-- The state once LANE_DIAG of a port shows its training (R458, R459). -/
def laneShown (s : State) (port : Nat) (x : Training) : State :=
  laneFaultLog { s with mod := { s.mod with lanes := tabInsert port (laneDiag (tabGetD s.mod.lanes port 0) x) s.mod.lanes } } port (tabGetD s.mod.lanes port 0) (laneDiag (tabGetD s.mod.lanes port 0) x)

theorem lanesOnly_laneShown (s : State) (port : Nat) (x : Training) : LanesOnly s (laneShown s port x) := lanesOnly_laneFaultLog ..

/-- The four lanes of an S port's training. -/
def fourLanes (x : Training) : Training := { x with inverted := x.inverted &&& 0xF, openTx := x.openTx &&& 0xF, openRx := x.openRx &&& 0xF, lanesOk := x.lanesOk &&& 0xF }
/-- The lanes that work (R458). -/
def workingLanes (x : Training) : BitVec 8 := if x.crossed then 0 else x.lanesOk &&& ~~~x.openTx &&& ~~~x.openRx

section
variable {s : State} {port : Fin 22} {x : Training}

/-- An S port that is down and not fenced trains again: it shows whether its lanes are crossed, and rises on the lanes that work. -/
theorem exec_trainingRetryTimer_sPort (hlife : s.mod.lifeStarted = true) (hstopped : s.mod.stopped = none) (hdev : s.pwr.dev < 3) (hport : port.val < 16) (hdown : portUp (getPort s port) = false)
    (hfence : portFenced (getPort s port) = false) :
    exec (.trainingRetryTimer port x) s = .next (if workingLanes (fourLanes x) = 0 then modPort (laneShown s port (fourLanes x)) port (fun q => { q with status := setBit q.status 57 x.crossed })
      else portRise (modPort (laneShown s port (fourLanes x)) port (fun q => { q with status := setBit q.status 57 x.crossed })) port ((workingLanes (fourLanes x)).setWidth 4)) := by
  have hwide : port.val < 18 := by omega
  show execTrainingRetryTimer port x s = _
  unfold execTrainingRetryTimer
  extract_lets up x1 old mod2 s2 ok s3 i iod4 s4 iod5
  have hup : up = false := (if_pos hwide).trans hdown
  have hx1 : x1 = fourLanes x := if_pos hwide
  have hcrossed : x1.crossed = x.crossed := (congrArg Training.crossed hx1 :)
  have hok : ok = workingLanes (fourLanes x) := congrArg workingLanes hx1
  have hs2 : s2 = laneShown s port (fourLanes x) := congrArg (laneShown s port) hx1
  have hs3 : s3 = modPort (laneShown s port (fourLanes x)) port (fun q => { q with status := setBit q.status 57 x.crossed }) := by
    rw [← hs2, ← hcrossed]
    exact if_pos hwide
  rw [if_neg (by rw [hlife, hstopped, hup, hfence]; simp; omega), if_pos hport, hok, hs3]

/-- The state once a pour port shows the lanes of its training (R458). -/
def lanesTrained (s : State) (port : Nat) (x : Training) : State :=
  { laneShown s port x with iod := { (laneShown s port x).iod with portLanes := setBits (laneShown s port x).iod.portLanes (8 * (port - 18) + 7) (8 * (port - 18)) (workingLanes x).toNat } }

theorem iod_lanesTrained (s : State) (port : Nat) (x : Training) :
    (lanesTrained s port x).iod = { s.iod with portLanes := setBits s.iod.portLanes (8 * (port - 18) + 7) (8 * (port - 18)) (workingLanes x).toNat } := by
  have hiod := (lanesOnly_laneShown s port x).iod
  unfold lanesTrained
  dsimp only
  rw [hiod]

theorem lanesTrained_frame (s : State) (port : Nat) (x : Training) : (lanesTrained s port x).table = s.table ∧ (lanesTrained s port x).parts = s.parts := (lanesOnly_laneShown s port x).withIod _

/-- A pour port comes up, or stays as it is. -/
def pourRise (s : State) (i : Nat) (up : Prop) [Decidable up] : State := if up then { s with iod := { s.iod with portsUp := setBit s.iod.portsUp i true } } else s

theorem pourRise_fields (s : State) (i : Nat) (up : Prop) [Decidable up] :
    (pourRise s i up).iod = { s.iod with portsUp := if up then setBit s.iod.portsUp i true else s.iod.portsUp } ∧ (pourRise s i up).table = s.table ∧ (pourRise s i up).parts = s.parts := by
  unfold pourRise
  split <;> exact ⟨rfl, rfl, rfl⟩

/-- A pour port that is down and not fenced trains again: it rises with all 8 lanes. -/
theorem exec_trainingRetryTimer_pourPort (hlife : s.mod.lifeStarted = true) (hstopped : s.mod.stopped = none) (hdev : s.pwr.dev < 3) (hport : ¬ port.val < 18)
    (hdown : s.iod.portsUp.getLsbD (port.val - 18) = false) (hfence : s.iod.portsFenced.getLsbD (port.val - 18) = false) :
    exec (.trainingRetryTimer port x) s = .next (pourRise (lanesTrained s port x) (port.val - 18) (workingLanes x = 0xFF)) := by
  have hhigh : ¬ port.val < 16 := by omega
  show execTrainingRetryTimer port x s = _
  unfold execTrainingRetryTimer
  extract_lets up x1 old mod2 s2 ok s3 i iod4 s4 iod5
  have hup : up = false := (if_neg hport).trans hdown
  have hx1 : x1 = x := if_neg hport
  have hok : ok = workingLanes x := congrArg workingLanes hx1
  have hs2 : s2 = laneShown s port x := congrArg (laneShown s port) hx1
  have hs3 : s3 = laneShown s port x := (if_neg hport).trans hs2
  have hs4 : s4 = lanesTrained s port x := by
    unfold lanesTrained
    rw [← hs3, ← hok]
  have hiod := iod_lanesTrained s port x
  have hfenced : (lanesTrained s port x).iod.portsFenced.getLsbD i = false := by
    rw [hiod]
    exact hfence
  clear_value s4
  subst hs4
  rw [if_neg (by rw [hlife, hstopped, hup]; simp [hport]; omega), if_neg hhigh, if_neg hport, hok, hfenced]
  exact congrArg Host.Outcome.next (if_congr (and_iff_left rfl) rfl rfl)

end

/-- Settles O58: what a start leaves, what each reset forgets, and how a port trains. -/
theorem startUpAndResets : Obligations.StartUpAndResets := by
  unfold Obligations.StartUpAndResets
  refine ⟨?_, ?_, ?_, ?_, ?_, ?_, ?_⟩
  · intro s x himage hnetworks htiles hnewts hcores hpkgs hcomparators hseal
    have hx : TestsPass x := ⟨himage, hnetworks, htiles, hnewts, hcores, hpkgs, hcomparators, hseal⟩
    refine ⟨fun hoff hleak hvin hok => started_powerOn hx hoff hleak hvin hok, fun hon hleak hvin hhot hok hlost hlostNewts => started_resetN hx hon ⟨hlost, hlostNewts, hleak, hhot, hvin⟩ hok,
      fun hdev hshut hleak hvin hhot hok hlost hlostNewts => started_a5Exit hx hdev hshut ⟨hlost, hlostNewts, hleak, hhot, hvin⟩ hok,
      fun hdev hshut hleak hvin hhot hvalid hparts hlost hlostNewts => started_a4Exit hx hdev hshut ⟨hlost, hlostNewts, hleak, hhot, hvin⟩ hvalid hparts⟩
  · exact fun s x hon => if_pos hon
  · intro s hready hstopped hon hdev
    exact if_neg (by rw [hready, hstopped, hon]; simp; omega)
  · intro s vf hlife hdev
    refine ⟨⟨_, exec_flr vf hlife hdev, ?_, fun f hf => ?_⟩, ⟨_, exec_vfEnable vf hlife hdev, rfl, ?_, fun f hf => ?_⟩⟩
    · rw [getFunc_modFunc, if_pos rfl, getFunc_resetVf]
      rfl
    · rw [getFunc_modFunc, if_neg hf, getFunc_resetVf]
    · rw [getFunc_modFunc, if_pos rfl]
    · rw [getFunc_modFunc, if_neg hf]
  · intro s kind hlife hdev hready hparts
    exact ⟨_, exec_perstN_bare kind hlife hdev hready hparts, rfl, hready, rfl, rfl, rfl, getFunc_resetFuncs rfl, fun n hn => getRing_resetRings hn rfl⟩
  · intro s port x hlife hstopped hdev hport hdown hfence
    have hexec := exec_trainingRetryTimer_sPort (x := x) hlife hstopped hdev hport hdown hfence
    refine ⟨fun hcrossed => ?_, fun hcrossed hlanes htx hrx hchanges => ?_⟩
    · have hnone : workingLanes (fourLanes x) = 0 := if_pos hcrossed
      rw [if_pos hnone] at hexec
      refine ⟨_, hexec, ?_, ?_⟩
      · rw [getPort_modPort, if_pos rfl, (lanesOnly_laneShown ..).getPort]
        exact (bit_setBits_of_disjoint _ (by decide) _).trans hdown
      · rw [getPort_modPort, if_pos rfl, hcrossed]
        exact bit_setBit_self _ (by decide)
    · have hsome : workingLanes (fourLanes x) ≠ 0 := by
        have hall : ∀ b : BitVec 8, b &&& ~~~(0 &&& 0xF) &&& ~~~(0 &&& 0xF) = b := by decide
        have hval : workingLanes (fourLanes x) = x.lanesOk &&& 0xF := by
          rw [workingLanes, fourLanes, hcrossed, htx, hrx]
          exact (if_neg Bool.false_ne_true).trans (hall _)
        rw [hval]
        exact hlanes
      rw [if_neg hsome] at hexec
      refine ⟨_, hexec, portUp_portRise _ ?_⟩
      rw [getPort_modPort, if_pos rfl, (lanesOnly_laneShown ..).getPort]
      exact hchanges
  · intro s port x hlife hstopped hdev hdown hfence hcrossed htx hrx
    have hall : ∀ b : BitVec 8, b &&& ~~~0 &&& ~~~0 = b := by decide
    have hworking : workingLanes x = x.lanesOk := by
      rw [workingLanes, hcrossed, htx, hrx, if_neg (by decide), hall]
    have hidx : 18 + port.val - 18 = port.val := Nat.add_sub_cancel_left ..
    have hhigh : ¬ (18 + port.val < 18) := by omega
    have hexec := exec_trainingRetryTimer_pourPort (port := ⟨18 + port.val, by omega⟩) (x := x) hlife hstopped hdev hhigh (by rw [hidx]; exact hdown) (by rw [hidx]; exact hfence)
    have hiod := iod_lanesTrained s (18 + port.val) x
    obtain ⟨htable, hparts⟩ := lanesTrained_frame s (18 + port.val) x
    dsimp only at hexec
    generalize lanesTrained s (18 + port.val) x = s1 at hexec hiod htable hparts
    rw [hidx, hworking] at hiod hexec
    obtain ⟨hrisen, hrisenTable, hrisenParts⟩ := pourRise_fields s1 port (x.lanesOk = 0xFF)
    refine ⟨_, hexec, fun hwide => ?_, fun hwide => ?_, ?_, hrisenTable.trans htable, hrisenParts.trans hparts⟩
    · rw [hrisen, hiod, if_pos hwide]
    · rw [hrisen, hiod, if_neg hwide]
    · rw [hrisen, hiod, bits_setBits_self _ (by omega)]
      exact Nat.mod_eq_of_lt (lt_of_lt_of_eq x.lanesOk.isLt (by congr 1; omega))

end Sys2Proof.Machine

end
